-- ==== Sys2Proof/Word.lean ====
section
/-! DEFINITION. The word types of the block: a byte, a 32-bit word, a 64-bit table entry (R5, R97, R71). -/

namespace Sys2Proof

/-- One byte of any memory, image, frame or record. -/
abbrev Byte := BitVec 8

/-- One 32-bit word: a fabric lane (R64), a register of a bank (R397), a word of a command record (R97). -/
abbrev Word := BitVec 32

/-- One 64-bit word: a route-table or directory entry (R70), a beat of the HCP (R272). -/
abbrev DWord := BitVec 64

end Sys2Proof
end

