-- ==== Sys2Proof/Syntax.lean ====
section
/-! DEFINITION. The commands of the block: one constructor of `Instr` for each row of the
opcode table, with the operands that row's step takes from outside the block.

Reading of the operands (log entry 1).  `pc` is a physical core, `ctx` a list context (R23),
`at` the LTC reading at which a time-driven event falls (the block first lets that much time pass).
What a step reads from the outside world (a beat on a memory port, a frame, an answer of the
translation agent, the outcome of a self-test) is an operand of its row. -/

namespace Sys2Proof

/-- The two list contexts of a command unit (R23): foreground for MUST lists, background for CARRY lists. -/
inductive Ctx where
  | fg | bg
  deriving DecidableEq, Repr

/-- RESP of a PBP beat or write response (R269). -/
inductive Resp where
  | ok | dataErr | noTarget | translateFault
  deriving DecidableEq, Repr

/-- The answer of the translation agent (R276, R385). -/
inductive XStatus where
  | ok | notPresent | noPermission | agentError
  deriving DecidableEq, Repr

/-- The masters of the control matrix, numbered 0 to 5 by R286. -/
inductive Master where
  | hcp | sq0 | sq1 | sq2 | sq3 | sm
  deriving DecidableEq, Repr

/-- The agreement pairs of R226, with the number that picks one of several. -/
inductive PairId where
  | gong
  | partition (p : Nat)
  | queue (q : Nat)
  | peal (g : Nat)
  | region (n : Nat)
  | admission
  deriving DecidableEq, Repr

/-- The two halves of an agreement pair, A and B of the table of R226. -/
inductive Half where
  | a | b
  deriving DecidableEq, Repr

/-- A time-driven wake of AON (R305): the programmed compare, or the compare the TU wrote for a region. -/
inductive Compare where
  | programmed
  | tu (g : Nat)
  deriving DecidableEq, Repr

/-- Where a memory word lies, as R329 tells the memories apart. -/
inductive MemKind where
  | trf (pc : Nat) | staging (pc : Nat) | rowCache (pc : Nat)
  | pool | routeTable | retention
  | syncObjects | queueMemory | routeDirectory
  | seqList (sq : Nat) | seqCode (sq : Nat) | carillonStore | eventBuffer
  deriving DecidableEq, Repr

/-- The class the memory code gives a word on a read (R326). -/
inductive WordClass where
  | clean | correctable | poisoned | uncorrectable
  deriving DecidableEq, Repr

/-- The unit a detector report names (R331, R332). -/
inductive ReportUnit where
  | core (pc : Nat)
  | region (g : Nat)
  | memory (k : MemKind) (word : Nat)
  | buffer (b : Nat)
  | pair (p : Nat)
  | smOrSpineTarget
  | seqPort (pair : Nat)
  | srp
  | clkRef
  | duplicate
  | port (p : Nat)
  | time
  deriving DecidableEq, Repr

/-- A detector report as it reaches the SM (R331): the detector, the unit, a code of R356 where the
rule names one other than 0x0309, the information word of SM_DETECT, and whether it was injected. -/
structure Report where
  det      : Nat
  unit     : ReportUnit
  code     : Nat
  info     : BitVec 32
  injected : Bool
  deriving DecidableEq, Repr

/-- A frame on a SIN port (R182): the 128-byte header beat and the data beats up to the LAST beat. -/
structure SinFrame where
  header : List Byte
  beats  : List (List Byte)
  deriving DecidableEq, Repr

/-- The key port as it stands at start entry (R363, R383). -/
structure KeyPort where
  digest : BitVec 384
  svn    : BitVec 8
  valid  : Bool
  deriving DecidableEq, Repr

/-- One translation answer (R276): physical page, page size code of R385 and permissions. -/
structure XlateAnswer where
  status : XStatus
  pa     : BitVec 52
  page   : Nat
  read   : Bool
  write  : Bool
  deriving DecidableEq, Repr

/-- A write beat of a burst on the HCP (R168, R272): 8 bytes of data with their strobes, and the POISON bit. -/
structure HcpBeat where
  data   : DWord
  strb   : BitVec 8
  poison : Bool
  deriving DecidableEq, Repr

/-- The commands of the block, in the order of the rows of the opcode table. -/
inductive Instr where
  | gong (at_ : Nat)
  | stroke (at_ : Nat)
  | curfew (at_ : Nat)
  | auditComplete (at_ : Nat)
  | pairApply (p : PairId)
  | gongEnable
  | gongDisable
  | gongModeWrite (mode : Bool)
  | gongTypeOvrArm (type : BitVec 4)
  | clrCnt
  | clrMin
  | pairHalfWrite (p : PairId) (h : Half) (v : Word)
  | registerWrite (off : Nat) (v : DWord) (strb : BitVec 8)
  | trfPartWrite (pc : Nat) (part : Bool)
  | trfPartApply (pc : Nat)
  | trfCntClr (pc : Nat)
  | tld (pc : Nat) (ctx : Ctx)
  | tst (pc : Nat) (ctx : Ctx)
  | tmov (pc : Nat) (ctx : Ctx)
  | perm (pc : Nat) (ctx : Ctx)
  | permx (pc : Nat) (ctx : Ctx)
  | axp (pc : Nat) (ctx : Ctx)
  | trn (pc : Nat) (ctx : Ctx)
  | gth (pc : Nat) (ctx : Ctx)
  | sct (pc : Nat) (ctx : Ctx)
  | shuf (pc : Nat) (ctx : Ctx)
  | brev (pc : Nat) (ctx : Ctx)
  | ilv (pc : Nat) (ctx : Ctx)
  | dil (pc : Nat) (ctx : Ctx)
  | remap (pc : Nat) (ctx : Ctx)
  | win (pc : Nat) (ctx : Ctx)
  | redp (pc : Nat) (ctx : Ctx)
  | sort (pc : Nat) (ctx : Ctx)
  | cvt (pc : Nat) (ctx : Ctx)
  | scale (pc : Nat) (ctx : Ctx)
  | qnt (pc : Nat) (ctx : Ctx)
  | dqn (pc : Nat) (ctx : Ctx)
  | hold (pc : Nat) (ctx : Ctx)
  | wait (pc : Nat) (ctx : Ctx)
  | sig (pc : Nat) (ctx : Ctx)
  | hpop (pc : Nat) (ctx : Ctx)
  | hpush (pc : Nat) (ctx : Ctx)
  | pdl (pc : Nat) (ctx : Ctx)
  | admission (pc : Nat) (ctx : Ctx)
  | stamp (pc : Nat) (ctx : Ctx)
  | fence (pc : Nat) (ctx : Ctx)
  | endList (pc : Nat) (ctx : Ctx)
  | malletGrant (at_ : Nat)
  | tileComplete (pc : Nat) (id : Nat)
  | tileRestart (pc : Nat) (id : Nat)
  | rowReturn (pc : Nat) (id : Nat) (row : Nat)
  | routeFetchComplete (pc : Nat) (slot : Nat)
  | solveComplete (pc : Nat) (slot : Nat)
  | xcxContribution (lc : Nat) (coll : Nat) (slice : Nat)
  | xcxWaitLimitExpiry (coll : Nat) (at_ : Nat)
  | fabCntClr (pc : Nat)
  | routeTableWrite (off : Nat) (v : DWord) (strb : BitVec 8)
  | shadowDirWrite (off : Nat) (v : DWord) (strb : BitVec 8)
  | routeUpdArm
  | routeUpdDrop
  | soCountWrite (so : Nat) (v : Word) (strb : BitVec 4)
  | soAddWrite (so : Nat) (v : Word) (strb : BitVec 4)
  | cvtLfsrWrite (pc : Nat) (v : Word)
  | cvtCntClr (pc : Nat)
  | histClr (lc : Nat) (slot : Nat)
  | poolWindowRead (off : Nat) (n : Nat)
  | poolWindowWrite (off : Nat) (beats : List HcpBeat)
  | sinFrame (port : Nat) (f : SinFrame)
  | soutFrame (port : Nat)
  | soutCredit (port : Nat) (n : Nat)
  | ringPoll (ring : Nat) (index : Option Word) (descs : List (List Byte)) (at_ : Nat)
  | outboundRingCopy (ring : Nat) (at_ : Nat)
  | burstFlush (chan : Nat)
  | deadlockDetect (at_ : Nat)
  | spillComplete (q : Nat) (slot : Nat)
  | streamCntClr
  | stallCntClr (pc : Nat)
  | load
  | loadStaged
  | abort
  | commit
  | restore
  | drop
  | pairDrop
  | cfgKeyLock
  | cfgCrcCheck (at_ : Nat)
  | imageResume
  | interpCalibrate (k : Nat) (at_ : Nat)
  | todWord (w : BitVec 128) (bits : Nat)
  | timePulse (c : Nat) (at_ : Nat)
  | pulseTimeout (at_ : Nat)
  | setCtrlGo
  | rateNomWrite (v : DWord)
  | eventRingWrite (ring : Nat) (n : Nat) (at_ : Nat)
  | ringConsumerPoll (ring : Nat) (index : Word) (at_ : Nat)
  | watermarkWrite (ring : Nat) (at_ : Nat)
  | mpReadData (port : Nat) (tag : Nat) (data : List Byte) (resp : Resp) (poison : BitVec 2) (last : Bool)
  | mpWriteResponse (port : Nat) (tag : Nat) (resp : Resp)
  | mpRetry (port : Nat) (tag : Nat) (at_ : Nat)
  | xlpResponse (id : Nat) (a : XlateAnswer)
  | xlpRequestTimeout (id : Nat) (at_ : Nat)
  | xlpInvalidate (pasid : Nat) (va : Nat) (count : Nat) (all : Bool)
  | xlpRetry (wait : Nat) (at_ : Nat)
  | flimitExpiry (wait : Nat) (at_ : Nat)
  | tlbInvAll
  | xlpPasidWrite (pasid : BitVec 20) (en : Bool)
  | quiesceReqRise
  | quiesceReqFall
  | resetQuiesceTimeout (at_ : Nat)
  | hcpAccessInReset (off : Nat) (write : Bool)
  | defaultTargetAccess (m : Master) (off : Nat) (write : Bool)
  | regionOffAccess (m : Master) (off : Nat) (write : Bool)
  | hcpReset
  | stateEntryComplete (g : Nat)
  | aonCompareWake (c : Compare) (at_ : Nat)
  | wakePin
  | wspFrame (addr : BitVec 8) (parity : Bool)
  | sinActivityWake (port : Nat)
  | wakeStepComplete (g : Nat)
  | wakeStepTimeout (g : Nat)
  | rgnVoteSet (g : Nat) (v : BitVec 16)
  | rgnVoteClr (g : Nat) (v : BitVec 16)
  | lastWakeAck
  | blockOff
  | railReqGo (mv : BitVec 10)
  | srpAnswer (body : BitVec 2) (parityOk : Bool)
  | srpTimeout (at_ : Nat)
  | neighbourSample (temps : List Int) (at_ : Nat)
  | throttleEdge (level : Bool)
  | refSel (level : Bool)
  | refStartTimeout (at_ : Nat)
  | corePgFall
  | detectorReport (r : Report)
  | drainWindowEnd (pc : Nat) (at_ : Nat)
  | knellReqGo (pc : BitVec 5)
  | scrubRead (k : MemKind) (word : Nat) (c : WordClass)
  | watchdogProbe (pc : Nat) (answered : Bool) (at_ : Nat)
  | injArm (det : Nat) (v : Word)
  | injection (det : Nat) (at_ : Nat)
  | lockstepMismatch (pair : Nat)
  | pairRestartComplete (pair : Nat) (pass0 : Bool) (pass1 : Bool)
  | duplicateStateMismatch
  | diagGo (pc : BitVec 5)
  | diagComplete (pass : Bool)
  | unknell (pc : BitVec 5)
  | ptestCycle (failed : List (Nat × Option Nat)) (at_ : Nat)
  | coldStart (key : KeyPort) (inst : BitVec 6)
  | warmStart (key : KeyPort)
  | bistComplete (coreFail : BitVec 18) (spineFail : Bool) (controlFail : Bool) (aonFail : Bool)
  | fetch
  | limnyRunning (selfTestPass : Bool)
  | bootWdogExpiry (at_ : Nat)
  | restart
  | fscClr
  | monBist (coreFail : BitVec 18) (spineFail : Bool) (controlFail : Bool)
  | monReadRetention (arg : Word)
  | monReserved (cmd : BitVec 8)
  | jtagBypass
  | jtagIdcode
  | jtagMbist (coreFail : BitVec 18) (spineFail : Bool) (controlFail : Bool)
  | jtagScan
  | warmReset
  | powerOnReset
  | regionReturnToRun (g : Nat)
  deriving DecidableEq, Repr

end Sys2Proof
end

