-- ==== Sys2Proof/Decode.lean ====
section
/-! DEFINITION. The word form of a command.  The rows of the opcode table give no bits: the commands of this block
are accesses and events, and no word of the spec spells one, so no word decodes to a command (log entry 1). -/

namespace Sys2Proof

/-- The command a word spells by the table's bits: none, for no row of the table has bits (DESIGN CHOICE, log entry 1). -/
def decodeTableWord (_nbits _w : Nat) : Option Instr := none

end Sys2Proof
end

