-- ==== Sys2Proof/Machine/Crypto.lean ====
section
/-! DEFINITION. SHA-384 and the verification of an ECDSA P-384 signature, which R216 and R363 name: the functions of the
published standards with their constants (PRESUMED, log entry 9). -/

namespace Sys2Proof.Machine

open Sys2Proof

/-- The largest number whose `k`th power is at most `x`, among those below 2 to the `bits`. -/
def iroot (k bits x : Nat) : Nat :=
  (List.range bits).reverse.foldl (fun r b => if (r + 2 ^ b) ^ k ≤ x then r + 2 ^ b else r) 0

/-- The first primes, in order (all below 410: eighty of them). -/
def primes : List Nat :=
  (List.range 410).filter (fun p => decide (2 ≤ p) && (List.range p).all (fun d => decide (d < 2) || decide (p % d ≠ 0)))

/-- The first 64 bits of the fraction of the `k`th root of a small number. -/
def rootFraction (k p : Nat) : DWord := BitVec.ofNat 64 (iroot k 72 (p * 2 ^ (64 * k)))

/-- The round constants of SHA-384: fractions of the cube roots of the first 80 primes (PRESUMED, log entry 9). -/
def shaRound : List DWord := primes.map (rootFraction 3)

/-- The initial hash value of SHA-384: fractions of the square roots of the ninth to sixteenth primes (PRESUMED, log entry 9). -/
def shaInit : List DWord := ((primes.drop 8).take 8).map (rootFraction 2)

/-- A big-endian number. -/
def beNat (bs : List Byte) : Nat := bs.foldl (fun a b => 256 * a + b.toNat) 0

/-- A number as `n` bytes, big-endian. -/
def beBytes (n v : Nat) : List Byte := (List.range n).reverse.map (fun i => BitVec.ofNat 8 (v / 256 ^ i))

/-- A message padded to whole blocks of 128 bytes. -/
def shaPad (m : List Byte) : List Byte :=
  m ++ [0x80] ++ List.replicate ((239 - m.length % 128) % 128) 0 ++ beBytes 16 (8 * m.length)

/-- The message schedule of a block: 80 words from its 16, newest first while it grows. -/
def shaSchedule (block : List Byte) : List DWord :=
  let w0 := (List.range 16).map (fun i => BitVec.ofNat 64 (beNat ((block.drop (8 * i)).take 8)))
  let s0 (x : DWord) := x.rotateRight 1 ^^^ x.rotateRight 8 ^^^ (x >>> 7)
  let s1 (x : DWord) := x.rotateRight 19 ^^^ x.rotateRight 61 ^^^ (x >>> 6)
  ((List.range 64).foldl (fun w _ => (s1 (w.getD 1 0) + w.getD 6 0 + s0 (w.getD 14 0) + w.getD 15 0) :: w) w0.reverse).reverse

/-- One round on the eight working words. -/
def shaStep (v : List DWord) (kw : DWord × DWord) : List DWord :=
  match v with
  | [a, b, c, d, e, f, g, h] =>
    let t1 := h + (e.rotateRight 14 ^^^ e.rotateRight 18 ^^^ e.rotateRight 41) + ((e &&& f) ^^^ (~~~e &&& g)) + kw.1 + kw.2
    let t2 := (a.rotateRight 28 ^^^ a.rotateRight 34 ^^^ a.rotateRight 39) + ((a &&& b) ^^^ (a &&& c) ^^^ (b &&& c))
    [t1 + t2, a, b, c, d + t1, e, f, g]
  | _ => v

/-- One block compressed into the hash value. -/
def shaBlock (ks h : List DWord) (block : List Byte) : List DWord :=
  List.zipWith (· + ·) h ((List.zip ks (shaSchedule block)).foldl shaStep h)

/-- SHA-384 (R216, R363) (PRESUMED, log entry 9). -/
def sha384 (m : List Byte) : List Byte :=
  let p := shaPad m
  let ks := shaRound
  let h := (List.range (p.length / 128)).foldl (fun h i => shaBlock ks h ((p.drop (128 * i)).take 128)) shaInit
  (h.take 6).flatMap (fun w => beBytes 8 w.toNat)

/-! ### ECDSA over the curve P-384 -/

/-- The field of P-384. -/
def p384 : Nat := 2 ^ 384 - 2 ^ 128 - 2 ^ 96 + 2 ^ 32 - 1

/-- The order of the base point. -/
def n384 : Nat :=
  0xffffffffffffffffffffffffffffffffffffffffffffffffc7634d81f4372ddf581a0db248b0a77aecec196accc52973

/-- The constant of the curve equation y² = x³ − 3x + b. -/
def b384 : Nat :=
  0xb3312fa7e23ee7e4988e056be3f82d19181d9c6efe8141120314088f5013875ac656398d8a2ed19d2a85c8edd3ec2aef

/-- The base point. -/
def g384 : Nat × Nat :=
  (0xaa87ca22be8b05378eb1c71ef320ad746e1d3b628ba79b9859f741e082542a385502f25dbf55296c3a545e3872760ab7,
   0x3617de4a96262c6f5d9e98bf9292dc29f8f41dbd289a147ce9da3113b5f0b8c00a60b1ce1d7e819d7a431d7c90ea0e5f)

/-- A power modulo `m`, by the 384 bits of the exponent. -/
def powMod (m b e : Nat) : Nat :=
  (List.range 384).reverse.foldl (fun r i => let r := r * r % m; if e.testBit i then r * b % m else r) 1

/-- The inverse modulo a prime. -/
def invMod (m a : Nat) : Nat := powMod m (a % m) (m - 2)

/-- Whether two numbers are a point of the curve. -/
def onCurve (q : Nat × Nat) : Bool :=
  decide (q.1 < p384) && decide (q.2 < p384)
    && decide (q.2 * q.2 % p384 = (q.1 * q.1 * q.1 + (p384 - 3) * q.1 + b384) % p384)

/-- The sum of two points; none is the point at infinity. -/
def addPoint (a b : Option (Nat × Nat)) : Option (Nat × Nat) :=
  match a, b with
  | none, q => q
  | q, none => q
  | some (x1, y1), some (x2, y2) =>
    if x1 = x2 ∧ (y1 + y2) % p384 = 0 then none
    else
      let l := if x1 = x2 then (3 * x1 * x1 + (p384 - 3)) * invMod p384 (2 * y1)
               else (y2 + (p384 - y1)) * invMod p384 (x2 + (p384 - x1))
      let l := l % p384
      let x := (l * l + 2 * p384 - x1 - x2) % p384
      some (x, (l * (x1 + (p384 - x)) + (p384 - y1)) % p384)

/-- A multiple of a point. -/
def mulPoint (k : Nat) (q : Nat × Nat) : Option (Nat × Nat) :=
  (List.range 384).reverse.foldl (fun r i => let r := addPoint r r; if k.testBit i then addPoint r (some q) else r) none

/-- Whether a signature (r, s) of a digest verifies under a public key given as an uncompressed SEC1 point (R216)
(PRESUMED, log entry 9). -/
def ecdsaVerify (key digest rb sb : List Byte) : Bool :=
  let r := beNat rb
  let t := beNat sb
  let q := (beNat ((key.drop 1).take 48), beNat ((key.drop 49).take 48))
  decide (key.length = 97) && decide (key.take 1 = [0x04]) && onCurve q
    && decide (0 < r ∧ r < n384) && decide (0 < t ∧ t < n384)
    && (let w := invMod n384 t
        match addPoint (mulPoint (beNat digest * w % n384) g384) (mulPoint (r * w % n384) q) with
        | none => false
        | some (x, _) => decide (x % n384 = r))

end Sys2Proof.Machine
end

