-- ==== Sys2Proof/Config.lean ====
section
/-! DEFINITION. What an implementation fixes and what the spec leaves open: the integration parameters
of R374 as plain data, and the free values and free functions, which have no body. -/

namespace Sys2Proof

/-- The three configurations of R1. -/
inductive Size where
  | mpx4 | mpx8 | mpx16
  deriving DecidableEq, Repr

/-- The integration parameters of R374, with the delivery and the stepping that GLB_ID and GLB_CONFIG show,
the number (INST_ID) sampled when POR_N rises (R383), and the level of the static input TEST_EN (R376). -/
structure Params where
  size       : Size
  cmSlices   : Nat
  railBootMv : Nat
  slowclkEn  : Bool
  refStartUs : Nat
  srpEn      : Bool
  jtagMfr    : BitVec 11
  stepping   : BitVec 8
  rtl        : Bool
  instId     : BitVec 6
  testEn     : Bool
  deriving DecidableEq, Repr

/-- Physical cores of the configuration (R1). -/
def Params.npc (p : Params) : Nat :=
  match p.size with
  | .mpx4 => 5 | .mpx8 => 9 | .mpx16 => 18

/-- Logical cores of the configuration (R1). -/
def Params.nlc (p : Params) : Nat :=
  match p.size with
  | .mpx4 => 4 | .mpx8 => 8 | .mpx16 => 16

/-- Spare cores of the configuration (R1). -/
def Params.nspare (p : Params) : Nat :=
  match p.size with
  | .mpx4 => 1 | .mpx8 => 1 | .mpx16 => 2

/-- Core regions of the configuration (R1). -/
def Params.ncg (p : Params) : Nat :=
  match p.size with
  | .mpx4 => 2 | .mpx8 => 3 | .mpx16 => 6

/-- The hard macro of MPX-16 (R374): the parameters of State.reset (DESIGN CHOICE, log entry 2). -/
def Params.hardMacro : Params :=
  { size := .mpx16, cmSlices := 1, railBootMv := 650, slowclkEn := true, refStartUs := 50,
    srpEn := true, jtagMfr := 0, stepping := 0, rtl := false, instId := 0, testEn := false }

/-- A fresh free value for each reading of the plain counter `State.freeCnt`: the spec states no value there
(DESIGN CHOICE to leave it free, log entry 7). -/
opaque Config.freeNat : Nat → Nat

/-- The count of core PLL cycles since the last CLK_REF edge at the event that falls in the tick of an LTC reading (R241): no
command gives it but TIME_PULSE, so it is left free (DESIGN CHOICE, log entry 7). -/
opaque Config.pllPhase : Nat → Nat

/-- Which of the two hints of R269 a request carries: not stated, so free (DESIGN CHOICE, log entry 7). -/
opaque Config.hint : Nat → BitVec 1

/-- What a time error shows that a signed 32-bit count of 62.5 ps cannot hold (R245, R267): not stated, so free
(DESIGN CHOICE, log entry 7). -/
opaque Config.wideError : Int → Nat

end Sys2Proof
end

