-- ==== Sys2Proof/Machine/State.lean ====
section
/-! DEFINITION. The state of the block as plain data: every register, memory, queue, buffer, counter, mode
and pin the spec names, the queue of waiting commands, the two stop reasons, and the state at reset.

`SMap α` holds a sparse family of like things by number: an unlisted number holds the default that its
accessor (Machine/Ops.lean) gives, and no entry equals that default.  `Memory` is the same for bytes. -/

namespace Sys2Proof.Machine

/-- A sparse family keyed by number, strictly rising, no entry equal to the default of its accessor. -/
abbrev SMap (α : Type) := List (Nat × α)

/-- An addressed memory of the block: its bytes (an unlisted byte is 0, log entry 5) and the numbers of its
32-byte words that stand in poison form (R326), strictly rising. -/
structure Memory where
  cells  : List Host.Cell
  poison : List Nat
  deriving DecidableEq, Repr

/-- The poison kinds of R172, bit 0 ECC_UE, 1 FABRIC, 2 TRANSLATE, 3 LATE, 4 FAULT, 5 MISSING. -/
abbrev Kinds := BitVec 6

/-- A lane of the fabric or of the exchange (R64): 32 data bits, an 8-bit check symbol (R88) and a poison bit. -/
structure Lane where
  data : Word
  sym  : BitVec 8
  bad  : Bool
  deriving DecidableEq, Repr

/-- A tile register (R34 to R43): its 32-bit words (a missing tail is 0), the numbers of its poisoned
32-byte words (R90), its poison kinds (R57) and its tensor scale exponent t (R139). -/
structure Tile where
  words : List Word
  bad   : List Nat
  kinds : Kinds
  t     : Int
  deriving DecidableEq, Repr

/-- A handle register that holds a handle (R96): the handle, its SIDE word when it is a placeholder (R171),
whether it is an input, the queue it is bound to, and the queues that hold a reserved credit for it: that queue, or the
receiver queues of its peal (R176, R178). -/
structure HReg where
  handle   : Word
  side     : BitVec 128
  input    : Bool
  bound    : Option Nat
  reserved : List Nat
  deriving DecidableEq, Repr

/-- A released list that waits for, or runs in, a context (R23): logical core, slot-plan entry, first record,
CARRY, the GSN of the gong that released it (R24), whether gongs stopped before its deadline gong, so that it is
never cut (R15), and whether it starts only after the partition change that the map wrote at its gong (R61). -/
structure ListRef where
  lc    : Nat
  entry : Nat
  start : Nat
  carry : Bool
  gsn   : Nat
  free  : Bool
  after : Bool
  deriving DecidableEq, Repr

/-- A mallet in hand (R107, R130): its class and its charge (R317). -/
structure Mallet where
  cls    : Nat
  charge : Nat
  deriving DecidableEq, Repr

/-- One list context of a command unit (R23, R94 to R96); `solves` holds the index vectors that the command at the issue
point has queued, with the kinds of their register (R76, R77); `fence` the first command number that a FENCE with XCTX at
the issue point does not wait for (R126). -/
structure Context where
  list      : Option ListRef
  queue     : List ListRef
  index     : Nat
  run       : Nat
  wait      : Option Nat
  waitObj   : Nat
  hregs     : SMap HReg
  held      : Option Mallet
  granted   : Option Mallet
  requested : Bool
  solves    : List (List (Option Nat × Bool) × Kinds)
  fence     : Option Nat
  deriving DecidableEq, Repr

/-- The counts a conversion makes (R140, R142, R149, R151, R156): converted components, saturations, NaN and
infinite inputs, MISSING weights, and the exponent of the tensor maximum. -/
structure CvtStats where
  comps   : Nat
  sat     : Nat
  nan     : Nat
  inf     : Nat
  missing : Nat
  tmax    : Option Int
  deriving DecidableEq, Repr

/-- How far a tile instruction in flight has come. -/
inductive Phase where
  /-- the result is made; TILE_COMPLETE may rename -/
  | done
  /-- a TLD that waits for these rows (register row, memory row) -/
  | rows (need : List (Nat × Nat))
  /-- a TST to HOST that waits for the write responses of its rows -/
  | writes
  /-- a PERMX that waits for its collective -/
  | xcx (coll : Nat)
  /-- abandoned, waiting to restart from row 0 (R53): true once its cause is resolved -/
  | restart (ready : Bool) (asPoison : Bool)
  deriving DecidableEq, Repr

/-- A tile instruction in flight (R50 to R54); `kept` holds the sources a rerun converts again (R160), `late` that FLIMIT
has passed, so that its faulting rows are taken as under POISON (R278), `noted` that a fault of it has been recorded. -/
structure InFlight where
  id     : Nat
  ctx    : Ctx
  list   : ListRef
  index  : Nat
  words  : List Word
  dest   : Option Nat
  slot   : Option Nat
  result : Tile
  srcs   : List Nat
  reads  : List (Nat × Nat)
  writes : List (Nat × Nat)
  phase  : Phase
  mallet : Option Mallet
  stats  : CvtStats
  rerun  : Bool
  late   : Bool
  noted  : Bool
  kept   : List Tile
  deriving DecidableEq, Repr

/-- A route as a slot holds it (R68, R72, R73), or the lane movement a solver made (R76). -/
inductive Route where
  /-- entries of a stored route, header first -/
  | entries (e : List DWord)
  /-- a solved route: output lane j takes input lane m[j], none for the mask value; KEEP or ZERO; two passes in GATHER form -/
  | lanes (m : List (Option Nat)) (keep : Bool) (gather : Bool)
  /-- what a BAD slot does: every output lane 0 and poisoned (R78) -/
  | bad
  deriving DecidableEq, Repr

/-- A route slot RSn (R68, R69): empty, holding a stored or solved route, or BAD (R78). -/
structure RSlot where
  route  : Option Route
  id     : Nat
  gen    : Nat
  solved : Bool
  bad    : Bool
  badK   : Kinds
  fetch  : Bool
  use    : Nat
  deriving DecidableEq, Repr

/-- A solve queued or running (R77). -/
structure Solve where
  slot    : Nat
  index   : List (Option Nat × Bool)
  scatter : Bool
  kinds   : Kinds
  deriving DecidableEq, Repr

/-- A line of the row cache (R55): the space (0 staging, 1 pool, 2 host), the byte address of the row,
its bytes and its poisoned 32-byte words. -/
structure Line where
  space : Nat
  addr  : Nat
  bytes : List Byte
  bad   : List Nat
  kinds : Kinds
  deriving DecidableEq, Repr

/-- A page translation (R275): virtual page base, size in bytes, physical base, permissions. -/
structure TlbEntry where
  va    : Nat
  size  : Nat
  pa    : Nat
  read  : Bool
  write : Bool
  deriving DecidableEq, Repr

/-- The counters of a core bank (03, 04, 06): each saturates. -/
structure CoreCounters where
  latchHit  : Nat
  latchMiss : Nat
  restart   : Nat
  fabPass   : Nat
  fabCheck  : Nat
  solves    : Nat
  redpSat   : Nat
  routeMiss : Nat
  cvtSat    : Nat
  cvtNan    : Nat
  cvtMiss   : Nat
  rescale   : Nat
  under     : Nat
  rerun     : Nat
  deriving DecidableEq, Repr

/-- A physical permutation core (01, 03, 04, 05, 06); `partMap` says that the map wrote the pending partition at the present
gong (R61). -/
structure Core where
  inc        : Nat
  held       : Bool
  part       : Bool
  partPend   : Option Bool
  partMap    : Bool
  drain      : Nat
  tiles      : SMap Tile
  slotOf     : SMap Nat
  latches    : List (Nat × Nat)
  faultRow   : Nat
  faultCause : Nat
  faultDest  : Nat
  flight     : List InFlight
  nextId     : Nat
  fg         : Context
  bg         : Context
  slots      : SMap RSlot
  useClock   : Nat
  solveQ     : List Solve
  errSlot    : Nat
  errCause   : Nat
  errIndex   : Nat
  cnt        : CoreCounters
  lfsr       : BitVec 32
  stall      : SMap Nat
  stallRem   : Nat
  cache      : List Line
  staging    : Memory
  slice      : List TlbEntry
  gongNan    : Nat
  gongInf    : Nat
  gongFab    : Nat
  gongPort   : Nat
  gongPlace  : Nat
  wdogMiss   : Nat
  wdogSeen   : List InFlight
  injLane    : Option Nat
  deriving DecidableEq, Repr

/-- A history slot of a logical core (R155): ring newest first, accumulator, latched adaptation, a pending
clear, and the ring length, headroom, saturation threshold and under-range distance in force (R164, R399). -/
structure Hist where
  ring  : List Int
  acc   : Option Int
  adapt : Bool
  latch : Int
  clr   : Bool
  n     : Nat
  head  : Nat
  satl  : Nat
  under : Nat
  deriving DecidableEq, Repr

/-- A logical core: the physical core the map in force names (R230), its margins (R31) and cut count (R32),
what it did in the present gong (a MUST list released, one cut, the time the last one ended), its history slots (R155),
its paradiddle role bits and the pairs whose inversion waits for the gong (R129). -/
structure LogCore where
  pc         : Option Nat
  knelled    : Bool
  marginLast : Word
  marginMin  : Word
  cuts       : Nat
  must       : Bool
  cutMust    : Bool
  mustDone   : Int
  hist       : SMap Hist
  roles      : BitVec 16
  swaps      : List Nat
  deriving DecidableEq, Repr

/-- A pool partition (R166, R167): range, kind, floor and its free list, head first. -/
structure Partition where
  base     : Nat
  size     : Nat
  reserved : Bool
  floor    : Nat
  free     : List Nat
  deriving DecidableEq, Repr

/-- A handle in a queue: the handle, the SIDE word of a placeholder, the peal whose push placed it,
and the overflow slot of a spill copy in progress (R192). -/
structure QEnt where
  handle   : Word
  side     : BitVec 128
  peal     : Option Nat
  spilling : Option Nat
  deriving DecidableEq, Repr

/-- A handle queue (R174, R175): depth, initial credits, endpoints (R209), handles oldest first, credits at
the producer (reserved ones included), reserved credits (R176), and of a shed peal receiver (R181) the indexes of the
buffers whose placeholders it is owed, oldest first, and the placeholders delivered. -/
structure Queue where
  depth     : Nat
  init      : Nat
  valid     : Bool
  entry     : Bool
  peal      : Nat
  producer  : BitVec 16
  consumer  : BitVec 16
  handles   : List QEnt
  credits   : Nat
  reserved  : Nat
  owed      : List Nat
  delivered : Nat
  deriving DecidableEq, Repr

/-- The state of a pool or external buffer: generation (R170), reference count (R178) and SIDE word (R172). -/
structure Buffer where
  gen  : Nat
  refs : Nat
  side : BitVec 128
  deriving DecidableEq, Repr

/-- A peal (R178 to R181). -/
structure Peal where
  valid  : Bool
  rmask  : BitVec 8
  rcount : Nat
  shed   : BitVec 8
  rq     : List Nat
  entryQ : Nat
  deriving DecidableEq, Repr

/-- A row in the window of a prefetch channel (R185, R188): list record and row, address, its place in the pool, and whether
its data lie there, with the kinds they bring. -/
structure WRow where
  index : Nat
  row   : Nat
  va    : Nat
  place : Nat
  ready : Bool
  kinds : Kinds
  deriving DecidableEq, Repr

/-- A prefetch channel (R185, R186): configuration, window, scan position (record, and row within it), statistics, and the
partial merged bursts: reads as (first address, rows, record), writes as (first address, bytes, poisoned half-beats, core,
instruction). -/
structure Channel where
  valid   : Bool
  cfg     : Word
  win     : List WRow
  scan    : Nat
  scanRow : Nat
  atStop  : Bool
  bytes   : Nat
  rttAvg  : Nat
  rttMax  : Nat
  partRd  : List (Nat × Nat × Nat)
  partWr  : List (Nat × List Byte × List Nat × Nat × Nat)
  deriving DecidableEq, Repr

/-- A frame that a SIN port is receiving (R182): its buffer, its queue, the queues that hold a credit for it, LEN, the SIDE
word of its header, and the data beats that have arrived. -/
structure SinRecv where
  buf   : Nat
  queue : Nat
  held  : List Nat
  len   : Nat
  side  : BitVec 128
  got   : Nat
  deriving DecidableEq, Repr

/-- A frame that a SOUT port is sending (R183): its handle and SIDE word, its selector and length, the rows of an external
buffer as they come from host memory, and the beats sent. -/
structure OutFrame where
  handle : Word
  side   : BitVec 128
  sel    : Nat
  len    : Nat
  rows   : SMap (List Byte)
  sent   : List (List Byte)
  deriving DecidableEq, Repr

/-- A stream port (R182, R183): SIN0 to SIN3 are ports 0 to 3, SOUT0 to SOUT3 ports 4 to 7.  A SIN port holds the beats of
its receive FIFO with their LAST bits, the frame it receives and whether it drains up to LAST; a SOUT port all credits it was
given and the beats it has sent, its next queue in the round, the frame it sends and the last frame sent. -/
structure SPort where
  cfg     : Word
  qlist   : List Nat
  credits : Nat
  frames  : Nat
  fifo    : List (List Byte × Bool)
  recv    : Option SinRecv
  drain   : Bool
  given   : Nat
  beats   : Nat
  rr      : Nat
  out     : Option OutFrame
  lastOut : List (List Byte)
  deriving DecidableEq, Repr

/-- How far the copy of an outbound ring is (R184): an external buffer is read, the slot's buffer is written, the descriptor is
written. -/
inductive CopyPhase where
  | reading | buffer | descriptor
  deriving DecidableEq, Repr

/-- A handle that an outbound ring copies (R184): the handle and its SIDE word, how far the copy is, the rows of an external
buffer as they come, its poisoned 32-byte words, and the rows lost to a fault or an error, with the kinds of their loss (R278). -/
structure RingOut where
  handle : Word
  side   : BitVec 128
  phase  : CopyPhase
  rows   : SMap (List Byte)
  bad    : List Nat
  lost   : Nat
  kinds  : Kinds
  deriving DecidableEq, Repr

/-- An external ring (R184): its registers, the index of the next slot and the consumer index, the index last read from the
engine and the index up to which descriptors have been asked for, for each slot held by MPX whether it is released, the lines of
64 bytes of the descriptor array that have come and are not used up (by address; none for a line that could not be read), the
consumer index last written to the engine, an index word read and not yet acted on, the copy in progress, the last descriptor written and the presented time of the last
poll. -/
structure Ring where
  valid    : Bool
  regs     : SMap Word
  prod     : Word
  cons     : Word
  seen     : Word
  asked    : Word
  slots    : SMap Bool
  lines    : SMap (Option (List Byte))
  told     : Word
  index    : Option Word
  out      : Option RingOut
  lastDesc : List Byte
  lastPoll : Int
  deriving DecidableEq, Repr

/-- A sync object (R135, SO_COUNT and SO_CTRL). -/
structure SyncObj where
  count   : Word
  log     : Bool
  lastPc  : Nat
  lastInc : Nat
  sigs    : Word
  deriving DecidableEq, Repr

/-- The conservation snapshot between R27 step 4 and the end of the audit (R193): the failed check with its
number and difference, if any. -/
structure Snapshot where
  fail : Option (Nat × Nat × Int)
  deriving DecidableEq, Repr

/-- The spine's stream unit (07): pool, partitions, buffers, queues, peals, channels, ports, rings, overflow. -/
structure Streams where
  pool     : Memory
  parts    : SMap Partition
  bufs     : SMap Buffer
  queues   : SMap Queue
  peals    : SMap Peal
  chans    : SMap Channel
  ports    : SMap SPort
  rings    : SMap Ring
  ovfLo    : Word
  ovfHi    : Word
  ovfCfg   : Word
  ovfUsed  : List Nat
  dlCnt    : Nat
  spillCnt : Nat
  abortCnt : Nat
  genErr   : Nat
  auditOk  : Bool
  auditBad : Bool
  auditGsn : Word
  badRun   : Nat
  snap     : Option Snapshot
  waitSeq  : List (Nat × Ctx)
  deriving DecidableEq, Repr

/-- What a participant sends into a collective (R85, R86): its logical core, its physical core and incarnation, whether an
armed fault struck it (R334), and its lanes: slices 0 to 15, then the code lanes of R113 where its type has codes. -/
structure XSend where
  lc     : Nat
  pc     : Nat
  inc    : Nat
  struck : Bool
  lanes  : List Lane
  deriving DecidableEq, Repr

/-- Slices on their way to the XCX (R85): collective, sender with its core and incarnation, and the slices still to arrive. -/
structure XFly where
  coll : Nat
  lc   : Nat
  pc   : Nat
  inc  : Nat
  left : List Nat
  deriving DecidableEq, Repr

/-- A PERMX collective in the XCX (R86, R87): GLOBAL route, participants, map (entry 256c + q), logical cores that
issued, what each sends, the kinds of each sender, its pass-3 route, the (sender, slice) pairs that arrived, the filled participants with the kind of the fill, the
participants that are finished, the issue time, and whether filling closed it. -/
structure Collective where
  route    : Nat
  mask     : BitVec 16
  xmap     : List Nat
  issued   : List Nat
  sent     : List XSend
  kinds    : List (Nat × Kinds)
  pass3    : List (Nat × Route)
  got      : List (Nat × Nat)
  filled   : List (Nat × Kinds)
  done     : List Nat
  opened   : Nat
  closed   : Bool
  deriving DecidableEq, Repr

/-- The route table and directories of the spine, and the XCX (04); `cleared` the entries of the active directory whose groups
an idle load took from the live map (R219). -/
structure Routes where
  table   : Memory
  active  : SMap DWord
  shadow  : SMap DWord
  dirty   : List Nat
  armed   : Bool
  gen     : Nat
  wrErr   : Nat
  xcxMiss : Nat
  extra   : List (Nat × Nat)
  cleared : List Nat
  colls   : SMap Collective
  nextCol : Nat
  flying  : List XFly
  deriving DecidableEq, Repr

/-- A section of a carillon image (R203, R204). -/
structure Section where
  ty   : Nat
  inst : Nat
  off  : Nat
  len  : Nat
  scrc : Nat
  data : List Byte
  deriving DecidableEq, Repr

/-- An image in the carillon store: its header and its structural sections, the CRC-32C of what was stored
(R225), the map the fit checks chose, and whether it was verified. -/
structure Image where
  header : List Byte
  sects  : List Section
  crc    : Nat
  signed : Bool
  deriving DecidableEq, Repr

/-- States of the configuration unit (CFG_STATUS.STATE). -/
inductive CfgState where
  | empty | loading | verify | writing | staged | armed | failed
  deriving DecidableEq, Repr

/-- Pending latches of an agreement pair (R227): both none is CLOSED, both some is COMPLETE. -/
structure PairLatch where
  a : Option Nat
  b : Option Nat
  busy : Bool
  deriving DecidableEq, Repr

/-- The figures of the last fit check (R234, R235, CFG_MARGIN): the smallest SLACK under map `map`, the cores it would leave
unmapped, the healthy cores. -/
structure Margin where
  slack   : Int
  map     : Nat
  spares  : Nat
  healthy : Nat
  deriving DecidableEq, Repr

/-- The configuration unit (08); `half` is the half of the carillon store that the active image takes (R217, R223), `bad`
the words of the store in poison form (R326). -/
structure CfgUnit where
  state       : CfgState
  code        : Nat
  staged      : Option Image
  active      : Option Image
  activeValid : Bool
  map         : Nat
  tries       : Nat
  latched     : Bool
  restore     : Bool
  noMap       : Bool
  activeId    : Word
  stagedId    : Word
  commitGsn   : Word
  carryHeld   : Nat
  heldNow     : Nat
  margin      : Margin
  keyLock     : Bool
  gongWritten : Bool
  pass        : Nat
  buf         : SMap (List Byte)
  err         : Option Nat
  pairGong    : PairLatch
  pairPart    : SMap PairLatch
  pairQueue   : SMap PairLatch
  pairPeal    : SMap PairLatch
  pairRegion  : SMap PairLatch
  pairAdmit   : PairLatch
  ovr         : List (Nat × Nat × BitVec 16)
  resume      : Bool
  half        : Bool
  bad         : List Nat
  deriving DecidableEq, Repr

/-- Who made a memory-port request (R269 SRC, R274, R278): for a ring r its index word read, its descriptors read, its
consumer index written, its outbound copy (external buffer read, buffer or descriptor written) and its producer index
written; for an event ring its records and its header. -/
inductive Requester where
  | row (pc : Nat) (id : Nat)
  | chan (c : Nat) (index : Nat) (row : Nat)
  | tst (pc : Nat) (id : Nat)
  | spill (q : Nat) (slot : Nat) (buf : Nat)
  | spilled (pc : Nat) (id : Nat)
  | sout (k : Nat)
  | ringIdx (r : Nat)
  | ringDesc (r : Nat)
  | ringTell (r : Nat)
  | ringRead (r : Nat)
  | ringOut (r : Nat)
  | ringProd (r : Nat)
  | evRing (r : Nat)
  | evHead (r : Nat)
  | cfg (pass : Nat)
  | boot
  deriving DecidableEq, Repr

/-- Where a memory-port request stands. -/
inductive ReqState where
  /-- waits for a tag, or for the end of a quiesce -/
  | queued
  /-- waits for the translation agent -/
  | xlp (id : Nat)
  /-- waits under the WAIT policy after a translation fault, first seen at this LTC -/
  | faulted (since : Nat)
  /-- on the port under this tag -/
  | issued (tag : Nat)
  /-- waits for the retry of R281 -/
  | retry (tag : Nat)
  deriving DecidableEq, Repr

/-- A request of a requester to a memory port (R269, R270, R278, R281): `pa` is the physical address it was issued with, `lo` and
`hi` the bytes of its data from which and below which its strobes are 1, `live` the beats that go out with their strobes
(R283, R295), `err` the first error response of the burst, `wait` the LTC of the first fault of a wait (R278), `dead` that its
core was knelled (R295). -/
structure PReq where
  id      : Nat
  who     : Requester
  port    : Nat
  chan    : Option Nat
  va      : Nat
  pa      : Nat
  beats   : Nat
  write   : Bool
  data    : List Byte
  lo      : Nat
  hi      : Nat
  live    : Nat
  bad     : List Nat
  kinds   : Kinds
  st      : ReqState
  got     : Nat
  retried : Bool
  dead    : Bool
  err     : Option Resp
  wait    : Option Nat
  inc     : Nat
  at_     : Nat
  deriving DecidableEq, Repr

/-- A translation request on the XLP (R276, R385), with the LTC of its sending. -/
structure XReq where
  id    : Nat
  pasid : BitVec 20
  va    : Nat
  write : Bool
  stale : Bool
  at_   : Nat
  deriving DecidableEq, Repr

/-- A page request forwarded to the translation agent for a waiting request (R278): that request, the PASID, the page and the
access. -/
structure PageReq where
  req   : Nat
  pasid : BitVec 20
  page  : Nat
  write : Bool
  deriving DecidableEq, Repr

/-- The registers of one memory port (10). -/
structure MPort where
  rdErr     : Nat
  wrErr     : Nat
  retries   : Nat
  ghosts    : Nat
  faultAddr : Nat
  faultCode : Nat
  faultSrc  : Nat
  late      : List (Nat × Nat × Bool)
  deriving DecidableEq, Repr

/-- An access at the control matrix (R286, R288): its master, the command that makes it, and whether its master was reset while
it held its path (R292). -/
structure MAccess where
  who    : Master
  cmd    : Instr
  orphan : Bool
  deriving DecidableEq, Repr

/-- A target port of the control matrix (R287, R288): the master it last granted, the one it parks on, the grants the SM has
had one after another while another master waited, the access that holds its path, and those that wait for a grant. -/
structure Target where
  last  : Option Master
  park  : Option Master
  smRun : Nat
  path  : Option MAccess
  waits : List MAccess
  deriving DecidableEq, Repr

/-- The memory ports, the XLP and the control matrix (10); `targets` the target ports of the matrix. -/
structure Ports where
  ports      : SMap MPort
  reqs       : List PReq
  nextReq    : Nat
  xreqs      : List XReq
  pageReqs   : List PageReq
  tlbs       : SMap (List TlbEntry)
  tlbMiss    : SMap Nat
  xlateFault : Nat
  invAck     : List (List Nat)
  quiesce    : Bool
  ack        : Bool
  qSince     : Nat
  qHeld      : Nat
  rstq       : Bool
  rstSince   : Nat
  rstHeld    : Nat
  rstqCnt    : Nat
  lateResp   : Nat
  rstqLast   : Nat
  cmMiss     : Nat
  cmOff      : Nat
  cmOrphan   : Nat
  cmGhost    : Nat
  cmLastAddr : Nat
  cmLastMst  : Nat
  cmLastCode : Nat
  hcpRst     : Nat
  missAt     : SMap Nat
  targets    : SMap Target
  deriving DecidableEq, Repr

/-- States of a region (R298), with WAKING and FAILED as RGN_STATE shows them. -/
inductive RgnState where
  | run | idle | sleep | deep | off | waking | failed
  deriving DecidableEq, Repr

/-- A region (11): state, the entry in progress, the wake step, driver and Limny votes, an access vote, clock,
voltage, force, temperature and neighbour samples, the TU's compare (R302) and the level wake sources that wait for
the end of an entry (R307), bit s − 1 for source s of R305. -/
structure Region where
  state    : RgnState
  entering : Option RgnState
  since    : Nat
  from_    : RgnState
  step     : Nat
  tries    : Nat
  driver   : BitVec 16
  limny    : BitVec 16
  access   : Bool
  applying : Bool
  mhz      : Nat
  mv       : Nat
  force    : Option Nat
  temp     : Int
  beyond   : Nat
  wakeAt   : Option Nat
  pendWake : Nat
  deriving DecidableEq, Repr

/-- A mallet request in a queue of the AC (R319). -/
structure AcReq where
  pc  : Nat
  ctx : Ctx
  cls : Nat
  hold : Bool
  deriving DecidableEq, Repr

/-- Power controller, rail, wake logic and admission controller (11). -/
structure Power where
  regions   : SMap Region
  spineMhz  : Nat
  blockOff  : Bool
  lastSrc   : Nat
  lastRgn   : BitVec 9
  lastLtc   : Nat
  wakeHold  : Bool
  railMv    : Nat
  srpMv     : Nat
  srpBusy   : Bool
  srpSent   : Nat
  srpAt     : Nat
  srpFail   : Bool
  srpTmo    : Nat
  budget    : Nat
  ramp      : Nat
  admitted  : Nat
  tokens    : Nat
  throttled : Bool
  fgQ       : List AcReq
  bgQ       : List AcReq
  grants    : Nat
  revokes   : Nat
  withdraws : Nat
  refAck    : Bool
  refReq    : Bool
  refReqAt  : Nat
  deriving DecidableEq, Repr

/-- An armed injection (R334). -/
structure Inj where
  armed : Bool
  count : Nat
  deriving DecidableEq, Repr

/-- A knell whose drain window is open (R335). -/
structure Drain where
  pc     : Nat
  lc     : Option Nat
  oldInc : Nat
  newInc : Nat
  spare  : Option Nat
  det    : Nat
  marked : Nat
  ghosts : Nat
  code   : Nat
  at_    : Nat
  deriving DecidableEq, Repr

/-- The safety manager (12): `ceCnt` counts correctable errors of a memory in the present scrub round, which began at `scrubAt`;
`badWords` the words in poison form of the sync
objects, the handle-queue memory, the route directory and the event buffer (R326), by the key of the memory; `lateRel` holds the releases (logical core, point) that fell due while a sequencer pair was reset (R342). -/
structure Safety where
  fenced    : BitVec 18
  incs      : SMap Nat
  detStatus : BitVec 16
  detEntry  : SMap Word
  detCnt    : SMap Nat
  ceCnt     : SMap Nat
  simplex   : BitVec 2
  pairReset : BitVec 2
  pairSince : SMap Nat
  ptestFail : Bool
  ptestDet  : Nat
  cycles    : Nat
  knells    : Nat
  drains    : List Drain
  reports   : List Report
  diagBusy  : Bool
  diagPass  : Bool
  diagPc    : Nat
  diagOk    : BitVec 18
  unknell   : List Nat
  inj       : SMap Inj
  scrubRnd  : Nat
  scrubCe   : Nat
  scrubUe   : Nat
  lastCode  : Nat
  lastDet   : Nat
  resets    : Nat
  resetAt   : Option Nat
  scrubAt   : Nat
  badWords  : SMap (List Nat)
  lateRel   : List (Nat × Nat)
  deriving DecidableEq, Repr

/-- The states of a start (BOOT_STATUS.STATE). -/
inductive BootState where
  | check | bist | waitFetch | verify | limnyStart | running | failed | minimal
  deriving DecidableEq, Repr

/-- Boot unit and test access (13, 14): `pend` is the kind of the start that is due while the block is in reset (R358), `buf` the
pieces of the Limny image that have arrived, by offset, `len` its length once the header gave it, `err` a bad beat (R364). -/
structure Boot where
  state     : BootState
  ready     : Bool
  kind      : Nat
  fsc       : Nat
  fscInv    : Nat
  addrValid : Bool
  code      : Nat
  detail    : Nat
  fwVer     : Word
  fwSvn     : BitVec 8
  newVer    : Word
  newSvn    : BitVec 8
  key       : KeyPort
  bist      : BitVec 20
  time      : Nat
  starts    : Nat
  startAt   : Nat
  fetchAt   : Nat
  hist      : List Nat
  monErr    : Bool
  monData   : Word
  buf       : SMap (List Byte)
  len       : Nat
  err       : Bool
  pend      : Option Nat
  warn      : Bool
  failLine  : Bool
  jtagIr    : BitVec 8
  jtagOut   : BitVec 32
  deriving DecidableEq, Repr

/-- An event record (R257). -/
structure EvRec where
  epoch   : Nat
  time    : BitVec 56
  gsn     : BitVec 32
  cls     : Nat
  unit    : Nat
  inst    : BitVec 6
  kind    : Nat
  seq     : Nat
  payload : BitVec 112
  deriving DecidableEq, Repr

/-- An event ring (R260, R261): producer and consumer index, watermark stamp, cumulative drops, whether its BASE disables it,
the records on their way to its slots, and the LTC of the last read of its consumer index. -/
structure EvRing where
  prod : Nat
  cons : Nat
  wmEpoch : Nat
  wmTime  : BitVec 56
  drops   : Nat
  off     : Bool
  sent    : List EvRec
  polled  : Nat
  deriving DecidableEq, Repr

/-- The event plane and the trace port (09, 14). -/
structure Events where
  buf     : List EvRec
  seqs    : SMap Nat
  lost    : SMap Nat
  dropCnt : Nat
  rings   : SMap EvRing
  stepAt  : Option Nat
  trace   : List EvRec
  traceT  : Nat
  traceDrop : Nat
  deriving DecidableEq, Repr

/-- A time-of-day word on the time port (R244): the newest word since the last pulse, if any arrived, and the SEQ of the last. -/
structure Tod where
  word  : BitVec 128
  bits  : Nat
  fresh : Bool
  deriving DecidableEq, Repr

/-- An entry of the sleep ledger (R263). -/
structure Ledger where
  entry : Nat
  exit  : Nat
  slow  : Nat
  state : Nat
  slowclk : Bool
  valid : Bool
  deriving DecidableEq, Repr

/-- The time state that the SM copies to retention memory before a block reset (R343). -/
structure SavedTime where
  offset  : Int
  rate    : Nat
  epoch   : Nat
  servoI  : Int
  servoY  : Int
  invalid : Bool
  deriving DecidableEq, Repr

/-- The time unit (09): LTC, interpolator, presented time, servo, time port, sleep ledger, and the time saved at a block reset (R343). -/
structure TimeUnit where
  ltc        : Nat
  rem        : Nat
  onSlow     : Bool
  slowTicks  : Nat
  slowRem    : Nat
  pllC       : Nat
  pllK       : Option Nat
  pllFrom    : Nat
  offset     : Int
  rate       : Nat
  ratePend   : Bool
  epoch      : Nat
  invalid    : Bool
  coarse     : Bool
  locked     : Bool
  lockRun    : Nat
  servoI     : Int
  servoY     : Int
  satRun     : Nat
  slewSat    : Bool
  lastE      : Int
  stepCnt    : Nat
  pulseMiss  : Nat
  ignored    : Nat
  tod        : Tod
  lastPulse  : Option Nat
  ledgerHead : Nat
  ledger     : SMap Ledger
  saved      : Option SavedTime
  deriving DecidableEq, Repr

/-- The gong and stroke generator (02). -/
structure Gong where
  en       : Bool
  mode     : Bool
  modePend : Bool
  log      : Bool
  lenM1    : Nat
  phase    : Nat
  curfew   : Nat
  period   : Nat
  strokes  : Nat
  arm      : Bool
  gsn      : BitVec 64
  type     : Nat
  pidx     : Nat
  stroke   : Nat
  running  : Bool
  inCurfew : Bool
  lastN    : Int
  nextN    : Int
  g        : Nat
  freeAcc  : Nat
  freeNext : Nat
  freeN    : Nat
  skipCnt  : Nat
  overrun  : Nat
  lateCnt  : Nat
  pattern  : SMap Word
  deriving DecidableEq, Repr

/-- The HCP: the accesses offered and not yet accepted, for which 16 of their direction are outstanding (R272); the read latches of the read-latch pairs (GSN_HI, LTC_HI, LTC_FRAC, NOW_HI, SLOT_N_HI, LAST_WAKE_LTC_HI,
CH_BYTES_HI, STALL_CNT_HI), by HCP offset, and the last answer on the HCP. -/
structure HcpPort where
  latch  : SMap Word
  resp   : Resp
  data   : List DWord
  poison : List Bool
  offers : List Instr
  deriving DecidableEq, Repr

/-- Input and output pins of R376 that carry a level the model keeps. -/
structure Pins where
  refSel  : Bool
  strUp   : Bool
  blkOff  : Bool
  srpTx   : Option (BitVec 8)
  deriving DecidableEq, Repr

/-- The state of the block.  `regs` holds every RW field under its HCP offset; an unlisted offset holds the
reset value of its table (`regReset`).  `freeCnt` is the model's own counter for free values (log entry 7). -/
structure State where
  par     : Params
  regs    : SMap Word
  tu      : TimeUnit
  gong    : Gong
  cores   : SMap Core
  lcs     : SMap LogCore
  st      : Streams
  so      : SMap SyncObj
  routes  : Routes
  seqMem  : SMap Memory
  retain  : Memory
  cfg     : CfgUnit
  mp      : Ports
  pwr     : Power
  sm      : Safety
  boot    : Boot
  ev      : Events
  hcp     : HcpPort
  pins    : Pins
  freeCnt : Nat
  pending : List Instr
  deriving DecidableEq, Repr

/-- An empty memory: every byte 0 (log entry 5). -/
def Memory.reset : Memory := { cells := [], poison := [] }

/-- A register of zeros, with no poison kinds and t = 0 (R60) (DESIGN CHOICE, log entry 3). -/
def Tile.reset : Tile := { words := [], bad := [], kinds := 0, t := 0 }

/-- An idle context: no list, empty handle registers (R96). -/
def Context.reset : Context :=
  { list := none, queue := [], index := 0, run := 0, wait := none, waitObj := 0, hregs := [], held := none,
    granted := none, requested := false, solves := [],
    fence := none }

/-- An empty route slot (R68) (DESIGN CHOICE, log entry 3). -/
def RSlot.reset : RSlot :=
  { route := none, id := 0, gen := 0, solved := false, bad := false, badK := 0, fetch := false, use := 0 }

/-- The counts of no conversion. -/
def CvtStats.zero : CvtStats := { comps := 0, sat := 0, nan := 0, inf := 0, missing := 0, tmax := none }

/-- Core counters at reset (register tables of 03, 04, 06). -/
def CoreCounters.reset : CoreCounters :=
  { latchHit := 0, latchMiss := 0, restart := 0, fabPass := 0, fabCheck := 0, solves := 0, redpSat := 0,
    routeMiss := 0, cvtSat := 0, cvtNan := 0, cvtMiss := 0, rescale := 0, under := 0, rerun := 0 }

/-- A physical core at reset: partition 0, registers of zeros, no list, CVT_LFSR 1 (06) (DESIGN CHOICE, log entry 3). -/
def Core.reset : Core :=
  { inc := 0, held := false, part := false, partPend := none, partMap := false, drain := 0, tiles := [], slotOf := [], latches := [],
    faultRow := 0, faultCause := 0, faultDest := 0, flight := [], nextId := 0, fg := Context.reset,
    bg := Context.reset, slots := [], useClock := 0, solveQ := [], errSlot := 0, errCause := 0, errIndex := 0,
    cnt := CoreCounters.reset, lfsr := 1, stall := [], stallRem := 0, cache := [], staging := Memory.reset,
    slice := [], gongNan := 0, gongInf := 0, gongFab := 0, gongPort := 0, gongPlace := 0, wdogMiss := 0, wdogSeen := [],
    injLane := none }

/-- A history slot at reset: empty ring, N = 4, H = 1, SAT_LOG2 = 10, U = 10 (HIST_CFG, 06) (DESIGN CHOICE, log entry 3). -/
def Hist.reset : Hist := { ring := [], acc := none, adapt := false, latch := 0, clr := false, n := 4, head := 1, satl := 10, under := 10 }

/-- A logical core at reset: no physical core (LC_MAP, 12), margins 0x7FFF_FFFF (02) (DESIGN CHOICE, log entry 4). -/
def LogCore.reset : LogCore :=
  { pc := none, knelled := false, marginLast := 0x7FFFFFFF, marginMin := 0x7FFFFFFF, cuts := 0, must := false,
    cutMust := false, mustDone := 0, hist := [], roles := 0, swaps := [] }

/-- A partition at reset: empty (07). -/
def Partition.reset : Partition := { base := 0, size := 0, reserved := false, floor := 0, free := [] }

/-- A queue at reset: DEPTH and INIT 1, no endpoints, no credits (07). -/
def Queue.reset : Queue :=
  { depth := 1, init := 1, valid := false, entry := false, peal := 0, producer := 0, consumer := 0, handles := [],
    credits := 0, reserved := 0, owed := [], delivered := 0 }

/-- A buffer at reset: generation 1 (log entry 6), no reference, SIDE 0. -/
def Buffer.reset : Buffer := { gen := 1, refs := 0, side := 0 }

/-- A peal at reset (07). -/
def Peal.reset : Peal := { valid := false, rmask := 0, rcount := 0, shed := 0, rq := [], entryQ := 0 }

/-- A prefetch channel at reset (07). -/
def Channel.reset : Channel :=
  { valid := false, cfg := 0, win := [], scan := 0, scanRow := 0, atStop := false, bytes := 0, rttAvg := 0, rttMax := 0,
    partRd := [], partWr := [] }

/-- A stream port at reset (07). -/
def SPort.reset : SPort :=
  { cfg := 0, qlist := [], credits := 0, frames := 0, fifo := [], recv := none, drain := false, given := 0, beats := 0, rr := 0, out := none,
    lastOut := [] }

/-- An external ring at reset (07). -/
def Ring.reset : Ring :=
  { valid := false, regs := [], prod := 0, cons := 0, seen := 0, asked := 0, slots := [], lines := [], told := 0, index := none, out := none,
    lastDesc := [], lastPoll := 0 }

/-- A sync object at reset (05). -/
def SyncObj.reset : SyncObj := { count := 0, log := false, lastPc := 0, lastInc := 0, sigs := 0 }

/-- A CLOSED agreement pair (R227). -/
def PairLatch.closed : PairLatch := { a := none, b := none, busy := false }

/-- A memory port at reset (10). -/
def MPort.reset : MPort :=
  { rdErr := 0, wrErr := 0, retries := 0, ghosts := 0, faultAddr := 0, faultCode := 0, faultSrc := 0, late := [] }

/-- A region at reset: RUN (RGN_STATE reads 0), 1,000 MHz, RAIL_BOOT_MV (11). -/
def Region.reset (p : Params) : Region :=
  { state := .run, entering := none, since := 0, from_ := .run, step := 0, tries := 0, driver := 0, limny := 0,
    access := false, applying := false, mhz := 1000, mv := p.railBootMv, force := none, temp := 0, beyond := 0,
    wakeAt := none, pendWake := 0 }

/-- An injection at reset: off (12). -/
def Inj.reset : Inj := { armed := false, count := 0 }

/-- An event ring at reset (09). -/
def EvRing.reset : EvRing := { prod := 0, cons := 0, wmEpoch := 0, wmTime := 0, drops := 0, off := false, sent := [], polled := 0 }

/-- An empty ledger entry (09). -/
def Ledger.reset : Ledger := { entry := 0, exit := 0, slow := 0, state := 0, slowclk := false, valid := false }

/-- The reset value of RATE_NOM and RATE (R243): 26 + 1/24 ns per tick in 16.48 fixed point. -/
def rateNomReset : Nat := 0x001A0AAAAAAAAAAB

/-- The time unit at reset (09): LTC 0, TIME_INVALID set, RATE the nominal rate, OFFSET 0 (R264) (DESIGN CHOICE, log entry 4). -/
def TimeUnit.reset : TimeUnit :=
  { ltc := 0, rem := 0, onSlow := false, slowTicks := 0, slowRem := 0, pllC := 0, pllK := none, pllFrom := 0, offset := 0,
    rate := rateNomReset, ratePend := false, epoch := 0, invalid := true, coarse := false, locked := false,
    lockRun := 0, servoI := 0, servoY := 0, satRun := 0, slewSat := false, lastE := 0, stepCnt := 0, pulseMiss := 0,
    ignored := 0, tod := { word := 0, bits := 0, fresh := false }, lastPulse := none, ledgerHead := 0, ledger := [],
    saved := none }

/-- The gong unit at reset (02): off, 500,000 ns, 14 strokes, curfew 2,000 ns, GSN 0 (DESIGN CHOICE, log entry 4). -/
def Gong.reset : Gong :=
  { en := false, mode := false, modePend := false, log := false, lenM1 := 0, phase := 0, curfew := 2000,
    period := 500000, strokes := 14, arm := false, gsn := 0, type := 0, pidx := 0, stroke := 0, running := false,
    inCurfew := false, lastN := 0, nextN := 0, g := 0, freeAcc := 0, freeNext := 0, freeN := 0, skipCnt := 0,
    overrun := 0, lateCnt := 0, pattern := [] }

/-- The stream unit at reset (07). -/
def Streams.reset : Streams :=
  { pool := Memory.reset, parts := [], bufs := [], queues := [], peals := [], chans := [], ports := [], rings := [],
    ovfLo := 0, ovfHi := 0, ovfCfg := 0, ovfUsed := [], dlCnt := 0, spillCnt := 0, abortCnt := 0, genErr := 0,
    auditOk := false, auditBad := false, auditGsn := 0, badRun := 0, snap := none, waitSeq := [] }

/-- The route unit at reset (04). -/
def Routes.reset : Routes :=
  { table := Memory.reset, active := [], shadow := [], dirty := [], armed := false, gen := 0, wrErr := 0,
    xcxMiss := 0, extra := [], cleared := [], colls := [], nextCol := 0, flying := [] }

/-- The configuration unit at reset (08): EMPTY, no image. -/
def CfgUnit.reset : CfgUnit :=
  { state := .empty, code := 0, staged := none, active := none, activeValid := false, map := 0, tries := 0,
    latched := false, restore := false, noMap := false, activeId := 0, stagedId := 0, commitGsn := 0, carryHeld := 0,
    heldNow := 0, margin := { slack := 0, map := 0, spares := 0, healthy := 0 }, keyLock := false, gongWritten := false, pass := 0, buf := [], err := none,
    pairGong := PairLatch.closed, pairPart := [], pairQueue := [], pairPeal := [], pairRegion := [],
    pairAdmit := PairLatch.closed, ovr := [], resume := false,
    half := false, bad := [] }

/-- A target port that has granted no master (R287); none is given for reset (DESIGN CHOICE, log entry 3). -/
def Target.reset : Target := { last := none, park := none, smRun := 0, path := none, waits := [] }

/-- The memory ports at reset (10) (DESIGN CHOICE, log entry 3). -/
def Ports.reset : Ports :=
  { ports := [], reqs := [], nextReq := 0, xreqs := [], pageReqs := [], tlbs := [], tlbMiss := [], xlateFault := 0, invAck := [],
    quiesce := false, ack := false, qSince := 0, qHeld := 0, rstq := false, rstSince := 0, rstHeld := 0, rstqCnt := 0,
    lateResp := 0, rstqLast := 0, cmMiss := 0, cmOff := 0, cmOrphan := 0, cmGhost := 0, cmLastAddr := 0,
    cmLastMst := 0, cmLastCode := 0, hcpRst := 0, missAt := [], targets := [] }

/-- Tokens are held in 1/384 unit, so that one reference tick refills 10 × RAMP of them (R318). -/
def tokenScale : Nat := 384

/-- The power unit at reset (11). -/
def Power.reset (p : Params) : Power :=
  { regions := [], spineMhz := 1600, blockOff := false, lastSrc := 0, lastRgn := 0, lastLtc := 0, wakeHold := false,
    railMv := p.railBootMv, srpMv := 0, srpBusy := false, srpSent := 0, srpAt := 0, srpFail := false, srpTmo := 0, budget := 75,
    ramp := 20, admitted := 0, tokens := 100 * tokenScale, throttled := false, fgQ := [], bgQ := [], grants := 0,
    revokes := 0, withdraws := 0, refAck := false, refReq := true, refReqAt := 0 }

/-- The safety manager at reset (12): no core fenced, every incarnation 0 (DESIGN CHOICE, log entry 4). -/
def Safety.reset : Safety :=
  { fenced := 0, incs := [], detStatus := 0, detEntry := [], detCnt := [], ceCnt := [], scrubAt := 0, badWords := [], lateRel := [], simplex := 0, pairReset := 0,
    pairSince := [], ptestFail := false, ptestDet := 0, cycles := 0, knells := 0, drains := [], reports := [],
    diagBusy := false, diagPass := false, diagPc := 0, diagOk := 0, unknell := [], inj := [], scrubRnd := 0,
    scrubCe := 0, scrubUe := 0, lastCode := 0, lastDet := 0, resets := 0, resetAt := none }

/-- The boot unit at reset (13): STATE CHECK, FSC 0 (DESIGN CHOICE, log entry 4). -/
def Boot.reset : Boot :=
  { state := .check, ready := false, kind := 0, fsc := 0, fscInv := 3, addrValid := false, code := 0, detail := 0,
    fwVer := 0, fwSvn := 0, newVer := 0, newSvn := 0, key := { digest := 0, svn := 0, valid := false }, bist := 0,
    time := 0, starts := 0, startAt := 0, fetchAt := 0, hist := [], monErr := false, monData := 0, buf := [],
    len := 0, err := false, pend := some 0, warn := false, failLine := false, jtagIr := 0xFF, jtagOut := 0 }

/-- The event plane at reset (09, 14) (DESIGN CHOICE, log entry 4). -/
def Events.reset : Events :=
  { buf := [], seqs := [], lost := [], dropCnt := 0, rings := [], stepAt := none, trace := [], traceT := 0,
    traceDrop := 0 }

/-- The HCP port at reset (DESIGN CHOICE, log entry 3). -/
def HcpPort.reset : HcpPort := { latch := [], resp := .ok, data := [], poison := [], offers := [] }

/-- The pins after the release of POR_N (R376): STR_UP 0, SRP_TX idle (DESIGN CHOICE, log entry 4). -/
def Pins.reset : Pins :=
  { refSel := false, strUp := false, blkOff := false,
    srpTx := none }

/-- The block under the integration parameters `p` right after power-on reset, nothing started yet (R360) (DESIGN CHOICE, log entry 2). -/
def State.resetWith (p : Params) : State :=
  { par := p, regs := [], tu := TimeUnit.reset, gong := Gong.reset, cores := [], lcs := [], st := Streams.reset,
    so := [], routes := Routes.reset, seqMem := [], retain := Memory.reset, cfg := CfgUnit.reset, mp := Ports.reset,
    pwr := Power.reset p, sm := Safety.reset, boot := Boot.reset, ev := Events.reset, hcp := HcpPort.reset,
    pins := Pins.reset, freeCnt := 0, pending := [] }

/-- The state at reset: the hard macro of MPX-16 (R374, log entry 2). -/
def State.reset : State := State.resetWith Params.hardMacro

/-- Why the machine stops with a fault. -/
inductive Fault where
  /-- Raised by the commands that are accesses on the HCP while the block is in block OFF: the HCP is then
  unpowered and R294 gives no effect, only the duty not to drive it.  Safe: nothing is claimed of such an access. -/
  | hcpUnpowered
  deriving DecidableEq, Repr

/-- Why a command has no meaning. -/
inductive Refusal where
  /-- Raised by an arm of `exec` that is not modelled yet.  Safe. -/
  | notModelled (mnemonic : String)
  /-- Raised by a register write that gives a reserved field a value other than 0: R6 says that the block's
  response is not defined and names no effect.  Safe: nothing is claimed of such a write. -/
  | reservedWrite (offset : Nat)
  /-- Raised by a row of the command table whose record gives a reserved field a value other than 0: R6 says that the
  block's response is not defined and names no effect.  Safe: nothing is claimed of such a record. -/
  | reservedRecord
  deriving DecidableEq, Repr

end Sys2Proof.Machine
end

