-- ==== Sys2Proof/Machine/Ops.lean ====
section
/-! DEFINITION. The named operations over the state: sparse families, memories, bit fields, byte order,
saturating counters, presented time (R242, R255), event records (R257 to R259), the passing of time, and one
accessor pair for each part of the state. -/

namespace Sys2Proof.Machine

/-! ### Sparse families -/

/-- The value of number `k`, `d` where it is unlisted. -/
def SMap.get {α : Type} (m : SMap α) (d : α) (k : Nat) : α :=
  match m with
  | [] => d
  | (k', v) :: t => if k' = k then v else SMap.get t d k

/-- Number `k` set to `v`; the default `d` is never listed. -/
def SMap.set {α : Type} [DecidableEq α] (m : SMap α) (d : α) (k : Nat) (v : α) : SMap α :=
  m.filter (fun e => decide (e.1 < k)) ++ (if v = d then [] else [(k, v)])
    ++ m.filter (fun e => decide (k < e.1))

/-- Canonical form: numbers strictly rising, no entry equal to the default. -/
def SMap.wf {α : Type} [DecidableEq α] (m : SMap α) (d : α) : Bool :=
  match m with
  | [] => true
  | (k, v) :: t => decide (v ≠ d) && t.all (fun e => decide (k < e.1)) && SMap.wf t d

/-- The elements of `l` with their positions from `i`. -/
def indexed {α : Type} (i : Nat) : List α → List (Nat × α)
  | [] => []
  | a :: t => (i, a) :: indexed (i + 1) t

/-- The list with element `i` replaced by `f` of it. -/
def updNth {α : Type} (i : Nat) (f : α → α) : List α → List α
  | [] => []
  | a :: t => if i = 0 then f a :: t else a :: updNth (i - 1) f t

/-! ### Fields, bytes and counters -/

/-- The bit field of `n` of `w` bits from bit `lo` (R5). -/
def fieldOf (n lo w : Nat) : Nat := n / 2 ^ lo % 2 ^ w

/-- The bit field of a word of `w` bits from bit `lo`. -/
def fld (x : Word) (lo w : Nat) : Nat := fieldOf x.toNat lo w

/-- One bit of a word. -/
def bit (x : Word) (i : Nat) : Bool := x.getLsbD i

/-- `n` with the field of `w` bits from `lo` replaced by `v`. -/
def setField (n lo w v : Nat) : Nat :=
  n - fieldOf n lo w * 2 ^ lo + (v % 2 ^ w) * 2 ^ lo

/-- 1 for true. -/
def b2n (b : Bool) : Nat := if b then 1 else 0

/-- The signed value of an unsigned number of `w` bits. -/
def signed (n w : Nat) : Int :=
  let m := n % 2 ^ w
  if 2 * m < 2 ^ w then (m : Int) else (m : Int) - (2 ^ w : Nat)

/-- A signed number as `w` bits. -/
def unsigned (v : Int) (w : Nat) : Nat := (v % ((2 ^ w : Nat) : Int)).toNat

/-- Little-endian value of a byte list (R5). -/
def leNat : List Byte → Nat
  | [] => 0
  | b :: t => b.toNat + 256 * leNat t

/-- The `n` little-endian bytes of a number (R5). -/
def leBytes : Nat → Nat → List Byte
  | 0, _ => []
  | n + 1, v => BitVec.ofNat 8 v :: leBytes n (v / 256)

/-- The little-endian number of `n` bytes of `b` from byte `o`, 0 past the end. -/
def leAt (b : List Byte) (o n : Nat) : Nat := leNat ((b.drop o).take n)

/-- A counter that saturates at its largest value. -/
def satAdd (c k max : Nat) : Nat := min (c + k) max

/-- The largest value of a 32-bit counter. -/
def max32 : Nat := 0xFFFFFFFF

/-- The largest value of a 16-bit counter. -/
def max16 : Nat := 0xFFFF

/-- Division rounded up. -/
def ceilDiv (a b : Nat) : Nat := (a + b - 1) / b

/-- Payload built from fields (low bit, width, value); unlisted bits are 0. -/
def payload (fs : List (Nat × Nat × Nat)) : BitVec 112 :=
  BitVec.ofNat 112 (fs.foldl (fun a f => a + (f.2.2 % 2 ^ f.2.1) * 2 ^ f.1) 0)

/-- A word built from fields (low bit, width, value). -/
def pack (fs : List (Nat × Nat × Nat)) : Word :=
  BitVec.ofNat 32 (fs.foldl (fun a f => a + (f.2.2 % 2 ^ f.2.1) * 2 ^ f.1) 0)

/-! ### Memories -/

/-- The cells at addresses `a` to `a + n − 1`. -/
def cellWindow (m : List Host.Cell) (a n : Nat) : List Host.Cell :=
  m.filter (fun c => decide (a ≤ c.1) && decide (c.1 < a + n))

/-- One byte; an unlisted address reads 0 (DESIGN CHOICE, log entry 5). -/
def Memory.byte (m : Memory) (a : Nat) : Byte := SMap.get m.cells 0 a

/-- `n` bytes from `a`. -/
def Memory.read (m : Memory) (a n : Nat) : List Byte :=
  let w := cellWindow m.cells a n
  (List.range n).map (fun i => SMap.get w 0 (a + i))

/-- Bytes as cells from `a`, zero bytes left out. -/
def cellsOf (a : Nat) : List Byte → List Host.Cell
  | [] => []
  | b :: t => (if b = 0 then [] else [(a, b)]) ++ cellsOf (a + 1) t

/-- The cells with `bs` stored from `a`. -/
def putBytes (m : List Host.Cell) (a : Nat) (bs : List Byte) : List Host.Cell :=
  m.filter (fun c => decide (c.1 < a)) ++ cellsOf a bs
    ++ m.filter (fun c => decide (a + bs.length ≤ c.1))

/-- The numbers of the 32-byte words that bytes `a` to `a + n − 1` touch. -/
def wordsOf (a n : Nat) : List Nat :=
  if n = 0 then [] else (List.range ((a + n - 1) / 32 + 1 - a / 32)).map (fun i => a / 32 + i)

/-- A sorted list of numbers with `k` in. -/
def insNat (k : Nat) (l : List Nat) : List Nat :=
  l.filter (fun x => decide (x < k)) ++ [k] ++ l.filter (fun x => decide (k < x))

/-- A list of numbers with those of `ks` out. -/
def delNats (ks l : List Nat) : List Nat := l.filter (fun x => decide (x ∉ ks))

/-- Store bytes and leave poison form as it is. -/
def Memory.put (m : Memory) (a : Nat) (bs : List Byte) : Memory :=
  { m with cells := putBytes m.cells a bs }

/-- Set (true) or clear the poison form of the words in `ks` (R326). -/
def Memory.mark (m : Memory) (ks : List Nat) (p : Bool) : Memory :=
  { m with poison := if p then ks.foldl (fun l k => insNat k l) m.poison else delNats ks m.poison }

/-- Store whole words of data with valid check bytes: poison form of the words written entirely is cleared (DEDUCED, log entry 58). -/
def Memory.write (m : Memory) (a : Nat) (bs : List Byte) : Memory :=
  (m.put a bs).mark (wordsOf a bs.length) false

/-- Store a row with the poison form of its words in `bad` (numbered within the memory). -/
def Memory.writeRow (m : Memory) (a : Nat) (bs : List Byte) (bad : List Nat) : Memory :=
  (m.write a bs).mark bad true

/-- Whether word `k` stands in poison form. -/
def Memory.isBad (m : Memory) (k : Nat) : Bool := decide (k ∈ m.poison)

/-- The 64-bit entry `i` of a memory of 64-bit entries. -/
def Memory.entry (m : Memory) (i : Nat) : DWord := BitVec.ofNat 64 (leNat (m.read (8 * i) 8))

/-- Canonical form of a memory: addresses strictly rising, no byte equal to what an unlisted address reads as. -/
def Memory.wf (m : Memory) : Bool := SMap.wf m.cells 0

/-! ### The parts of the state -/

/-- Core `n`. -/
def State.core (s : State) (n : Nat) : Core := SMap.get s.cores Core.reset n

/-- The state with core `n` replaced. -/
def State.setCore (s : State) (n : Nat) (c : Core) : State :=
  { s with cores := SMap.set s.cores Core.reset n c }

/-- The state with core `n` changed by `f`. -/
def State.onCore (s : State) (n : Nat) (f : Core → Core) : State := s.setCore n (f (s.core n))

/-- Logical core `n`. -/
def State.lc (s : State) (n : Nat) : LogCore := SMap.get s.lcs LogCore.reset n

/-- The state with logical core `n` replaced. -/
def State.setLc (s : State) (n : Nat) (c : LogCore) : State :=
  { s with lcs := SMap.set s.lcs LogCore.reset n c }

/-- The state with logical core `n` changed by `f`. -/
def State.onLc (s : State) (n : Nat) (f : LogCore → LogCore) : State := s.setLc n (f (s.lc n))

/-- The context `c` of a core. -/
def Core.ctx (k : Core) (c : Ctx) : Context :=
  match c with
  | .fg => k.fg
  | .bg => k.bg

/-- The core with its context `c` replaced. -/
def Core.setCtx (k : Core) (c : Ctx) (x : Context) : Core :=
  match c with
  | .fg => { k with fg := x }
  | .bg => { k with bg := x }

/-- The state with one context changed by `f`. -/
def State.onCtx (s : State) (n : Nat) (c : Ctx) (f : Context → Context) : State :=
  s.onCore n (fun k => k.setCtx c (f (k.ctx c)))

/-- The core counters changed by `f`. -/
def State.onCnt (s : State) (n : Nat) (f : CoreCounters → CoreCounters) : State :=
  s.onCore n (fun k => { k with cnt := f k.cnt })

/-- Tile register `r` of a core. -/
def Core.tile (k : Core) (r : Nat) : Tile := SMap.get k.tiles Tile.reset r

/-- The core with tile register `r` replaced. -/
def Core.setTile (k : Core) (r : Nat) (t : Tile) : Core :=
  { k with tiles := SMap.set k.tiles Tile.reset r t }

/-- Route slot `n` of a core. -/
def Core.slot (k : Core) (n : Nat) : RSlot := SMap.get k.slots RSlot.reset n

/-- The core with route slot `n` replaced. -/
def Core.setSlot (k : Core) (n : Nat) (r : RSlot) : Core :=
  { k with slots := SMap.set k.slots RSlot.reset n r }

/-- Queue `q`. -/
def State.queue (s : State) (q : Nat) : Queue := SMap.get s.st.queues Queue.reset q

/-- The state with queue `q` replaced. -/
def State.setQueue (s : State) (q : Nat) (x : Queue) : State :=
  { s with st := { s.st with queues := SMap.set s.st.queues Queue.reset q x } }

/-- Partition `p` of the pool. -/
def State.part (s : State) (p : Nat) : Partition := SMap.get s.st.parts Partition.reset p

/-- The state with partition `p` replaced. -/
def State.setPart (s : State) (p : Nat) (x : Partition) : State :=
  { s with st := { s.st with parts := SMap.set s.st.parts Partition.reset p x } }

/-- Buffer `b`: pool buffers are 0 to 4,095, external buffer e is 4,096 + e (R169, R171). -/
def State.buffer (s : State) (b : Nat) : Buffer := SMap.get s.st.bufs Buffer.reset b

/-- The state with buffer `b` replaced. -/
def State.setBuffer (s : State) (b : Nat) (x : Buffer) : State :=
  { s with st := { s.st with bufs := SMap.set s.st.bufs Buffer.reset b x } }

/-- Peal `g`. -/
def State.peal (s : State) (g : Nat) : Peal := SMap.get s.st.peals Peal.reset g

/-- The state with peal `g` replaced. -/
def State.setPeal (s : State) (g : Nat) (x : Peal) : State :=
  { s with st := { s.st with peals := SMap.set s.st.peals Peal.reset g x } }

/-- Prefetch channel `c`. -/
def State.chan (s : State) (c : Nat) : Channel := SMap.get s.st.chans Channel.reset c

/-- The state with channel `c` replaced. -/
def State.setChan (s : State) (c : Nat) (x : Channel) : State :=
  { s with st := { s.st with chans := SMap.set s.st.chans Channel.reset c x } }

/-- Stream port `k`. -/
def State.sport (s : State) (k : Nat) : SPort := SMap.get s.st.ports SPort.reset k

/-- The state with stream port `k` replaced. -/
def State.setSport (s : State) (k : Nat) (x : SPort) : State :=
  { s with st := { s.st with ports := SMap.set s.st.ports SPort.reset k x } }

/-- External ring `r`. -/
def State.ring (s : State) (r : Nat) : Ring := SMap.get s.st.rings Ring.reset r

/-- The state with external ring `r` replaced. -/
def State.setRing (s : State) (r : Nat) (x : Ring) : State :=
  { s with st := { s.st with rings := SMap.set s.st.rings Ring.reset r x } }

/-- Sync object `n`. -/
def State.sync (s : State) (n : Nat) : SyncObj := SMap.get s.so SyncObj.reset n

/-- The state with sync object `n` replaced. -/
def State.setSync (s : State) (n : Nat) (x : SyncObj) : State :=
  { s with so := SMap.set s.so SyncObj.reset n x }

/-- Region `g` (R298): 0 to 5 are CG0 to CG5, 6 the spine, 7 the control region, 8 AON. -/
def State.region (s : State) (g : Nat) : Region := SMap.get s.pwr.regions (Region.reset s.par) g

/-- The state with region `g` replaced. -/
def State.setRegion (s : State) (g : Nat) (x : Region) : State :=
  { s with pwr := { s.pwr with regions := SMap.set s.pwr.regions (Region.reset s.par) g x } }

/-- The state with region `g` changed by `f`. -/
def State.onRegion (s : State) (g : Nat) (f : Region → Region) : State := s.setRegion g (f (s.region g))

/-- The state of a region that a wake leaves: the one it is in or enters. -/
def Region.low (r : Region) : RgnState := r.entering.getD r.state

/-- Memory port `p`. -/
def State.mport (s : State) (p : Nat) : MPort := SMap.get s.mp.ports MPort.reset p

/-- The state with memory port `p` replaced. -/
def State.setMport (s : State) (p : Nat) (x : MPort) : State :=
  { s with mp := { s.mp with ports := SMap.set s.mp.ports MPort.reset p x } }

/-- The number of a master (R286). -/
def masterCode : Master → Nat
  | .hcp => 0 | .sq0 => 1 | .sq1 => 2 | .sq2 => 3 | .sq3 => 4 | .sm => 5

/-- The master of a number (R286). -/
def masterOf (n : Nat) : Option Master := [Master.hcp, .sq0, .sq1, .sq2, .sq3, .sm][n]?

/-- Target port `k` of the control matrix (R287). -/
def State.target (s : State) (k : Nat) : Target := SMap.get s.mp.targets Target.reset k

/-- The state with target port `k` replaced. -/
def State.setTarget (s : State) (k : Nat) (x : Target) : State :=
  { s with mp := { s.mp with targets := SMap.set s.mp.targets Target.reset k x } }

/-- Sequencer memory `q` (R213). -/
def State.seq (s : State) (q : Nat) : Memory := SMap.get s.seqMem Memory.reset q

/-- The state with sequencer memory `q` replaced. -/
def State.setSeq (s : State) (q : Nat) (m : Memory) : State :=
  { s with seqMem := SMap.set s.seqMem Memory.reset q m }

/-- Event ring `r`. -/
def State.evRing (s : State) (r : Nat) : EvRing := SMap.get s.ev.rings EvRing.reset r

/-- The state with event ring `r` replaced. -/
def State.setEvRing (s : State) (r : Nat) (x : EvRing) : State :=
  { s with ev := { s.ev with rings := SMap.set s.ev.rings EvRing.reset r x } }

/-- The core region of a physical core (R1): three cores to a region. -/
def regionOfCore (pc : Nat) : Nat := pc / 3

/-- Whether the block has physical core `pc` (R1, R3). -/
def State.hasCore (s : State) (pc : Nat) : Bool := decide (pc < s.par.npc)

/-- Whether the block has region `g` (R1, R3). -/
def State.hasRegion (s : State) (g : Nat) : Bool := decide (g < s.par.ncg) || decide (6 ≤ g ∧ g ≤ 8)

/-- The incarnation of a physical core in the SM's table (R337). -/
def State.incOf (s : State) (pc : Nat) : Nat := SMap.get s.sm.incs 0 pc

/-- Whether a physical core is fenced (R335). -/
def State.fenced (s : State) (pc : Nat) : Bool := s.sm.fenced.getLsbD pc

/-- The logical core that the map in force gives to physical core `pc` (DEDUCED, log entry 56). -/
def State.lcOf (s : State) (pc : Nat) : Option Nat :=
  (List.range 16).find? (fun n => decide ((s.lc n).pc = some pc))

/-! ### The file of RW fields -/

/-- Reset value of the RW fields at an HCP offset (register tables; unlisted offsets reset to 0). -/
def regReset (p : Params) (off : Nat) : Word :=
  if off = 0x10020 then 0xAAAAAAAB
  else if off = 0x10024 then 0x001A0AAA
  else if off = 0x10050 then 0x00C00000
  else if off = 0x10054 then 0x00400000
  else if off = 0x10058 then 0x000003E8
  else if off = 0x1005C then 0x000000C8
  else if off = 0x10060 then 0x00040064
  else if off = 0x10064 then 0x5DC00000
  else if off = 0x1006C then 0x000003E8
  else if off = 0x10410 then 0x000007D0
  else if off = 0x20004 then 0x00000200
  else if off = 0x20014 then 0x0000001B
  else if off = 0x20028 then BitVec.ofNat 32 p.railBootMv
  else if off = 0x30000 then 0x00000002
  else if off = 0x4000C then 0x00000400
  else if 0x41000 ≤ off ∧ off < 0x41800 ∧ off % 8 = 0 then 0x0000AA13
  else if off = 0x50200 then 0x00000001
  else if off = 0x50404 then 0x00000014
  else if off = 0x50408 then 0x00000032
  else if 0x62008 ≤ off ∧ off < 0x62800 ∧ off % 32 = 8 then 0x00000210
  else if 0x63004 ≤ off ∧ off < 0x64000 ∧ off % 64 = 4 then 0x00000064
  else if off < 0x70200 ∧ 0x70000 ≤ off ∧ off % 64 = 8 then 0x0000100A
  else if off = 0x70248 then 0x00000A00
  else if off = 0x80024 then 0x00000014
  else if off = 0x810010 then 0x00000064
  else 0

/-- The word of RW fields at an HCP offset, as last written (R399). -/
def State.reg (s : State) (off : Nat) : Word := SMap.get s.regs (regReset s.par off) off

/-- The state with the RW fields at an HCP offset replaced. -/
def State.setReg (s : State) (off : Nat) (v : Word) : State :=
  { s with regs := SMap.set s.regs (regReset s.par off) off v }

/-- A field of `w` bits of a register held under R8: a value below the range acts as the lowest. -/
def clampLo (v lo : Nat) : Nat := if v < lo then lo else v

/-- A field used under R8: outside its range it acts as the nearest end. -/
def clampRange (v lo hi : Nat) : Nat := if v < lo then lo else if hi < v then hi else v

/-! ### Time -/

/-- The interpolator fraction f (R241): calibrated and in RUN, else 0. -/
def State.fraction (s : State) : Nat :=
  match s.tu.pllK with
  | some k =>
    if (s.region 7).state = .run ∧ 0 < k then min (2 ^ 16 * 1024 * s.tu.pllC / k) (2 ^ 16 - 1) else 0
  | none => 0

/-- The fine reading L of the LTC (R241). -/
def State.fine (s : State) : Nat := s.tu.ltc * 2 ^ 16 + s.fraction

/-- The presented time T in units of 2^−16 ns (R242). -/
def State.now (s : State) : Int := s.tu.offset + ((s.fine * s.tu.rate / 2 ^ 48 : Nat) : Int)

/-- The presented time in whole nanoseconds (R251). -/
def State.nowNs (s : State) : Int := s.now / 65536

/-- The event stamp's time field: presented time in units of 62.5 ps modulo 2^56 (R255). -/
def State.stampTime (s : State) : BitVec 56 := BitVec.ofInt 56 (s.now / 4096)

/-- The 64-bit event stamp: epoch, then time (R255). -/
def State.stamp (s : State) : Nat := (s.tu.epoch % 256) * 2 ^ 56 + s.stampTime.toNat

/-- RATE set to `r` with OFFSET changed so that T at this LTC is the same (R243). -/
def State.setRate (s : State) (r : Nat) : State :=
  { s with tu := { s.tu with rate := r, offset := s.now - ((s.fine * r / 2 ^ 48 : Nat) : Int) } }

/-! ### Event records -/

/-- The ring of a unit class (EVT_ROUTE). -/
def State.ringOfClass (s : State) (c : Nat) : Nat := if c < 16 then fld (s.reg (0x70200 + 4 * c)) 0 3 else 0

/-- Places of the event buffer that a record other than EVT_LOST may take (R259). -/
def evCapacity : Nat := 8192 - 16

/-- The event plane accepts a record: buffer and trace port (R259, R389); one that finds the buffer full is dropped and counted,
for its source and for its ring (R260). -/
def State.acceptEvent (s : State) (r : EvRec) (cap : Nat) : State :=
  if s.ev.buf.length < cap then
    let tr := bit (s.reg 0x60) 0
    let full := decide (64 ≤ s.ev.trace.length)
    { s with ev := { s.ev with
        buf := s.ev.buf ++ [r]
        trace := if tr && !full then s.ev.trace ++ [r] else s.ev.trace
        traceDrop := if tr && full then satAdd s.ev.traceDrop 1 max32 else s.ev.traceDrop } }
  else
    let g := s.ringOfClass r.cls
    let x := s.evRing g
    { s with ev := { s.ev with
        dropCnt := satAdd s.ev.dropCnt 1 max32
        lost := SMap.set s.ev.lost 0 (32 * r.cls + r.unit) (SMap.get s.ev.lost 0 (32 * r.cls + r.unit) + 1)
        rings := SMap.set s.ev.rings EvRing.reset g { x with drops := (x.drops + 1) % 2 ^ 32 } } }

/-- Emit a record with stamp time `time` where the buffer may hold `cap` records (R257, R258, R261). -/
def State.emitAt (s : State) (time : BitVec 56) (cap kind cls unit : Nat) (p : BitVec 112) : State :=
  let src := 32 * cls + unit
  let q := SMap.get s.ev.seqs 0 src
  let r : EvRec :=
    { epoch := s.tu.epoch, time := time, gsn := s.gong.gsn.truncate 32, cls := cls, unit := unit,
      inst := s.par.instId, kind := kind, seq := q, payload := p }
  State.acceptEvent { s with ev := { s.ev with seqs := SMap.set s.ev.seqs 0 src ((q + 1) % 65536) } } r cap

/-- Emit a record stamped now where the buffer may hold `cap` records. -/
def State.emitCap (s : State) (cap kind cls unit : Nat) (p : BitVec 112) : State :=
  s.emitAt s.stampTime cap kind cls unit p

/-- Emit a record of `kind` from unit `unit` of class `cls` (R257, R258, R400), stamped now. -/
def State.emit (s : State) (kind cls unit : Nat) (p : BitVec 112) : State :=
  s.emitCap evCapacity kind cls unit p

/-- The unit class of a record kind (R400). -/
def kindClass (kind : Nat) : Nat :=
  if kind ≤ 0x0024 then 0
  else if kind ≤ 0x0032 then 1
  else if kind ≤ 0x0042 ∨ kind = 0x0046 then 8
  else if kind = 0x0052 then 9
  else if kind ≤ 0x0062 then 1
  else if kind ≤ 0x0075 then 2
  else if kind ≤ 0x0085 then 3
  else if kind ≤ 0x0092 then 0
  else if kind = 0x0093 then 5
  else if kind = 0x0094 then 7
  else if kind ≤ 0x00A3 then 6
  else if kind ≤ 0x00B5 then 5
  else if kind ≤ 0x00C5 then 4
  else 10

/-- Emit a record of `kind` from unit `unit` of the class R400 gives it, its payload from fields (low bit, width, value). -/
def State.evt (s : State) (kind unit : Nat) (fs : List (Nat × Nat × Nat)) : State :=
  s.emit kind (kindClass kind) unit (payload fs)

/-- A detector reports to the SM; the report reaches it in a step of its own (R331) (DESIGN CHOICE, log entry 18). -/
def State.report (s : State) (r : Report) : State :=
  { s with sm := { s.sm with reports := s.sm.reports ++ [r] } }

/-- A plain detector report with code 0x0309 (R356). -/
def mkReport (d : Nat) (u : ReportUnit) (info : Nat) : Report :=
  { det := d, unit := u, code := 0x0309, info := BitVec.ofNat 32 info, injected := false }

/-! ### The passing of time -/

/-- Saturation of a 48-bit stall counter (R189). -/
def max48 : Nat := 2 ^ 48 - 1

/-- Add core cycles to the stall counter of cause `c` (R189). -/
def Core.addStall (k : Core) (c n : Nat) : Core :=
  { k with stall := SMap.set k.stall 0 c (satAdd (SMap.get k.stall 0 c) n max48) }

/-- Tile registers of a partition (R34). -/
def regCount (p : Bool) : Nat := if p then 28 else 14

/-- Physical slots of a partition. -/
def slotCount (p : Bool) : Nat := if p then 32 else 16

/-- The physical slot of a register. -/
def Core.slotOfReg (k : Core) (r : Nat) : Nat := SMap.get k.slotOf r r

/-- Whether an instruction in flight writes or reads a physical slot; an abandoned one does neither (R50, R51, R53). -/
def InFlight.uses (f : InFlight) (x : Nat) : Bool :=
  match f.phase with
  | .restart _ _ => false
  | _ => decide (f.slot = some x) || f.srcs.contains x

/-- The commit slots that are free (R50): mapped by no register, written and read by no instruction in flight
(DESIGN CHOICE, log entry 8). -/
def Core.freeSlots (k : Core) : List Nat :=
  let mapped := (List.range (regCount k.part)).map (fun r => k.slotOfReg r)
  (List.range (slotCount k.part)).filter (fun x =>
    !mapped.contains x && !k.flight.any (fun f => f.uses x))

/-- The rate the servo output y gives from RATE_NOM, nearest 2^−48 ns with ties to even (R246);
y is held in units of 2^−40 ppb. -/
def servoRate (nom : Nat) (y : Int) : Nat :=
  let den : Int := 10 ^ 9 * 2 ^ 40
  let num : Int := nom * (den + y)
  let q := num / den
  let r := num % den
  (if 2 * r < den then q else if den < 2 * r then q + 1 else if q % 2 = 0 then q else q + 1).toNat

/-- RATE_NOM as written (R250). -/
def State.rateNom (s : State) : Nat := (s.reg 0x10020).toNat + 2 ^ 32 * (s.reg 0x10024).toNat

/-- The next free value number, and the state with the counter advanced (log entry 7). -/
def State.fresh (s : State) : Nat × State := (Config.freeNat s.freeCnt, { s with freeCnt := s.freeCnt + 1 })

end Sys2Proof.Machine
end

