-- ==== Sys2Proof/Machine/Flags.lean ====
section
/-! DEFINITION. Flag computations: poison kinds, the flags and fields of a handle (R169, R171), the fields of a
SIDE word (R172) and their agreement (R173), and the levels of the interrupt lines (R388). -/

namespace Sys2Proof.Machine

/-! ### Poison kinds (R172) -/

def kEcc : Kinds := 1
def kFabric : Kinds := 2
def kTranslate : Kinds := 4
def kLate : Kinds := 8
def kFault : Kinds := 16
def kMissing : Kinds := 32

/-! ### Handles (R169) -/

def hIndex (h : Word) : Nat := fld h 0 12
def hGen (h : Word) : Nat := fld h 12 8
def hFill (h : Word) : Nat := fld h 20 8
def hPoison (h : Word) : Bool := bit h 28
def hLate (h : Word) : Bool := bit h 29
def hSpilled (h : Word) : Bool := bit h 30
def hExternal (h : Word) : Bool := bit h 31

/-- Bytes filled: the field counts 16-byte units and 0 means 4,096 bytes (R169). -/
def hBytes (h : Word) : Nat := if hFill h = 0 then 4096 else 16 * hFill h

/-- The number of the buffer in `State.buffer` that a handle names. -/
def hBuf (h : Word) : Nat := if hExternal h then 4096 + hIndex h else hIndex h

/-- A handle from its fields; POISON and LATE follow the kinds (R173). -/
def mkHandle (index gen fill : Nat) (k : Kinds) (spilled external : Bool) : Word :=
  pack [(0, 12, index), (12, 8, gen), (20, 8, fill), (28, 1, b2n (decide (k &&& ~~~kLate ≠ 0))),
        (29, 1, b2n (decide (k &&& kLate ≠ 0))), (30, 1, b2n spilled), (31, 1, b2n external)]

/-- The handle with its flags made to agree with `k` (R173). -/
def hWithKinds (h : Word) (k : Kinds) : Word :=
  mkHandle (hIndex h) (hGen h) (hFill h) k (hSpilled h) (hExternal h)

/-- The handle with its fill field set (R110). -/
def hWithFill (h : Word) (fill : Nat) : Word := BitVec.ofNat 32 (setField h.toNat 20 8 fill)

/-- Whether a handle is a placeholder (R171): only placeholders have GEN 0 (R169). -/
def isPlaceholder (h : Word) : Bool := decide (hGen h = 0)

/-! ### SIDE words (R172) -/

def sideStamp (x : BitVec 128) : Nat := fieldOf x.toNat 0 64
def sideScale (x : BitVec 128) : Int := signed (fieldOf x.toNat 64 8) 8
def sideKinds (x : BitVec 128) : Kinds := BitVec.ofNat 6 (fieldOf x.toNat 72 6)
def sidePmap (x : BitVec 128) : Nat := fieldOf x.toNat 80 16
def sidePc (x : BitVec 128) : Nat := fieldOf x.toNat 96 5
def sideInc (x : BitVec 128) : Nat := fieldOf x.toNat 101 4
def sideGsn (x : BitVec 128) : Nat := fieldOf x.toNat 112 16

/-- A SIDE word from its fields. -/
def mkSide (stamp : Nat) (scale : Int) (k : Kinds) (pmap pc inc gsn : Nat) : BitVec 128 :=
  BitVec.ofNat 128 (stamp % 2 ^ 64 + unsigned scale 8 * 2 ^ 64 + k.toNat * 2 ^ 72 + pmap % 2 ^ 16 * 2 ^ 80
    + pc % 32 * 2 ^ 96 + inc % 16 * 2 ^ 101 + gsn % 2 ^ 16 * 2 ^ 112)

/-- The SIDE word with kinds added and rows marked. -/
def sideAdd (x : BitVec 128) (k : Kinds) (rows : Nat) : BitVec 128 :=
  x ||| BitVec.ofNat 128 (k.toNat * 2 ^ 72 + rows % 2 ^ 16 * 2 ^ 80)

/-- Bits [15:0] of the GSN in force (R172). -/
def State.gsn16 (s : State) : Nat := s.gong.gsn.toNat % 65536

/-- The handle a pop returns in place of a buffer that never came (R171). -/
def placeholderHandle (index : Nat) : Word := mkHandle index 0 0 kMissing false false

/-- The SIDE word of a placeholder, stamped at the pop (R171). -/
def State.placeholderSide (s : State) : BitVec 128 := mkSide s.stamp 0 kMissing 0xFFFF 0x1F 0 s.gsn16

/-- Whether a handle is to buffer `b` as it now stands. -/
def refersTo (h : Word) (b gen : Nat) : Bool :=
  decide (hBuf h = b) && decide (hGen h = gen) && decide (gen ≠ 0)

/-- The flags of every handle to buffer `b` that is queued or held follow the kinds of its SIDE word (R173). -/
def State.syncFlags (s : State) (b : Nat) : State :=
  let x := s.buffer b
  let k := sideKinds x.side
  let fix (h : Word) : Word := if refersTo h b x.gen then hWithKinds h k else h
  let fixC (c : Context) : Context := { c with hregs := c.hregs.map (fun e => (e.1, { e.2 with handle := fix e.2.handle })) }
  { s with
    st := { s.st with
      queues := s.st.queues.map (fun e =>
        (e.1, { e.2 with handles := e.2.handles.map (fun q => { q with handle := fix q.handle }) }))
      ports := s.st.ports.map (fun e => (e.1, { e.2 with out := e.2.out.map (fun o =>
        if fix o.handle = o.handle then o else { o with handle := fix o.handle, side := x.side }) }))
      rings := s.st.rings.map (fun e => (e.1, { e.2 with out := e.2.out.map (fun o =>
        if fix o.handle = o.handle then o else { o with handle := fix o.handle, side := x.side }) })) }
    cores := s.cores.map (fun e => (e.1, { e.2 with fg := fixC e.2.fg, bg := fixC e.2.bg })) }

/-- Buffer `b` gains kinds and marked rows, and its handles follow (R173). -/
def State.markBuffer (s : State) (b : Nat) (k : Kinds) (rows : Nat) : State :=
  let x := s.buffer b
  (s.setBuffer b { x with side := sideAdd x.side k rows }).syncFlags b

/-! ### Interrupt lines (R388) -/

/-- Base of event ring `r` in the event-plane bank. -/
def ringBase (r : Nat) : Nat := 0x70000 + 0x40 * r

/-- Whether a detector asserts line `l`. -/
def State.lineDet (s : State) (l : Nat) : Bool :=
  (List.range 16).any (fun d => s.sm.detStatus.getLsbD d && decide (fld (SMap.get s.sm.detEntry 0 d) 8 4 = l))

/-- Whether an event ring asserts line `l`. -/
def State.lineRing (s : State) (l : Nat) : Bool :=
  (List.range 8).any (fun r =>
    let c := s.reg (ringBase r + 8)
    bit c 31 && decide (fld c 8 4 = l) &&
      decide (fld c 12 16 ≤ ((s.evRing r).prod + 2 ^ 32 - (s.evRing r).cons) % 2 ^ 32))

/-- Whether a failed start asserts line `l` (R365). -/
def State.lineBoot (s : State) (l : Nat) : Bool :=
  s.boot.failLine && bit (s.reg 0x80008) 12 && decide (fld (s.reg 0x80008) 8 4 = l)

/-- The level of INT line `l` (R388); every line is 0 in block OFF and during a reset (R376). -/
def State.intLevel (s : State) (l : Nat) : Bool :=
  !s.pwr.blockOff && s.boot.pend.isNone && !bit (s.reg 0x44) l &&
    (s.lineDet l || s.lineRing l || s.lineBoot l || bit (s.reg 0x48) l)

end Sys2Proof.Machine
end

