-- ==== Sys2Proof/Machine/Operands.lean ====
section
/-! DEFINITION. Operand forms: the fields of a command record (R97 to R104), the operand descriptor (R101) under
each shape code (R100), the shape limits (R36, R37), the place of every element in a tile (R37, R38, R39), and a tile
built from its elements (R40). -/

namespace Sys2Proof.Machine

/-! ### Command records -/

/-- Word `n` of a record (R97). -/
def rw (r : List Word) (n : Nat) : Word := r.getD n 0

def recOpc (r : List Word) : Nat := fld (rw r 0) 0 8
def recCsig (r : List Word) : Bool := bit (rw r 0) 8
def recCpush (r : List Word) : Bool := bit (rw r 0) 9
def recSolve (r : List Word) : Bool := bit (rw r 0) 10
def recRetry (r : List Word) : Bool := bit (rw r 0) 11
def recBarrier (r : List Word) : Bool := bit (rw r 0) 12
def recCmod0 (r : List Word) : Bool := bit (rw r 0) 14
def recCmod1 (r : List Word) : Bool := bit (rw r 0) 15
def recShp (r : List Word) : Nat := fld (rw r 0) 28 4

/-- Register numbers with their bit 4 (R99). -/
def recD (r : List Word) : Nat := fld (rw r 0) 16 4 + 16 * fld (rw r 1) 24 1
def recSa (r : List Word) : Nat := fld (rw r 0) 20 4 + 16 * fld (rw r 2) 24 1
def recSb (r : List Word) : Nat := fld (rw r 0) 24 4 + 16 * fld (rw r 2) 25 1

/-- SB of REMAP, whose bit 4 is word 5 bit [31] (R123). -/
def recSbRemap (r : List Word) : Nat := fld (rw r 0) 24 4 + 16 * fld (rw r 5) 31 1

/-- Words 6 and 7 (R103). -/
def recCso (r : List Word) : Nat := fld (rw r 6) 0 15
def recChq (r : List Word) : Nat := fld (rw r 6) 16 10
def recCh (r : List Word) : Nat := fld (rw r 6) 26 4
def recCn (r : List Word) : Nat := fld (rw r 6) 30 2 + 1
def recCinc (r : List Word) : Int := signed (fld (rw r 7) 0 16) 16
def recAux (r : List Word) : Nat := fld (rw r 7) 16 12
def recWclass (r : List Word) : Nat := fld (rw r 7) 28 4

/-- The conversion word (R104). -/
def recShift (r : List Word) : Int := signed (fld (rw r 5) 0 8) 8
def recHslot (r : List Word) : Nat := fld (rw r 5) 8 4
def recHist (r : List Word) : Bool := bit (rw r 5) 12
def recHupd (r : List Word) : Bool := bit (rw r 5) 13
def recRnd (r : List Word) : Nat := fld (rw r 5) 14 2

/-- A route reference (R102). -/
structure RouteRef where
  id     : Nat
  bySlot : Bool
  slot   : Nat
  deriving DecidableEq, Repr

/-- The route reference in 16 bits. -/
def mkRef (x : Nat) : RouteRef :=
  { id := fieldOf x 0 12, bySlot := decide (fieldOf x 12 1 = 1), slot := fieldOf x 13 3 }

/-- The route references in words 3 and 5. -/
def ref3lo (r : List Word) : RouteRef := mkRef (fld (rw r 3) 0 16)
def ref3hi (r : List Word) : RouteRef := mkRef (fld (rw r 3) 16 16)
def ref5lo (r : List Word) : RouteRef := mkRef (fld (rw r 5) 0 16)
def ref5hi (r : List Word) : RouteRef := mkRef (fld (rw r 5) 16 16)

/-! ### Element types (R101) -/

def tyI8 : Nat := 0
def tyI16 : Nat := 1
def tyI32 : Nat := 2
def tyC16 : Nat := 3
def tyFP16 : Nat := 4
def tyFP32 : Nat := 5
def tyPB16 : Nat := 6
def tyPW8 : Nat := 7
def tyPW4 : Nat := 8

/-- Bytes per element; PW4 is handled by nibbles (R36). -/
def tySize (t : Nat) : Nat :=
  if t = tyI8 ∨ t = tyPW8 then 1 else if t = tyI16 ∨ t = tyFP16 then 2 else 4

/-- Whether registers of the type are read with the tensor scale t (R139). -/
def tyScaled (t : Nat) : Bool := decide (t ≤ 3)

/-- The two groups of R152: 0 real, 1 complex, 2 narrow weights. -/
def tyGroup (t : Nat) : Nat :=
  if t = tyC16 ∨ t = tyPB16 then 1 else if t = tyPW8 ∨ t = tyPW4 then 2 else 0

/-- An operand descriptor after its shape code is applied (R100, R101). -/
structure Desc where
  rows  : Nat
  cols  : Nat
  ty    : Nat
  split : Bool
  deriving DecidableEq, Repr

/-- Rows of a register in a partition (R34): `p` true is partition 1. -/
def rmax (p : Bool) : Nat := if p then 32 else 64

/-- The descriptor as a word gives it (R101). -/
def descOf (w : Word) : Desc :=
  { rows := fld w 0 6 + 1, cols := fld w 6 10 + 1, ty := fld w 16 4, split := bit w 20 }

/-- Largest column count of a type (R36). -/
def fullCols (t : Nat) : Nat :=
  if t = tyI8 then 256 else if t = tyI16 ∨ t = tyFP16 then 128 else if t = tyPW8 then 256
  else if t = tyPW4 then 512 else 64

/-- Rows of a full operand (R100). -/
def fullRows (p : Bool) (t : Nat) : Nat :=
  if t = tyPB16 then rmax p - 1
  else if t = tyPW8 then (if p then 28 else 60)
  else if t = tyPW4 then (if p then 28 else 56)
  else rmax p

/-- A whole register of the descriptor's type (R100, FULL). -/
def fullDesc (p : Bool) (d : Desc) : Desc := { d with rows := fullRows p d.ty, cols := fullCols d.ty }

/-- The descriptor of D (R100). -/
def descD (p : Bool) (r : List Word) : Desc :=
  if recShp r = 1 then fullDesc p (descOf (rw r 1)) else descOf (rw r 1)

/-- The descriptor of every tile source (R100). -/
def descS (p : Bool) (r : List Word) : Desc :=
  if recShp r = 1 then fullDesc p (descOf (rw r 2))
  else if recShp r = 2 then descOf (rw r 1) else descOf (rw r 2)

/-- Whether a descriptor lies within R36 and R37. -/
def shapeOk (p : Bool) (d : Desc) : Bool :=
  let base :=
    if d.ty = tyI8 then decide (d.cols ≤ 256) && decide (d.rows ≤ rmax p)
    else if d.ty = tyI16 ∨ d.ty = tyFP16 then decide (d.cols ≤ 128) && decide (d.rows ≤ rmax p)
    else if d.ty = tyI32 ∨ d.ty = tyFP32 ∨ d.ty = tyC16 then decide (d.cols ≤ 64) && decide (d.rows ≤ rmax p)
    else if d.ty = tyPB16 then
      decide (d.cols % 16 = 0) && decide (d.cols ≤ 64) && decide (d.rows ≤ rmax p - 1)
    else if d.ty = tyPW8 then
      decide (d.cols = 256) && decide (d.rows % 4 = 0) && decide (d.rows ≤ fullRows p tyPW8)
    else if d.ty = tyPW4 then
      decide (d.cols = 512) && decide (d.rows % 2 = 0) && decide (d.rows ≤ fullRows p tyPW4)
    else false
  base && (!d.split || decide (d.ty = tyC16 ∨ d.ty = tyPB16))

/-- Whether the operand covers the whole register (R106).  A full operand of narrow weights leaves slices to its scale rows and so
does not cover it, while PERMX is heavy whatever its type (DESIGN CHOICE, log entry 95). -/
def coversAll (p : Bool) (d : Desc) : Bool := decide (ceilDiv d.rows 4 = rmax p / 4)

/-- Slices an operand spans (R106). -/
def slicesOf (d : Desc) : Nat := ceilDiv d.rows 4

/-- Elements of an operand. -/
def elems (d : Desc) : Nat := d.rows * d.cols

/-! ### The place of elements -/

/-- The first byte of element (i, j), in half-bytes from the start of the register, so that PW4 has a place of its own. -/
def nibbleOf (d : Desc) (i j : Nat) : Nat :=
  if d.ty = tyPW4 then 512 * i + j
  else if d.split then 512 * i + 4 * j
  else 512 * i + 2 * tySize d.ty * j

/-- The number of the 32-byte TRF word that holds the first byte of element (i, j); SPLIT has a second one. -/
def trfWord (d : Desc) (i j : Nat) : Nat := nibbleOf d i j / 64

/-- The TRF words that an element lies in (R37). -/
def trfWords (d : Desc) (i j : Nat) : List Nat :=
  if d.split then [trfWord d i j, trfWord d i j + 4] else [trfWord d i j]

/-- Byte `b` of a register given as its words. -/
def wByte (a : Array Word) (b : Nat) : Nat := fieldOf (a.getD (b / 4) 0).toNat (8 * (b % 4)) 8

/-- The half-word at byte `b` (even) of a register. -/
def wHalf (a : Array Word) (b : Nat) : Nat := fieldOf (a.getD (b / 4) 0).toNat (8 * (b % 4)) 16

/-- The code of element (i, j): its bytes as a number, real part low for complex types (R36 to R39). -/
def elemRaw (a : Array Word) (d : Desc) (i j : Nat) : Nat :=
  if d.ty = tyPW4 then fieldOf (wByte a (256 * i + j / 2)) (4 * (j % 2)) 4
  else if d.split then wHalf a (256 * i + 2 * j) + 65536 * wHalf a (256 * i + 128 + 2 * j)
  else if tySize d.ty = 1 then wByte a (256 * i + j)
  else if tySize d.ty = 2 then wHalf a (256 * i + 2 * j)
  else (a.getD (64 * i + j) 0).toNat

/-- Whether element (i, j) lies in a poisoned TRF word. -/
def elemBad (bad : List Nat) (d : Desc) (i j : Nat) : Bool := (trfWords d i j).any (fun w => decide (w ∈ bad))

/-- The elements of an operand in linear order, with whether each is poisoned (R101). -/
def tileElems (t : Tile) (d : Desc) : List (Nat × Bool) :=
  let a := t.words.toArray
  (List.range d.rows).flatMap (fun i => (List.range d.cols).map (fun j => (elemRaw a d i j, elemBad t.bad d i j)))

/-- The words of a byte list, little-endian, the last one filled with zeros. -/
def wordsOfBytes : List Byte → List Word
  | a :: b :: c :: d :: t => (d ++ c ++ b ++ a : BitVec 32) :: wordsOfBytes t
  | [] => []
  | l => [BitVec.ofNat 32 (leNat l)]

/-- The four bytes of each word (R5). -/
def bytesOfWords (ws : List Word) : List Byte := ws.flatMap (fun w => leBytes 4 w.toNat)

/-- A list cut or filled with `z` to `n` elements. -/
def padTo {α : Type} (n : Nat) (z : α) (l : List α) : List α := (l.take n) ++ List.replicate (n - l.length) z

/-- The bytes of one row of elements (R36, R37, R39), 256 of them. -/
def rowBytes (d : Desc) (es : List Nat) : List Byte :=
  if d.ty = tyPW4 then
    padTo 256 0 ((List.range (ceilDiv es.length 2)).map
      (fun k => BitVec.ofNat 8 (es.getD (2 * k) 0 % 16 + 16 * (es.getD (2 * k + 1) 0 % 16))))
  else if d.split then
    padTo 128 0 (es.flatMap (fun e => leBytes 2 e)) ++ padTo 128 0 (es.flatMap (fun e => leBytes 2 (e / 65536)))
  else padTo 256 0 (es.flatMap (fun e => leBytes (tySize d.ty) e))

/-- A list in pieces of `n`, at most `f` of them. -/
def pieces {α : Type} (n : Nat) : Nat → List α → List (List α)
  | 0, _ => []
  | _ + 1, [] => []
  | f + 1, l => l.take n :: pieces n f (l.drop n)

/-- Trailing zero words dropped, so that a register of zeros is the empty list. -/
def trimWords (ws : List Word) : List Word :=
  (ws.reverse.dropWhile (fun w => decide (w = 0))).reverse

/-- The data words of an operand built from its elements, trailing rows left out. -/
def dataWords (d : Desc) (es : List Nat) : List Word :=
  ((pieces d.cols d.rows es).map (fun r => wordsOfBytes (rowBytes d r))).flatten

/-- The TRF words of the elements marked true, rising. -/
def badWords (d : Desc) (bs : List Bool) : List Nat :=
  let hit := (indexed 0 bs).filter (fun e => e.2)
  (hit.flatMap (fun e => trfWords d (e.1 / d.cols) (e.1 % d.cols))).dedup.mergeSort (fun a b => decide (a ≤ b))

/-- Word `w` of a register. -/
def Tile.word (t : Tile) (w : Nat) : Word := t.words.getD w 0

/-- A tile with its words cut to the register's size and trimmed, and its poisoned words within the register. -/
def mkTile (p : Bool) (ws : List Word) (bad : List Nat) (k : Kinds) (t : Int) : Tile :=
  { words := trimWords (ws.take (64 * rmax p)), bad := bad.filter (fun b => decide (b < 8 * rmax p)), kinds := k, t := t }

/-! ### Exponent rows, scale rows (R38, R39) -/

/-- The byte of the exponent of block `b` of row `r` of a PB16 register. -/
def pbExpByte (p : Bool) (r b : Nat) : Nat := 256 * (rmax p - 1) + 4 * r + b

/-- The byte of the SE8 code of block `k` of data row `r` of a narrow-weight register (R39). -/
def se8Byte (p : Bool) (ty r k : Nat) : Nat :=
  if ty = tyPW8 then 256 * (if p then 28 else 60) + 8 * r + k
  else 256 * (if p then 28 else 56) + 16 * r + k

/-- The first byte of the level-2 scale of superblock `sb` (R39). -/
def level2Byte (p : Bool) (ty sb : Nat) : Nat :=
  256 * (if ty = tyPW8 then (if p then 29 else 62) else (if p then 30 else 60)) + 4 * sb

/-- Data rows of a superblock (R39). -/
def superRows (ty : Nat) : Nat := if ty = tyPW8 then 4 else 2

/-- Rows of the scale area and the level-2 row (R39), in the order TLD loads them (R109). -/
def scaleRows (p : Bool) (ty : Nat) : List Nat :=
  if ty = tyPW8 then (if p then [28, 29] else [60, 61, 62])
  else if ty = tyPW4 then (if p then [28, 29, 30] else [56, 57, 58, 59, 60])
  else if ty = tyPB16 then [rmax p - 1]
  else []

/-- The pairs (register row, memory row) that TLD and TST move (R109, R110). -/
def movedRows (p : Bool) (d : Desc) : List (Nat × Nat) :=
  (List.range d.rows).map (fun i => (i, i))
    ++ (indexed d.rows (scaleRows p d.ty)).map (fun e => (e.2, e.1))

/-! ### Fields of TLD and TST (R108) -/

def mvSpace (r : List Word) : Nat := fld (rw r 3) 0 2
def mvH (r : List Word) : Nat := fld (rw r 3) 2 4
def mvPair (r : List Word) : Nat := fld (rw r 3) 6 4
def mvHalf (r : List Word) : Bool := bit (rw r 3) 10
def mvAlloc (r : List Word) : Bool := bit (rw r 3) 11
def mvPart (r : List Word) : Nat := fld (rw r 3) 12 4
def mvChan (r : List Word) : Nat := fld (rw r 3) 16 6
def mvAddr (r : List Word) : Nat := (rw r 4).toNat
def mvAddrHi (r : List Word) : Nat := fld (rw r 5) 0 25

/-- The offset of memory row `i` from the start of its space. -/
def rowOff (r : List Word) (i : Nat) : Nat := mvAddr r + i * recAux r * 64

end Sys2Proof.Machine
end

