-- ==== Sys2Proof/Machine/Number.lean ====
section
/-! DEFINITION. Number formats (R138 to R149), rounding and saturation (R141, R142), stochastic rounding (R162), the
conversion of a sequence of elements (R144, R152 to R157) and the quantiser (R150, R151).  Values are exact: a sign, a
magnitude that is a quotient of natural numbers, an infinity or a NaN. -/

namespace Sys2Proof.Machine

/-! ### Exact values -/

/-- An exact value: ± n / d with d > 0, an infinity, or a NaN. -/
inductive Val where
  | num (neg : Bool) (n d : Nat)
  | inf (neg : Bool)
  | nan
  deriving DecidableEq, Repr

/-- An integer as a value. -/
def Val.ofInt (i : Int) : Val := .num (decide (i < 0)) i.natAbs 1

/-- n / d times 2^e, as a quotient. -/
def scaleQ (n d : Nat) (e : Int) : Nat × Nat :=
  if 0 ≤ e then (n * 2 ^ e.toNat, d) else (n, d * 2 ^ (-e).toNat)

/-- A value times 2^e. -/
def Val.shift (v : Val) (e : Int) : Val :=
  match v with
  | .num s n d => .num s (scaleQ n d e).1 (scaleQ n d e).2
  | v => v

/-- The product of two values; zero times an infinity is zero (R153), and the sign is the exclusive OR of the signs. -/
def Val.mul (a b : Val) : Val :=
  match a, b with
  | .num s n d, .num s' n' d' => .num (s ^^ s') (n * n') (d * d')
  | .inf s, .num s' n _ => if n = 0 then .num (s ^^ s') 0 1 else .inf (s ^^ s')
  | .num s n _, .inf s' => if n = 0 then .num (s ^^ s') 0 1 else .inf (s ^^ s')
  | .inf s, .inf s' => .inf (s ^^ s')
  | _, _ => .nan

/-- An IEEE 754 code with `eb` exponent and `mb` mantissa bits. -/
def fpVal (eb mb c : Nat) : Val :=
  let s := decide (fieldOf c (eb + mb) 1 = 1)
  let e := fieldOf c mb eb
  let m := fieldOf c 0 mb
  let bias : Int := 2 ^ (eb - 1) - 1
  if e = 2 ^ eb - 1 then (if m = 0 then .inf s else .nan)
  else if e = 0 then (Val.num s m 1).shift (1 - bias - mb)
  else (Val.num s (2 ^ mb + m) 1).shift (e - bias - mb)

/-- FP16 and FP32 values (R138). -/
def fp16Val (c : Nat) : Val := fpVal 5 10 c
def fp32Val (c : Nat) : Val := fpVal 8 23 c

/-- The value of a PW8 code (R145); 0x80 is MISSING and counts as 0 here. -/
def pw8Val (c : Nat) : Val :=
  let s := decide (fieldOf c 7 1 = 1)
  let e := fieldOf c 4 3
  let m := fieldOf c 0 4
  if e = 0 then (Val.num s m 1).shift (-6) else (Val.num s (16 + m) 1).shift ((e : Int) - 7)

/-- The value of a PW4 code (R146). -/
def pw4Val (c : Nat) : Val := if c % 16 = 8 then .num false 0 1 else Val.ofInt (signed c 4)

/-- The value of an SE8 code (R147). -/
def se8Val (c : Nat) : Val :=
  if c = 0 then .num false 0 1
  else (Val.num false (4 + fieldOf c 0 2) 1).shift ((fieldOf c 2 6 : Int) - 62)

/-- Whether a code is MISSING (R145, R146). -/
def isMissing (ty c : Nat) : Bool := if ty = tyPW4 then decide (c % 16 = 8) else decide (c = 0x80)

/-! ### Exponents -/

/-- floor(log2(n / d)) for n > 0: n / d < 2^l exactly when n · b < a, where a / b is d · 2^l. -/
def floorLog2 (n d : Nat) : Int :=
  let l : Int := (Nat.log2 n : Int) - (Nat.log2 d : Int)
  let (a, b) := scaleQ d 1 l
  if n * b < a then l - 1 else l

/-- The exponent of a magnitude (R156): the smallest b with n / d ≤ 2^b, from −128 to 127. -/
def expOf (n d : Nat) : Int :=
  let l := floorLog2 n d
  let (a, b) := scaleQ d 1 l
  let e := if n * b = a then l else l + 1
  max (-128) (min 127 e)

/-! ### Rounding -/

/-- A draw of the LFSR of R162: 16 steps, then bits [15:0]. -/
def lfsrStep (s : BitVec 32) : BitVec 32 :=
  if s.getLsbD 0 then (s >>> 1) ^^^ 0x80200003 else s >>> 1

/-- `n` steps of the LFSR. -/
def lfsrSteps : Nat → BitVec 32 → BitVec 32
  | 0, s => s
  | n + 1, s => lfsrSteps n (lfsrStep s)

/-- The new state and the number drawn (R162). -/
def draw (s : BitVec 32) : BitVec 32 × Nat :=
  let s' := lfsrSteps 16 s
  (s', s'.toNat % 65536)

/-- The signed quotient rounded to an integer: half to even, or stochastic with the number drawn (R141, R162). -/
def roundQ (r : Option Nat) (neg : Bool) (n d : Nat) : Int :=
  let x : Int := if neg then -(n : Int) else (n : Int)
  let q := x / (d : Int)
  let f := (x % (d : Int)).toNat
  match r with
  | none => if 2 * f < d then q else if d < 2 * f then q + 1 else if q % 2 = 0 then q else q + 1
  | some k => if k < 65536 * f / d then q + 1 else q

/-- Rounding into integers from `lo` to `hi` with the saturation and count of R142. -/
def toInt (lo hi : Int) (r : Option Nat) (v : Val) : Int × Bool :=
  match v with
  | .nan => (0, false)
  | .inf s => (if s then lo else hi, true)
  | .num s n d =>
    if s then
      let m : Int := 2 * n
      let edge : Int := (1 - 2 * lo) * d
      if edge < m ∨ (m = edge ∧ lo % 2 ≠ 0) then (lo, true) else (max lo (roundQ r true n d), false)
    else
      let m : Int := 2 * n
      let edge : Int := (2 * hi + 1) * d
      if edge ≤ m then (hi, true) else (min hi (roundQ r false n d), false)

/-- Rounding into a float code of `mb` mantissa bits with least exponent `emin` and greatest `emax`, sign included at bit
`sb`; L and its tie follow R142. -/
def toFp (mb sb : Nat) (emin emax : Int) (r : Option Nat) (v : Val) : Nat × Bool :=
  let sign (s : Bool) : Nat := b2n s * 2 ^ sb
  let big : Nat := (emax - emin + 1).toNat * 2 ^ mb + (2 ^ mb - 1)
  match v with
  | .nan => (0, false)
  | .inf s => (sign s + big, true)
  | .num s n d =>
    if n = 0 then (sign s, false)
    else
      let (a, b) := scaleQ d 1 (emax - mb - 1)
      -- n / d ≥ (2^(mb+2) − 1) · 2^(emax − mb − 1)
      if (2 ^ (mb + 2) - 1) * a ≤ n * b then (sign s + big, true)
      else
        let e := max emin (floorLog2 n d)
        let (x, y) := scaleQ n d ((mb : Int) - e)
        let k := (roundQ r s x y).natAbs
        (sign s + min big ((e - emin).toNat * 2 ^ mb + k), false)

/-- Rounding into a PW8 code, never 0x80 (R145). -/
def toPw8 (r : Option Nat) (v : Val) : Nat × Bool :=
  let (c, s) := toFp 4 7 (-2) 4 r v
  (if c % 128 = 0 then 0 else c, s)

/-- Rounding into a PW4 code (R146). -/
def toPw4 (r : Option Nat) (v : Val) : Nat × Bool :=
  let (c, s) := toInt (-7) 7 r v
  (unsigned c 4, s)

/-- Rounding of one component into type `ty` at scale `t` (R138, R142); the code and whether it saturates. -/
def toComp (ty : Nat) (t : Int) (r : Option Nat) (v : Val) : Nat × Bool :=
  if ty = tyI8 then let (c, s) := toInt (-128) 127 r (v.shift (-t)); (unsigned c 8, s)
  else if ty = tyI16 ∨ ty = tyC16 then let (c, s) := toInt (-32768) 32767 r (v.shift (-t)); (unsigned c 16, s)
  else if ty = tyI32 then let (c, s) := toInt (-2147483648) 2147483647 r (v.shift (-t)); (unsigned c 32, s)
  else if ty = tyFP16 then toFp 10 15 (-14) 15 r v
  else toFp 23 31 (-126) 127 r v

/-! ### Elements with their values -/

/-- An element as its components (two for complex types), and whether it lies in a poisoned word. -/
structure El where
  comps : List Val
  bad   : Bool
  deriving DecidableEq, Repr

/-- The lanes of a register or of an intermediate: 32-bit words with a poison bit each. -/
abbrev Lanes := Array (Word × Bool)

/-- The lanes of a tile. -/
def Tile.lanes (p : Bool) (t : Tile) : Lanes :=
  let a := t.words.toArray
  ((List.range (64 * rmax p)).map (fun i =>
    if i / 8 ∈ t.bad then (0, true) else (a.getD i 0, false))).toArray

/-- A lane; past the end a clean 0. -/
def lane (l : Lanes) (i : Nat) : Word × Bool := l.getD i (0, false)

/-- Byte `b` of lanes, and the poison of its lane. -/
def laneByte (l : Lanes) (b : Nat) : Nat × Bool :=
  ((fieldOf (lane l (b / 4)).1.toNat (8 * (b % 4)) 8), (lane l (b / 4)).2)

/-- The half-word at an even byte of lanes. -/
def laneHalf (l : Lanes) (b : Nat) : Nat × Bool :=
  ((fieldOf (lane l (b / 4)).1.toNat (8 * (b % 4)) 16), (lane l (b / 4)).2)

/-- The code of element (i, j) and its poison. -/
def laneElem (l : Lanes) (d : Desc) (i j : Nat) : Nat × Bool :=
  if d.ty = tyPW4 then
    let b := laneByte l (256 * i + j / 2)
    (fieldOf b.1 (4 * (j % 2)) 4, b.2)
  else if d.split then
    let a := laneHalf l (256 * i + 2 * j)
    let b := laneHalf l (256 * i + 128 + 2 * j)
    (a.1 + 65536 * b.1, a.2 || b.2)
  else if tySize d.ty = 1 then laneByte l (256 * i + j)
  else if tySize d.ty = 2 then laneHalf l (256 * i + 2 * j)
  else ((lane l (64 * i + j)).1.toNat, (lane l (64 * i + j)).2)

/-- Row and column of linear index `k` (R101). -/
def rowCol (d : Desc) (k : Nat) : Nat × Nat := (k / d.cols, k % d.cols)

/-- The codes of an operand in linear order. -/
def laneElems (l : Lanes) (d : Desc) : List (Nat × Bool) :=
  (List.range (elems d)).map (fun k => laneElem l d (rowCol d k).1 (rowCol d k).2)

/-- The value of a code of a plain type at scale `t` (R138). -/
def compsOf (ty : Nat) (t : Int) (c : Nat) : List Val :=
  if ty = tyI8 then [(Val.ofInt (signed c 8)).shift t]
  else if ty = tyI16 then [(Val.ofInt (signed c 16)).shift t]
  else if ty = tyI32 then [(Val.ofInt (signed c 32)).shift t]
  else if ty = tyC16 ∨ ty = tyPB16 then
    [(Val.ofInt (signed c 16)).shift t, (Val.ofInt (signed (c / 65536) 16)).shift t]
  else if ty = tyFP16 then [fp16Val c]
  else [fp32Val c]

/-- The elements of an operand that is no narrow weight; PB16 takes the exponent of its block (R38, R143), and a sample
whose exponent byte is poisoned is poisoned (log entry 20). -/
def readEls (p : Bool) (l : Lanes) (t : Int) (d : Desc) : List El :=
  (List.range (elems d)).map (fun k =>
    let i := (rowCol d k).1
    let j := (rowCol d k).2
    let e := laneElem l d i j
    if d.ty = tyPB16 then
      let x := laneByte l (pbExpByte p i (j / 16))
      { comps := compsOf tyPB16 (signed x.1 8) e.1, bad := e.2 || x.2 }
    else { comps := compsOf d.ty t e.1, bad := e.2 })

/-! ### The conversion of a sequence -/

/-- What a conversion makes: element codes, block exponents of a PB16 target, poison of each element, the LFSR after it,
and its counts. -/
structure ConvOut where
  codes : List Nat
  exps  : List Int
  bad   : List Bool
  lfsr  : BitVec 32
  stats : CvtStats
  deriving DecidableEq, Repr

/-- The larger of two magnitudes held as quotients. -/
def maxQ (a b : Nat × Nat) : Nat × Nat := if a.1 * b.2 < b.1 * a.2 then b else a

/-- The magnitude of a finite value, 0 otherwise. -/
def Val.mag (v : Val) : Nat × Nat :=
  match v with
  | .num _ n d => (n, d)
  | _ => (0, 1)

/-- NaN taken as +0 (R140, R153). -/
def Val.noNan (v : Val) : Val := match v with | .nan => .num false 0 1 | v => v

/-- The tensor maximum of elements (R156), poisoned elements, infinities and NaNs left out. -/
def tensorMax (els : List El) : Nat × Nat :=
  els.foldl (fun m e => if e.bad then m else e.comps.foldl (fun m v => maxQ m v.mag) m) (0, 1)

/-- The tensor exponent (R156); none where the maximum is 0. -/
def tensorExp (els : List El) : Option Int :=
  let m := tensorMax els
  if m.1 = 0 then none else some (expOf m.1 m.2)

/-- NaN, infinite and converted components of the elements that are not poisoned (R140, R154). -/
def inputStats (els : List El) : CvtStats :=
  let vs := els.flatMap (fun e => if e.bad then [] else e.comps)
  { comps := vs.length, sat := 0, nan := (vs.filter (fun v => decide (v = .nan))).length,
    inf := (vs.filter (fun v => match v with | .inf _ => true | _ => false)).length, missing := 0,
    tmax := tensorExp els }

/-- A draw where RND is stochastic (R162). -/
def drawIf (rnd : Nat) (l : BitVec 32) : BitVec 32 × Option Nat :=
  if rnd = 1 then ((draw l).1, some (draw l).2) else (l, none)

/-- The components of one element rounded in order: code, saturations and the LFSR after. -/
def convComps (f : Option Nat → Val → Nat × Bool) (w rnd : Nat) : Nat → BitVec 32 → List Val → Nat × Nat × BitVec 32
  | _, l, [] => (0, 0, l)
  | sh, l, v :: vs =>
    let (l1, r) := drawIf rnd l
    let (c, s) := f r v.noNan
    let (c', n, l2) := convComps f w rnd (sh + w) l1 vs
    (c * 2 ^ sh + c', b2n s + n, l2)

/-- The place of a component within an element: complex types hold two of 16 bits. -/
def compWidth (ty : Nat) : Nat := if ty = tyC16 ∨ ty = tyPB16 then 16 else 32

/-- Elements rounded one after another by `f`: codes reversed, saturations, LFSR; a poisoned element gives 0 and draws
nothing (R154, R162). -/
def convAll (f : Option Nat → Val → Nat × Bool) (w rnd : Nat) (els : List El) (l : BitVec 32) :
    List Nat × Nat × BitVec 32 :=
  els.foldl (fun a e =>
    if e.bad then (0 :: a.1, a.2.1, a.2.2)
    else
      let (c, n, l') := convComps f w rnd 0 a.2.2 e.comps
      (c :: a.1, a.2.1 + n, l')) ([], 0, l)

/-- Whether every component of a block fits int16 at exponent e after rounding half to even (R144, R162). -/
def pbFits (els : List El) (e : Int) : Bool :=
  els.all (fun x => x.bad || x.comps.all (fun v =>
    match v.noNan.shift (-e) with
    | .num s n d => decide (-32768 ≤ roundQ none s n d) && decide (roundQ none s n d ≤ 32767)
    | _ => false))

/-- The exponent of a PB16 block (R144): the smallest that fits, 127 where none does, 0 for a block of zeros. -/
def pbExp (els : List El) : Int :=
  let m := tensorMax els
  let infs := els.any (fun e => !e.bad && e.comps.any (fun v => match v with | .inf _ => true | _ => false))
  if infs then 127
  else if m.1 = 0 then 0
  else
    let e0 : Int := max (-128) (floorLog2 m.1 m.2 - 16)
    match (List.range 4).find? (fun (i : Nat) => decide (e0 + (i : Int) ≤ 127) && pbFits els (e0 + (i : Int))) with
    | some i => e0 + (i : Int)
    | none => 127

/-- The sequence converted into type `ty` at scale `t` under RND (R141 to R144, R152 to R157). -/
def convert (ty : Nat) (t : Int) (rnd : Nat) (els : List El) (l : BitVec 32) : ConvOut :=
  let st := inputStats els
  let bad := els.map (fun e => e.bad)
  if ty = tyPB16 then
    let blocks := pieces 16 els.length els
    let r := blocks.foldl (fun a b =>
      let e := pbExp b
      let (cs, n, l') := convAll (fun k v =>
        let (c, s) := toInt (-32768) 32767 k (v.shift (-e)); (unsigned c 16, s)) 16 rnd b a.2.2.2
      (a.1 ++ cs.reverse, a.2.1 ++ [e], a.2.2.1 + n, l')) (([] : List Nat), ([] : List Int), 0, l)
    { codes := r.1, exps := r.2.1, bad := bad, lfsr := r.2.2.2, stats := { st with sat := r.2.2.1 } }
  else
    let r := convAll (toComp ty t) (compWidth ty) rnd els l
    { codes := r.1.reverse, exps := [], bad := bad, lfsr := r.2.2, stats := { st with sat := r.2.1 } }

/-- A sequence multiplied by an exact factor (R153). -/
def scaleEls (f : Val) (els : List El) : List El :=
  els.map (fun e => { e with comps := e.comps.map (fun v => v.noNan.mul f) })

/-! ### Tiles from element codes -/

/-- Bytes placed in a register's words: (byte, value) pairs over words of data. -/
def putTileBytes (ws : List Word) (n : Nat) (bs : List (Nat × Nat)) : List Word :=
  let a := (padTo n 0 ws).toArray
  (bs.foldl (fun (a : Array Word) b =>
    a.modify (b.1 / 4) (fun w => BitVec.ofNat 32 (setField w.toNat (8 * (b.1 % 4)) 8 b.2))) a).toList

/-- A whole destination register from the codes of its elements, its block exponents and poison (R38, R40, R90). -/
def buildTile (p : Bool) (d : Desc) (codes : List Nat) (exps : List Int) (bad : List Bool) (k : Kinds) (t : Int) : Tile :=
  let ws := dataWords d codes
  let nb := d.cols / 16
  let ws := if d.ty = tyPB16 then
      putTileBytes ws (64 * rmax p)
        ((indexed 0 exps).map (fun e => (pbExpByte p (e.1 / nb) (e.1 % nb), unsigned e.2 8)))
    else ws
  mkTile p ws (badWords d bad) k t

/-! ### Narrow weights -/

/-- A narrow weight as DQN reads it (R39, R149): its code, the SE8 code of its block, the level-2 scale of its superblock,
and whether any of the three words is poisoned (R154). -/
structure Weight where
  code : Nat
  se8  : Nat
  d2   : Nat
  bad  : Bool
  deriving DecidableEq, Repr

/-- The `n` weights from data row `row0` of a narrow-weight operand. -/
def readWeights (p : Bool) (l : Lanes) (d : Desc) (row0 n : Nat) : List Weight :=
  (List.range n).map (fun k =>
    let i := row0 + k / d.cols
    let j := k % d.cols
    let c := laneElem l d i j
    let e := laneByte l (se8Byte p d.ty i (j / 32))
    let x := lane l (level2Byte p d.ty (i / superRows d.ty) / 4)
    { code := c.1, se8 := e.1, d2 := x.1.toNat, bad := c.2 || e.2 || x.2 })

/-- The value of a code of a narrow type. -/
def pwVal (ty c : Nat) : Val := if ty = tyPW4 then pw4Val c else pw8Val c

/-- A weight as an element (R148, R149): code × SE8 × level-2 scale, a NaN scale as zero, MISSING as zero (DEDUCED, log entry 21). -/
def weightEl (ty : Nat) (w : Weight) : El :=
  { comps := [if isMissing ty w.code then .num false 0 1
              else ((pwVal ty w.code).mul (se8Val w.se8)).mul (fp32Val w.d2).noNan],
    bad := w.bad }

/-- MISSING weights that are not poisoned (R149). -/
def missingOf (ty : Nat) (ws : List Weight) : Nat :=
  (ws.filter (fun w => !w.bad && isMissing ty w.code)).length

/-- NaN level-2 scales of the superblocks of a run of weights, one for each superblock with a weight that is not poisoned
(R148, log entry 21). -/
def nanScales (ws : List Weight) : Nat :=
  ((pieces 1024 ws.length ws).filter (fun b =>
    b.any (fun w => !w.bad && decide (fp32Val w.d2 = .nan)))).length

/-- Infinite level-2 scales of the superblocks of a run of weights, one for each superblock with a weight that is not poisoned
(R148, R165, log entry 21). -/
def infScales (ws : List Weight) : Nat :=
  ((pieces 1024 ws.length ws).filter (fun b =>
    b.any (fun w => !w.bad && (match fp32Val w.d2 with | .inf _ => true | _ => false)))).length

/-- The nearest FP32 code to a value, ties to even, unbounded inputs at the largest. -/
def nearestFp32 (n d : Nat) : Nat := (toFp 23 31 (-126) 127 none (.num false n d)).1

/-- The largest code of a narrow type (R150). -/
def maxCode (ty : Nat) : Nat := if ty = tyPW4 then 7 else 31

/-- The SE8 code of a block with largest magnitude m under level-2 scale d2 (R150 step 2). -/
def se8Code (ty : Nat) (m : Nat × Nat) (d2 : Val) : Nat :=
  match d2 with
  | .num _ dn dd =>
    if m.1 = 0 ∨ dn = 0 then 0
    else
      -- the ratio m / (maxcode · d2)
      let rn := m.1 * dd
      let rd := m.2 * maxCode ty * dn
      match (List.range 255).find? (fun i =>
        match se8Val (i + 1) with
        | .num _ a b => decide (rn * b ≤ a * rd)
        | _ => false) with
      | some i => i + 1
      | none => 0xFF
  | _ => if m.1 = 0 then 0 else 1

/-- The code of one weight (R150 step 3, R151); `none` for a poisoned one, which takes MISSING. -/
def weightCode (ty : Nat) (s1 d2 : Val) (zero : Bool) (r : Option Nat) (v : Val) : Nat × Bool :=
  let enc : Option Nat → Val → Nat × Bool := if ty = tyPW4 then toPw4 else toPw8
  match v.noNan with
  | .inf s => enc none (.inf s)
  | x =>
    if zero then (0, false)
    else
      match x, s1.mul d2 with
      | .num s n d, .num _ a b => if a = 0 then (0, false) else enc r (.num s (n * b) (d * a))
      | _, _ => (0, false)

/-- The MISSING code of a type. -/
def missingCode (ty : Nat) : Nat := if ty = tyPW4 then 8 else 0x80

/-- What the quantiser makes of one superblock: codes, SE8 codes, level-2 scale, saturations, LFSR. -/
structure QOut where
  codes : List Nat
  se8   : List Nat
  d2    : List Nat
  sat   : Nat
  lfsr  : BitVec 32
  deriving DecidableEq, Repr

/-- One block of 32 weights under level-2 scale `d2` (R150, R151). -/
def quantBlock (ty rnd : Nat) (d2 : Val) (els : List El) (l : BitVec 32) : Nat × List Nat × Nat × BitVec 32 :=
  let c8 := se8Code ty (tensorMax els) d2
  let s1 := se8Val c8
  let r := els.foldl (fun (a : List Nat × Nat × BitVec 32) e =>
    if e.bad then (missingCode ty :: a.1, a.2.1, a.2.2)
    else
      let (l', k) := drawIf rnd a.2.2
      let (c, s) := weightCode ty s1 d2 (decide (c8 = 0)) k (e.comps.headD (.num false 0 1))
      (c :: a.1, a.2.1 + b2n s, l')) ([], 0, l)
  (c8, r.1.reverse, r.2.1, r.2.2)

/-- One superblock of 1,024 weights (R150): with `u` the exponent of the delayed scale, else from the largest weight. -/
def quantSuper (ty rnd : Nat) (u : Option Int) (els : List El) (q : QOut) : QOut :=
  let m := match u with
    | none => tensorMax els
    | some e => scaleQ 1 1 e
  let d2c := nearestFp32 m.1 (m.2 * maxCode ty)
  let d2 := fp32Val d2c
  let r := (pieces 32 els.length els).foldl (fun (a : List Nat × List Nat × Nat × BitVec 32) b =>
    let x := quantBlock ty rnd d2 b a.2.2.2
    (a.1 ++ x.2.1, a.2.1 ++ [x.1], a.2.2.1 + x.2.2.1, x.2.2.2)) ([], [], 0, q.lfsr)
  { codes := q.codes ++ r.1, se8 := q.se8 ++ r.2.1, d2 := q.d2 ++ [d2c], sat := q.sat + r.2.2.1, lfsr := r.2.2.2 }

/-- The quantiser over a sequence whose length is a multiple of 1,024 (R150, R151). -/
def quantise (ty rnd : Nat) (u : Option Int) (els : List El) (l : BitVec 32) : QOut :=
  (pieces 1024 els.length els).foldl (fun q b => quantSuper ty rnd u b q)
    { codes := [], se8 := [], d2 := [], sat := 0, lfsr := l }

/-- Bytes of the quantised weights placed in a register from data row `row0` (R39): (byte, value) pairs. -/
def weightBytes (p : Bool) (d : Desc) (row0 : Nat) (q : QOut) : List (Nat × Nat) :=
  let nb := d.cols / 32
  let codeBytes :=
    if d.ty = tyPW4 then
      (indexed 0 (pieces 2 q.codes.length q.codes)).map (fun e =>
        (256 * row0 + e.1, e.2.getD 0 0 % 16 + 16 * (e.2.getD 1 0 % 16)))
    else (indexed 0 q.codes).map (fun e => (256 * row0 + e.1, e.2))
  let se := (indexed 0 q.se8).map (fun e => (se8Byte p d.ty (row0 + e.1 / nb) (e.1 % nb), e.2))
  let lv := (indexed 0 q.d2).flatMap (fun e =>
    (List.range 4).map (fun b => (level2Byte p d.ty (row0 / superRows d.ty + e.1) + b, fieldOf e.2 (8 * b) 8)))
  codeBytes ++ se ++ lv

end Sys2Proof.Machine
end

