-- ==== Sys2Proof/Machine/Fabric.lean ====
section
/-! DEFINITION. The route fabric: the network (R64, R65), swizzles and masks (R66), plane routes (R67), the route
formats (R71 to R73), solves (R76, R78), permute-reduce (R80, R81), sorting (R82, R83), check symbols (R88), the pass of
exponent and scale codes (R113), generated patterns (R116, R117) and staging address generation (R121 to R124). -/

namespace Sys2Proof.Machine

/-! ### Check symbols (R88, R89) -/

/-- One byte of the CRC-8 with polynomial x^8 + x^2 + x + 1. -/
def crc8Bits : Nat → Nat → Nat
  | 0, c => c
  | n + 1, c => crc8Bits n (if c.testBit 7 then ((c * 2) % 256) ^^^ 0x07 else (c * 2) % 256)

/-- The check symbol of a lane: CRC-8 of its bytes 0 to 3. -/
def checkSymbol (w : Word) : BitVec 8 :=
  BitVec.ofNat 8 ((List.range 4).foldl (fun c i => crc8Bits 8 (c ^^^ fieldOf w.toNat (8 * i) 8)) 0)

/-- A lane as it enters the fabric, or leaves a step that altered it: with the symbol of its data. -/
def Lane.new (w : Word) (bad : Bool) : Lane := { data := w, sym := checkSymbol w, bad := bad }

/-- A clean lane of 0. -/
def Lane.zero : Lane := Lane.new 0 false

/-- A poisoned lane: data 0 (R90). -/
def Lane.poisoned : Lane := Lane.new 0 true

/-- Whether a lane passes its check. -/
def Lane.ok (x : Lane) : Bool := decide (x.sym = checkSymbol x.data)

/-- A lane checked: one that fails becomes data 0 with its poison bit set. -/
def checkLane (x : Lane) : Lane := if x.ok then x else Lane.poisoned

/-- The checks that failed: (port, place), places as in FABRIC_CHECK: 0 fabric output, 1 XCX egress, 2 swizzle, 3 copy,
4 compare, 5 reduce, 6 conversion (R93). -/
abbrev Fails := List (Nat × Nat)

/-- The ports of the lanes that fail a check made at a place. -/
def failing (place : Nat) (v : List Lane) : Fails :=
  (indexed 0 v).filterMap (fun e => if e.2.ok then none else some (e.1, place))

/-- Lanes after the steps so far, with the checks that failed on the way. -/
structure Pass where
  out   : List Lane
  fails : Fails
  deriving DecidableEq, Repr

/-- The check before a step, or at the fabric output. -/
def Pass.check (place : Nat) (p : Pass) : Pass :=
  { out := p.out.map checkLane, fails := p.fails ++ failing place p.out }

/-- A step that moves lanes, or alters them and makes new symbols. -/
def Pass.step (f : List Lane → List Lane) (p : Pass) : Pass := { p with out := f p.out }

/-- An armed lane fault (R334): data bit 0 of lane `j` flips and its symbol stays (DESIGN CHOICE, log entry 31). -/
def strike (j : Option Nat) (v : List Lane) : List Lane :=
  match j with
  | some j => updNth j (fun x => { x with data := x.data ^^^ 1 }) v
  | none => v

/-! ### The network (R65) -/

/-- One stage: switch k crosses where bit `o + k` of the string is 1. -/
def netStage {α : Type} (bits : Nat) (o : Nat) : List α → List α
  | a :: b :: t => (if bits.testBit o then [b, a] else [a, b]) ++ netStage bits (o + 1) t
  | l => l

/-- Elements at even and at odd places. -/
def evens {α : Type} : List α → List α
  | a :: _ :: t => a :: evens t
  | l => l

/-- Elements at odd places. -/
def odds {α : Type} : List α → List α
  | _ :: b :: t => b :: odds t
  | _ => []

/-- Two lists taken in turn. -/
def riffle {α : Type} : List α → List α → List α
  | a :: t, b :: u => a :: b :: riffle t u
  | [], u => u
  | t, [] => t

/-- The wiring from stage s to stage s + 1. -/
def netLink {α : Type} (v : List α) (s : Nat) : List α :=
  if s ≤ 6 then ((pieces (256 >>> s) v.length v).map (fun b => evens b ++ odds b)).flatten
  else ((pieces (4 <<< (s - 7)) v.length v).map (fun b =>
    riffle (b.take (b.length / 2)) (b.drop (b.length / 2)))).flatten

/-- Stages from `s` on, `n` of them. -/
def netFrom {α : Type} (bits : Nat) : Nat → Nat → List α → List α
  | 0, _, v => v
  | n + 1, s, v =>
    let w := netStage bits (128 * s) v
    netFrom bits n (s + 1) (if n = 0 then w else netLink w s)

/-- The 256-port network of 15 stages under a switch string (R65). -/
def network {α : Type} (bits : Nat) (v : List α) : List α := netFrom bits 15 0 v

/-! ### Routes (R71 to R73) -/

def dfld (x : DWord) (lo w : Nat) : Nat := fieldOf x.toNat lo w

/-- Header fields (R72). -/
def rtKind (h : DWord) : Nat := dfld h 0 4
def rtWidth (h : DWord) : Nat := dfld h 4 4
def rtInSwz (h : DWord) : Nat := dfld h 8 8
def rtOutSwz (h : DWord) : Nat := dfld h 16 8
def rtMaskMode (h : DWord) : Nat := dfld h 24 2
def rtTag (h : DWord) : Nat := dfld h 32 12
def rtLen (h : DWord) : Nat := dfld h 44 12

/-- Directory entry fields (R71). -/
def deBase (d : DWord) : Nat := dfld d 0 19
def deLen (d : DWord) : Nat := dfld d 20 12
def deKind (d : DWord) : Nat := dfld d 32 4
def deValid (d : DWord) : Bool := d.getLsbD 63

/-- The length R73 gives for a kind and mask mode; 0 for a reserved kind. -/
def routeLen (kind mask : Nat) : Nat :=
  let m := if mask = 0 then 0 else 4
  match kind with
  | 0 => 31 + m
  | 1 => 77 + m
  | 2 => 185 + m
  | 3 => 65 + m
  | 4 => 65
  | 5 => 2
  | 6 => 257
  | 7 => 18
  | _ => 0

/-- Entry `i` of a route, the header being entry 0. -/
def ent (e : List DWord) (i : Nat) : DWord := e.getD i 0

/-- `n` entries from `i` as one number: a switch string, a mask, or the fields of lanes. -/
def entBits (e : List DWord) (i n : Nat) : Nat :=
  ((List.range n).map (fun k => (ent e (i + k)).toNat * 2 ^ (64 * k))).foldl (· + ·) 0

/-- The uniform swizzle of R66. -/
def swizzle (code : Nat) (x : Lane) : Lane :=
  Lane.new (BitVec.ofNat 32 ((List.range 4).foldl (fun a i =>
    a + fieldOf x.data.toNat (8 * (fieldOf code (2 * i) 2)) 8 * 2 ^ (8 * i)) 0)) x.bad

/-- A swizzle step with its check; the code that leaves lanes unchanged is no step (DESIGN CHOICE, log entry 31). -/
def Pass.swizzle (code : Nat) (p : Pass) : Pass :=
  if code = 0xE4 then p else (p.check 2).step (fun v => v.map (Machine.swizzle code))

/-- The mask stage (R66). -/
def maskStage (mode mask : Nat) (keep : List Lane) (v : List Lane) : List Lane :=
  if mode = 1 then (indexed 0 v).map (fun e => if mask.testBit e.1 then Lane.zero else e.2)
  else if mode = 2 then (indexed 0 v).map (fun e => if mask.testBit e.1 then keep.getD e.1 Lane.zero else e.2)
  else v

/-- The copy stage of a GATHER route (R73): each marked lane takes the value of the lane before it. -/
def copyStage {α : Type} (mask : Nat) (prev : Option α) (j : Nat) : List α → List α
  | [] => []
  | a :: t =>
    let b := match prev with
      | some x => if mask.testBit j then x else a
      | none => a
    b :: copyStage mask (some b) (j + 1) t

/-- One pass of a plane route over the output so far (R67): units of `u` bits, `per` to a word.  An output word is poisoned
where any pass brought it a poisoned unit, also one that a later pass overwrites (DESIGN CHOICE, log entry 90); placing a
unit is checked as a swizzle (DESIGN CHOICE, log entry 31). -/
def planePass (u : Nat) (e : List DWord) (o : Nat) (v : List Lane) (acc : Pass) : Pass :=
  let per := 32 / u
  let fb := if u = 16 then 1 else 2
  let fe := if u = 16 then 4 else 8
  let net := entBits e o 30
  let sel := entBits e (o + 30) fe
  let pos := entBits e (o + 30 + fe) fe
  let inp := (indexed 0 v).map (fun x =>
    Lane.new (BitVec.ofNat 32 (fieldOf x.2.data.toNat (u * (fieldOf sel (fb * x.1) fb % per)) u)) x.2.bad)
  let w := ({ out := network net inp, fails := [] } : Pass).check 2
  { out := (indexed 0 (w.out.zip acc.out)).map (fun x =>
      Lane.new (BitVec.ofNat 32 (setField x.2.2.data.toNat (u * (fieldOf pos (fb * x.1) fb % per)) u x.2.1.data.toNat))
        (x.2.1.bad || x.2.2.bad)),
    fails := acc.fails ++ w.fails }

/-- The passes of a plane route: the source slice is read once, and checked before its units are selected (R67, R88). -/
def planePasses (u n stride : Nat) (e : List DWord) (v : List Lane) : Pass :=
  let x := ({ out := v, fails := [] } : Pass).check 2
  (List.range n).foldl (fun acc p => planePass u e (1 + stride * p) x.out acc)
    { out := List.replicate 256 Lane.zero, fails := x.fails }

/-- Passes of a route per slice (R106). -/
def Route.passes : Route → Nat
  | .entries e =>
    match rtKind (ent e 0) with
    | 1 => 2
    | 2 => 4
    | 3 => 2
    | _ => 1
  | .lanes _ _ g => if g then 2 else 1
  | .bad => 1

/-- Whether a route keeps lanes of SB (R112). -/
def Route.keeps : Route → Bool
  | .entries e => decide (rtMaskMode (ent e 0) = 2)
  | .lanes _ k _ => k
  | .bad => false

/-- The lane movement of a route alone, without swizzles, units or masks: what one extra pass does (R113); the copy stage
of a GATHER is checked (R88). -/
def Route.move (r : Route) (p : Pass) : Pass :=
  match r with
  | .entries e =>
    if rtKind (ent e 0) = 3 then
      (((p.step (network (entBits e 1 30))).check 3).step (copyStage (entBits e 31 4) none 0)).step (network (entBits e 35 30))
    else p.step (network (entBits e 1 30))
  | .lanes m _ _ => p.step (fun v => m.map (fun x => match x with | some i => v.getD i Lane.zero | none => Lane.zero))
  | .bad => p

/-- The mask stage of a route on lanes. -/
def Route.mask (r : Route) (keep v : List Lane) : List Lane :=
  match r with
  | .entries e =>
    let h := ent e 0
    let at_ := match rtKind h with | 0 => 31 | 1 => 77 | 2 => 185 | _ => 65
    maskStage (rtMaskMode h) (entBits e at_ 4) keep v
  | .lanes m k _ =>
    (indexed 0 (v.zip m)).map (fun x =>
      match x.2.2 with
      | some _ => x.2.1
      | none => if k then keep.getD x.1 Lane.zero else Lane.zero)
  | .bad => List.replicate 256 Lane.poisoned

/-- A route applied to one slice (R66, R67, R73): swizzles, network, mask; `keep` is the keep source's slice.  A GATHER
swizzles its input once before pass A and its output once after pass B (DESIGN CHOICE, log entry 90). -/
def Route.apply (r : Route) (keep v : List Lane) : Pass :=
  let p : Pass := { out := v, fails := [] }
  let w := match r with
    | .entries e =>
      let h := ent e 0
      match rtKind h with
      | 1 => planePasses 16 2 38 e v
      | 2 => planePasses 8 4 46 e v
      | _ => (r.move (p.swizzle (rtInSwz h))).swizzle (rtOutSwz h)
    | _ => r.move p
  w.step (r.mask keep)

/-! ### Lanes of an operand -/

/-- Slice `s` of a register as it enters the fabric (R43, R88). -/
def slice (l : Lanes) (s : Nat) : List Lane :=
  (List.range 256).map (fun j => Lane.new (lane l (256 * s + j)).1 (lane l (256 * s + j)).2)

/-- What a lane writes to a register. -/
def Lane.word (x : Lane) : Word × Bool := (x.data, x.bad)

/-- The lanes of a source as they pass: exponent and scale rows do not (R113). -/
def dataLanes (p : Bool) (d : Desc) (l : Lanes) : Lanes :=
  let rs := scaleRows p d.ty
  if rs.isEmpty then l
  else ((indexed 0 l.toList).map (fun x => if x.1 / 64 ∈ rs then (0, false) else x.2)).toArray

/-- The code that lane `i` of the register carries in the extra pass (R113). -/
def codeLane (p : Bool) (d : Desc) (l : Lanes) (i : Nat) : Nat × Bool :=
  let r := i / 64
  let c := i % 64
  if r ∈ scaleRows p d.ty ∨ fullRows p d.ty ≤ r then (0, false)
  else if d.ty = tyPB16 then laneByte l (pbExpByte p r (if d.split then (c % 32) / 8 else c / 16))
  else if d.ty = tyPW8 then laneByte l (se8Byte p tyPW8 r (c / 8))
  else laneByte l (se8Byte p tyPW4 r (c / 4))

/-- The blocks of one row: (first word, byte of the block's code). -/
def blockCodes (p : Bool) (d : Desc) (r : Nat) : List (Nat × Nat) :=
  if d.ty = tyPB16 then
    (List.range (d.cols / 16)).map (fun b => ((if d.split then 8 * b else 16 * b), pbExpByte p r b))
  else if d.ty = tyPW8 then (List.range 8).map (fun k => (8 * k, se8Byte p tyPW8 r k))
  else (List.range 16).map (fun k => (4 * k, se8Byte p tyPW4 r k))

/-- Whether a type carries codes outside its data rows. -/
def hasCodes (ty : Nat) : Bool := decide (ty = tyPB16 ∨ ty = tyPW8 ∨ ty = tyPW4)

/-- Lanes with bytes placed: (byte, value, poison). -/
def putLaneBytes (l : Lanes) (bs : List (Nat × Nat × Bool)) : Lanes :=
  bs.foldl (fun (a : Lanes) b =>
    a.modify (b.1 / 4) (fun x => (BitVec.ofNat 32 (setField x.1.toNat (8 * (b.1 % 4)) 8 b.2.1), x.2 || b.2.2))) l

/-- The lanes of the level-2 row of a narrow type, copied unchanged (R113). -/
def level2Lanes (p : Bool) (d : Desc) (l : Lanes) : List (Nat × Nat × Bool) :=
  if d.ty = tyPW8 ∨ d.ty = tyPW4 then
    let b := level2Byte p d.ty 0
    (List.range 256).map (fun i => (b + i, (laneByte l (b + i)).1, (laneByte l (b + i)).2))
  else []

/-- The slices that `f` makes of every slice below `n`, as lanes of a register, with the checks that failed. -/
def perSlice (p : Bool) (n : Nat) (f : Nat → Pass) : Lanes × Fails :=
  let ps := (List.range n).map f
  let blank : List (Word × Bool) := List.replicate (256 * (rmax p / 4 - n)) (0, false)
  ((ps.flatMap (fun x => x.out.map Lane.word) ++ blank).toArray, ps.flatMap (fun x => x.fails))

/-- The code lanes of slice `s` of a register (R113). -/
def codeSlice (p : Bool) (d : Desc) (l : Lanes) (s : Nat) : List Lane :=
  (List.range 256).map (fun j => Lane.new (BitVec.ofNat 32 (codeLane p d l (256 * s + j)).1) (codeLane p d l (256 * s + j)).2)

/-- The codes of the blocks of an output operand: each block takes the code that arrived at its first word, `v s` being the
code lanes of slice s after their movement (R113). -/
def arrivedCodes (p : Bool) (d : Desc) (n : Nat) (v : Nat → List Lane) : List (Nat × Nat × Bool) :=
  (List.range (ceilDiv (min d.rows (4 * n)) 4)).flatMap (fun s =>
    let x := (v s).toArray
    (List.range (min 4 (d.rows - 4 * s))).flatMap (fun i =>
      (blockCodes p d (4 * s + i)).map (fun b =>
        let y := x.getD (64 * i + b.1) Lane.zero
        (b.2, y.data.toNat % 256, y.bad))))

/-- A routed operand (R112, R113): data slices through `rt s` with the output check of `place`, codes through the same
movement to the blocks of `od`, the level-2 row copied; `hit` is an armed fault of the first pass. -/
def routeOperand (p : Bool) (d od : Desc) (n : Nat) (rt : Nat → Route) (place : Nat) (hit : Option Nat) (a b : Lanes) :
    Lanes × Fails :=
  let da := dataLanes p d a
  let db := dataLanes p d b
  let out := perSlice p n (fun s =>
    ((rt s).apply (slice db s) (strike (if s = 0 then hit else none) (slice da s))).check place)
  if hasCodes d.ty then
    let moved (s : Nat) : List Lane :=
      (((rt s).move { out := codeSlice p d a s, fails := [] }).step ((rt s).mask (codeSlice p d b s))).out
    (putLaneBytes out.1 (arrivedCodes p od n moved ++ level2Lanes p d a), out.2)
  else out

/-! ### A destination from lanes (R40) -/

/-- Whether byte `b` of a register belongs to an operand of shape `d`, codes and level-2 scales included. -/
def inShape (p : Bool) (d : Desc) (b : Nat) : Bool :=
  let r := b / 256
  let c := b % 256
  let data := decide (r < d.rows) &&
    (if d.ty = tyPW4 then decide (2 * c < d.cols)
     else if d.split then decide (c % 128 < 2 * d.cols)
     else decide (c < d.cols * tySize d.ty))
  let codes :=
    if d.ty = tyPB16 then
      decide (r = rmax p - 1) && decide (c / 4 < d.rows) && decide (c % 4 < d.cols / 16)
    else if d.ty = tyPW8 then
      let o := se8Byte p tyPW8 0 0
      let l2 := level2Byte p tyPW8 0
      (decide (o ≤ b) && decide (b < o + 8 * d.rows)) || (decide (l2 ≤ b) && decide (b < l2 + d.rows))
    else if d.ty = tyPW4 then
      let o := se8Byte p tyPW4 0 0
      let l2 := level2Byte p tyPW4 0
      (decide (o ≤ b) && decide (b < o + 16 * d.rows)) || (decide (l2 ≤ b) && decide (b < l2 + 2 * d.rows))
    else false
  (data && !(decide (r ∈ scaleRows p d.ty))) || codes

/-- A word with the bytes outside the shape cleared. -/
def cleanWord (p : Bool) (d : Desc) (i : Nat) (w : Word) : Word :=
  BitVec.ofNat 32 ((List.range 4).foldl (fun a k =>
    if inShape p d (4 * i + k) then a + fieldOf w.toNat (8 * k) 8 * 2 ^ (8 * k) else a) 0)

/-- Whether a word holds a byte of the shape (DEDUCED, log entry 20). -/
def wordInShape (p : Bool) (d : Desc) (i : Nat) : Bool := (List.range 4).any (fun k => inShape p d (4 * i + k))

/-- A register from lanes, bytes outside the shape 0 (R40), poison at 32-byte words (R90). -/
def tileOfLanes (p : Bool) (d : Desc) (l : Lanes) (k : Kinds) (t : Int) : Tile :=
  let xs := indexed 0 (l.toList.take (64 * rmax p))
  let bad := (xs.filter (fun x => x.2.2 && wordInShape p d x.1)).map (fun x => x.1 / 8)
  mkTile p (xs.map (fun x => cleanWord p d x.1 x.2.1)) bad.dedup k t

/-- A register from lanes, every byte kept (TMOV, SORT, REDP outputs are cut by `tileOfLanes`). -/
def tileOfAll (p : Bool) (l : Lanes) (k : Kinds) (t : Int) : Tile :=
  let xs := indexed 0 (l.toList.take (64 * rmax p))
  mkTile p (xs.map (fun x => x.2.1)) ((xs.filter (fun x => x.2.2)).map (fun x => x.1 / 8)).dedup k t

/-- A register made in the fabric, checked at the fabric output under an armed fault `hit` of its first slice (R88, R89). -/
def Tile.checked (p : Bool) (d : Desc) (hit : Option Nat) (t : Tile) : Tile × Fails :=
  let l := t.lanes p
  let x := ({ out := strike hit (slice l 0), fails := [] } : Pass).check 0
  if x.fails.isEmpty then (t, [])
  else (tileOfLanes p d (x.out.map Lane.word ++ l.toList.drop 256).toArray (t.kinds ||| kFabric) t.t, x.fails)

/-! ### Solves (R76, R78) -/

/-- An index of R73: a number, or NULL. -/
def indexOf (x : Nat) : Option Nat := if fieldOf x 15 1 = 1 then none else some (fieldOf x 0 12)

/-- The index vector of an INDEX route. -/
def indexRoute (e : List DWord) : List (Option Nat × Bool) :=
  (List.range 256).map (fun j => (indexOf (dfld (ent e (1 + j / 4)) (16 * (j % 4)) 16), false))

/-- The index vector in the first 512 bytes of a slice, with the poison of each index. -/
def indexSlice (l : Lanes) (s : Nat) : List (Option Nat × Bool) :=
  (List.range 256).map (fun j => (indexOf (laneHalf l (1024 * s + 2 * j)).1, (laneHalf l (1024 * s + 2 * j)).2))

/-- The first offending position of a vector with its cause (R78): 3 poisoned, 2 out of range, 1 repeated in SCATTER form. -/
def solveFault (scatter : Bool) (seen : List Nat) (j : Nat) : List (Option Nat × Bool) → Option (Nat × Nat)
  | [] => none
  | (x, bad) :: t =>
    if bad then some (j, 3)
    else
      match x with
      | none => solveFault scatter seen (j + 1) t
      | some v =>
        if 256 ≤ v then some (j, 2)
        else if scatter && decide (v ∈ seen) then some (j, 1)
        else solveFault scatter (v :: seen) (j + 1) t

/-- The route a solve makes of a vector that does not fail (R76) (DESIGN CHOICE, log entry 19). -/
def solveRoute (scatter : Bool) (v : List (Option Nat × Bool)) : Route :=
  if scatter then
    .lanes ((List.range 256).map (fun o => v.findIdx? (fun x => decide (x.1 = some o)))) true false
  else
    let m := v.map (fun x => x.1)
    let used := m.filterMap (fun x => x)
    .lanes m false (decide (used.dedup.length ≠ used.length))

/-! ### Permute-reduce (R80, R81) -/

/-- One term's component in quarter units: negated or conjugated, then shifted (R80). -/
def redpTerm (neg : Bool) (shr : Nat) (v : Int) : Int := (4 * (if neg then -v else v)) / (2 ^ shr : Nat)

/-- A sum in quarter units rounded to even and saturated; whether it saturated. -/
def redpRound (s : Int) : Int × Bool :=
  let q := s / 4
  let f := s % 4
  let r := if f < 2 then q else if 2 < f then q + 1 else if q % 2 = 0 then q else q + 1
  if r < -32768 then (-32768, true) else if 32767 < r then (32767, true) else (r, false)

/-- Modifiers of one REDP source. -/
structure RMod where
  neg  : Bool
  conj : Bool
  shr  : Nat
  deriving DecidableEq, Repr

/-- One output lane of a REDP from the lanes of its sources; `imLow` and `imHigh` say which half-words are imaginary parts. -/
def redpLane (imLow imHigh : Bool) (ms : List RMod) (ts : List Lane) : Lane × Nat :=
  if ts.any (fun t => t.bad) then (Lane.poisoned, 0)
  else
    let sum (lo : Nat) (im : Bool) : Int :=
      ((ms.zip ts).map (fun x =>
        redpTerm (x.1.neg ^^ (x.1.conj && im)) x.1.shr (signed (fld x.2.data lo 16) 16))).foldl (· + ·) 0
    let a := redpRound (sum 0 imLow)
    let b := redpRound (sum 16 imHigh)
    (Lane.new (BitVec.ofNat 32 (unsigned a.1 16 + 65536 * unsigned b.1 16)) false, b2n a.2 + b2n b.2)

/-! ### Sorting (R82, R83) -/

/-- The primary key of a word (R82), as an integer. -/
def sortKey (key : Nat) (w : Word) : Int :=
  match key with
  | 0 => signed w.toNat 32
  | 1 => w.toNat
  | 2 => signed (fld w 16 16) 16
  | 3 => fld w 16 16
  | _ => if w.getLsbD 31 then ((~~~w).toNat : Int) else ((w ^^^ 0x80000000).toNat : Int)

/-- Whether `a` comes no later than `b`; poisoned lanes come last (log entry 22). -/
def sortLe (key : Nat) (desc : Bool) (a b : Lane) : Bool :=
  if a.bad then b.bad
  else if b.bad then true
  else
    let x := sortKey key a.data
    let y := sortKey key b.data
    if x = y then (if desc then decide (b.data.toNat ≤ a.data.toNat) else decide (a.data.toNat ≤ b.data.toNat))
    else if desc then decide (y < x) else decide (x < y)

/-- One slice sorted in groups under a descriptor; what stands beside a lane moves with it, and the other lanes of a
group take `z` (DEDUCED, log entry 22). -/
def sortSlice {α : Type} (desc : DWord) (z : Lane × α) (v : List (Lane × α)) : List (Lane × α) :=
  let g := 2 ^ dfld desc 0 4
  let k := 2 ^ dfld desc 4 4
  ((pieces g v.length v).map (fun b =>
    padTo g z ((b.mergeSort (fun x y => sortLe (dfld desc 8 3) (desc.getLsbD 11) x.1 y.1)).take k))).flatten

/-- Whether a SORT descriptor holds permitted values (DEDUCED, log entry 29). -/
def sortOk (desc : DWord) : Bool :=
  let n := dfld desc 0 4
  decide (1 ≤ n ∧ n ≤ 8) && decide (dfld desc 4 4 ≤ n) && decide (dfld desc 8 3 ≤ 4) && decide (dfld desc 12 52 = 0)

/-- Passes per slice of a sort (R83). -/
def sortPasses (desc : DWord) : Nat :=
  let n := dfld desc 0 4
  let k := dfld desc 4 4
  if n = k then n * (n + 1) / 2 else min (k * (k + 1) / 2 + (n - k) * (k + 1) + 1) (n * (n + 1) / 2)

/-! ### Generated patterns (R116, R117) -/

/-- The input lane of output lane `u` of a group of 2^g lanes under SHUF (R116). -/
def shufSource (mode g k u : Nat) : Nat :=
  let n := 2 ^ g
  match mode with
  | 0 => (u + k) % n
  | 1 => u ^^^ (k % n)
  | 2 =>
    let r := k % g
    u / 2 ^ r + (u % 2 ^ r) * 2 ^ (g - r)
  | _ => n - 1 - u

/-- The SHUF pattern as a route of lanes. -/
def shufRoute (mode g k : Nat) : Route :=
  .lanes ((List.range 256).map (fun j =>
    some (j / 2 ^ g * 2 ^ g + shufSource mode g k (j % 2 ^ g)))) false false

/-- axp_source of the address generation (R117). -/
def axpSource (y : Nat) (e p : List Nat) : Nat :=
  let a := (p.foldl (fun (s : Nat × List (Nat × Nat)) m =>
    (s.1 / 2 ^ (e.getD m 0), (m, s.1 % 2 ^ (e.getD m 0)) :: s.2)) (y, [])).2
  (List.range 6).reverse.foldl (fun x m => x * 2 ^ (e.getD m 0) + SMap.get a 0 m) 0

/-- x for output y of TRN of an operand of R rows and C columns (R117): y = j·R + i, x = i·C + j. -/
def trnSource (r c y : Nat) : Nat := (y % r) * c + y / r

/-- The digits of `x` in base 2^b, `n` of them, in reverse order (R117). -/
def digitReverse (b : Nat) : Nat → Nat → Nat
  | 0, _ => 0
  | n + 1, x => (x % 2 ^ b) * 2 ^ (b * n) + digitReverse b n (x / 2 ^ b)

/-! ### Staging address generation (R121 to R124) -/

/-- ilv_sequence: the de-interleaved index read as each output. -/
def ilvSequence (nr nc nd f0 nf : Nat) (cperm : Option (List Nat)) : List Nat :=
  (List.range nc).flatMap (fun t =>
    let c := match cperm with | some l => l.getD t 0 | none => t
    (List.range nr).filterMap (fun r =>
      let q := r * nc + c
      if q < nd then none
      else
        let i := q - nd
        if f0 ≤ i ∧ i < f0 + nf then none else some i))

/-- A generated source: nothing (0), the fill value, or an element index. -/
inductive Src where
  | none | fill | elem (i : Nat)
  deriving DecidableEq, Repr

/-- ilv_source. -/
def ilvSource (seq : Array Nat) (o : Nat) : Src :=
  match seq[o]? with
  | some i => .elem i
  | none => .none

/-- dil_source. -/
def dilSource (seq : List Nat) (f0 nf o : Nat) : Src :=
  if f0 ≤ o ∧ o < f0 + nf then .fill
  else
    match seq.findIdx? (fun x => decide (x = o)) with
    | some i => .elem i
    | none => .none

/-- The elements remap_source selects, in order. -/
def remapSequence (nsym nsc plen phase pitch : Nat) (mask : Nat → Nat) (inv order : Bool) : List Nat :=
  let sel (t k : Nat) : Option Nat :=
    if (mask t).testBit ((k + phase) % plen) != inv then some (t * pitch + k) else none
  if order then (List.range nsc).flatMap (fun k => (List.range nsym).filterMap (fun t => sel t k))
  else (List.range nsym).flatMap (fun t => (List.range nsc).filterMap (fun k => sel t k))

/-- win_source. -/
def winSource (o h w nch kh kw sy sx py px ypitch oh ow : Nat) : Src :=
  let kc := kh * kw * nch
  let pos := o / kc
  let col := o % kc
  if oh * ow ≤ pos then .none
  else
    let ky := col / (kw * nch)
    let rest := col % (kw * nch)
    let y := pos / ow * sy + ky
    let x := pos % ow * sx + rest / nch
    if y < py ∨ py + h ≤ y ∨ x < px ∨ px + w ≤ x then .none
    else .elem ((y - py) * ypitch + (x - px) * nch + rest % nch)

end Sys2Proof.Machine
end

