-- ==== Sys2Proof/Machine/Image.lean ====
section
/-! DEFINITION. Reading a carillon image: its sections (R203, R204), the slot plan (R207), core maps (R206), the sections
that mirror banks (R209), sync objects (R210), power (R211) and safety (R212). -/

namespace Sys2Proof.Machine

/-- The section of a type and number. -/
def Image.sect (im : Image) (ty inst : Nat) : Option Section :=
  im.sects.find? (fun x => decide (x.ty = ty) && decide (x.inst = inst))

/-- The `n`-byte field at byte `o` of a section; 0 where the section is absent. -/
def Image.u (im : Image) (ty inst o n : Nat) : Nat :=
  match im.sect ty inst with
  | some x => leAt x.data o n
  | none => 0

/-- The header field of `n` bytes at byte `o` (R202). -/
def Image.hdr (im : Image) (o n : Nat) : Nat := leAt im.header o n

def tyGong : Nat := 0x0001
def tyCoreMap : Nat := 0x0002
def tySlotPlan : Nat := 0x0003
def tyQueueOvr : Nat := 0x0004
def tyPartitions : Nat := 0x0005
def tyQueues : Nat := 0x0006
def tyPeals : Nat := 0x0007
def tyChannels : Nat := 0x0008
def tyPorts : Nat := 0x0009
def tyRings : Nat := 0x000A
def tyOverflow : Nat := 0x000B
def tyPairs : Nat := 0x000C
def tySync : Nat := 0x000D
def tyHistory : Nat := 0x000E
def tyPower : Nat := 0x000F
def tySafety : Nat := 0x0010
def tyRouteDir : Nat := 0x0011
def tyRouteBody : Nat := 0x0100
def tyLists : Nat := 0x0101
def tySignature : Nat := 0x0200

/-- LC_REQ, NVAR (R202). -/
def Image.lcReq (im : Image) : Nat := im.hdr 17 1
def Image.nvar (im : Image) : Nat := im.hdr 18 1

/-! ### Core maps (R206) -/

def Image.mapNpc (im : Image) (v : Nat) : Nat := fieldOf (im.u tyCoreMap v 0 1) 0 5
def Image.mapShed (im : Image) (v : Nat) : Nat := fieldOf (im.u tyCoreMap v 1 1) 0 2
def Image.mapDefault (im : Image) (v : Nat) : Bool := decide (v = 0) && decide (im.u tyCoreMap v 2 1 % 2 = 1)
def Image.mapEntry (im : Image) (v n : Nat) : Nat := im.u tyCoreMap v (4 + 4 * n) 4
def Image.mapAbsent (im : Image) (v n : Nat) : Bool :=
  decide (im.lcReq ≤ n) || decide (v ≠ 0 ∧ fieldOf (im.mapEntry v n) 5 1 = 1)
def Image.mapPart (im : Image) (v n : Nat) : Bool := decide (fieldOf (im.mapEntry v n) 6 1 = 1)

/-- The physical core a map names for logical core `n`: none for any healthy core. -/
def Image.mapPc (im : Image) (v n : Nat) : Option Nat :=
  if im.mapDefault v then some n
  else
    let x := fieldOf (im.mapEntry v n) 0 5
    if x = 0x1F then none else some x

/-- R230: the physical cores of the logical cores under map `v`, from the healthy cores, lowest first. -/
def Image.applyMap (im : Image) (v : Nat) (healthy : List Nat) : List (Nat × Nat) :=
  let lcs := (List.range 16).filter (fun n => !im.mapAbsent v n)
  let named := lcs.foldl (fun (a : List (Nat × Nat)) n =>
    match im.mapPc v n with
    | some pc => if pc ∈ healthy ∧ ¬ a.any (fun e => decide (e.2 = pc)) then a ++ [(n, pc)] else a
    | none => a) []
  lcs.foldl (fun a n =>
    if a.any (fun e => decide (e.1 = n)) then a
    else
      match healthy.find? (fun pc => !a.any (fun e => decide (e.2 = pc))) with
      | some pc => a ++ [(n, pc)]
      | none => a) named

/-- The map R230 chooses from the healthy cores: the primary, else the variant with the largest NPC that fits. -/
def Image.chooseMap (im : Image) (healthy : Nat) : Option Nat :=
  if im.mapNpc 0 ≤ healthy then some 0
  else
    ((List.range im.nvar).map (fun i => i + 1)).foldl (fun (b : Option Nat) v =>
      if im.mapNpc v ≤ healthy then
        match b with
        | some w => if im.mapNpc w < im.mapNpc v then some v else b
        | none => some v
      else b) none

/-! ### Slot plan (R207) -/

def Image.slack (im : Image) (v t : Nat) : Int := Machine.signed (im.u tySlotPlan v (2 * t) 2) 16
def Image.planEntry (im : Image) (v t n e : Nat) : Nat := im.u tySlotPlan v (64 + 4 * (128 * t + 8 * n + e)) 4
def peStart (x : Nat) : Nat := fieldOf x 0 14
def peValid (x : Nat) : Bool := decide (fieldOf x 14 1 = 1)
def peCarry (x : Nat) : Bool := decide (fieldOf x 15 1 = 1)
def pePoint (x : Nat) : Nat := fieldOf x 16 5
def peShed (x : Nat) : Nat := fieldOf x 21 2

/-- The entries of logical core `n` that a release point of gong type `t` releases under map `v` (R22, R207, R232), as
(position, entry), in slot-plan order. -/
def Image.released (im : Image) (v t n point strokes : Nat) : List (Nat × Nat) :=
  ((List.range 8).map (fun e => (e, im.planEntry v t n e))).filter (fun x =>
    peValid x.2 && decide (pePoint x.2 = point) && decide (pePoint x.2 < strokes)
      && !(decide (1 ≤ peShed x.2) && decide (peShed x.2 ≤ im.mapShed v)))

/-! ### Mirrored banks (R209) -/

def Image.pairRec (im : Image) (n k : Nat) : Nat := im.u tyPairs 0 (16 * (16 * n + k)) 16
def prSpace (x : Nat) : Nat := fieldOf x 0 2
def prValid (x : Nat) : Bool := decide (fieldOf x 2 1 = 1)
def prHalf (x : Nat) : Nat := fieldOf x 32 32
def prBase (x : Nat) : Nat := fieldOf x 64 57

/-- Contexts declared as signallers of a sync object (R210), as a mask of bits 2n + c. -/
def Image.signallers (im : Image) (so : Nat) : Nat :=
  let k := im.u tySync 0 0 4
  match (List.range k).find? (fun i => decide (fieldOf (im.u tySync 0 (16 + 12 * i) 2) 0 15 = so)) with
  | some i => im.u tySync 0 (16 + 12 * i + 8) 4
  | none => 0

/-! ### Power and safety (R211, R212) -/

def Image.deepest (im : Image) (g : Nat) : Nat := im.u tyPower 0 (8 + 8 * g + 4) 1
def Image.autoWake (im : Image) (g : Nat) : Bool := decide (im.u tyPower 0 (8 + 8 * g + 5) 1 % 2 = 1)
def Image.rgnMhz (im : Image) (g : Nat) : Nat := im.u tyPower 0 (8 + 8 * g) 2
def Image.rgnMv (im : Image) (g : Nat) : Nat := im.u tyPower 0 (8 + 8 * g + 2) 2
def Image.safetyEntry (im : Image) (d : Nat) : Nat := im.u tySafety 0 (4 * d) 4

/-! ### The image in force -/

/-- The committed image, while ACTIVE_VALID is 1. -/
def State.image (s : State) : Option Image := if s.cfg.activeValid then s.cfg.active else none

/-- Entries released to logical core `n` at a point of gong type `t` under the map in force. -/
def State.released (s : State) (t n point : Nat) : List (Nat × Nat) :=
  match s.image with
  | some im => im.released s.cfg.map t n point s.gong.strokes
  | none => []

/-- The pair record of logical core `n`, 0 where none is defined. -/
def State.pairRec (s : State) (n k : Nat) : Nat :=
  match s.image with
  | some im => im.pairRec n k
  | none => 0

/-- The healthy physical cores (R230), ascending. -/
def State.healthy (s : State) : List Nat := (List.range s.par.npc).filter (fun pc => !s.fenced pc)

/-- The pattern entry of index `i` (GONG_PATTERN). -/
def State.patternType (s : State) (i : Nat) : Nat := fld (SMap.get s.gong.pattern 0 (i / 8)) (4 * (i % 8)) 4

end Sys2Proof.Machine
end

