-- ==== Sys2Proof/Machine/Stream.lean ====
section
/-! DEFINITION. Streams: buffers, generations and free lists (R166, R170), placeholders (R171), queues and credits (R174,
R176), peals (R178 to R181), releases (R126), and the faults of R198. -/

namespace Sys2Proof.Machine

/-! ### Buffers -/

/-- Number of the partition that holds pool buffer `b`. -/
def State.partOf (s : State) (b : Nat) : Option Nat :=
  (List.range 16).find? (fun p => decide ((s.part p).base ≤ b) && decide (b < (s.part p).base + (s.part p).size))

/-- The generation after `g` (R170) (DESIGN CHOICE, log entry 6). -/
def nextGen (g : Nat) : Nat := if g = 255 then 1 else g + 1

/-- First external index and number of overflow slots (OVF_CFG). -/
def State.ovfFirst (s : State) : Nat := fld s.st.ovfCfg 0 12
def State.ovfCount (s : State) : Nat := fld s.st.ovfCfg 12 13
def State.ovfChan (s : State) : Nat := fld s.st.ovfCfg 25 6

/-- Ring fields (R184). -/
def Ring.reg (r : Ring) (o : Nat) : Word := SMap.get r.regs 0 o
def Ring.desc (r : Ring) : Nat := (r.reg 0).toNat + 2 ^ 32 * fld (r.reg 4) 0 25
def Ring.bufs (r : Ring) : Nat := (r.reg 8).toNat + 2 ^ 32 * fld (r.reg 12) 0 25
def Ring.outbound (r : Ring) : Bool := bit (r.reg 0x18) 0
def Ring.first (r : Ring) : Nat := fld (r.reg 0x18) 1 12
def Ring.nslot (r : Ring) : Nat := fld (r.reg 0x18) 13 13
def Ring.queue (r : Ring) : Nat := fld (r.reg 0x1C) 0 10
def Ring.poll (r : Ring) : Nat := fld (r.reg 0x1C) 10 16
def Ring.chan (r : Ring) : Nat := fld (r.reg 0x1C) 26 6

/-- The external ring whose range external index `i` lies in (R171, R198). -/
def State.ringRange (s : State) (i : Nat) : Option Nat :=
  (List.range 16).find? (fun r =>
    (s.ring r).valid && decide ((s.ring r).first ≤ i) && decide (i < (s.ring r).first + (s.ring r).nslot))

/-- The inbound ring that external index `i` belongs to. -/
def State.ringOf (s : State) (i : Nat) : Option Nat :=
  match s.ringRange i with
  | some r => if (s.ring r).outbound then none else some r
  | none => none

/-- Whether an external index names an overflow slot. -/
def State.isOvf (s : State) (i : Nat) : Bool :=
  decide (s.ovfFirst ≤ i) && decide (i < s.ovfFirst + s.ovfCount)

/-- The virtual address of an external buffer: its ring slot's buffer or its overflow slot. -/
def State.extAddr (s : State) (i : Nat) : Nat :=
  match s.ringOf i with
  | some r => (s.ring r).bufs + 4096 * (i - (s.ring r).first)
  | none => s.st.ovfLo.toNat + 2 ^ 32 * s.st.ovfHi.toNat + 4096 * (i - s.ovfFirst)

/-- The channel whose policy and tags a read of an external buffer uses (R274, R278). -/
def State.extChan (s : State) (i : Nat) : Nat :=
  match s.ringOf i with
  | some r => (s.ring r).chan
  | none => s.ovfChan

/-- The code of a stale handle (R170, R198); none for a handle that is not stale. -/
def State.staleCode (s : State) (h : Word) : Option Nat :=
  if isPlaceholder h then none
  else
    let inRange := if hExternal h then (s.ringRange (hIndex h)).isSome || s.isOvf (hIndex h)
      else (s.partOf (hIndex h)).isSome
    if !inRange then some 0x0502
    else
      let b := s.buffer (hBuf h)
      if b.gen ≠ hGen h ∨ b.refs = 0 then some 0x0501 else none

/-- STREAM_FAULT (R199). -/
def State.streamFault (s : State) (code pc lc q : Nat) (h : Word) : State :=
  s.evt 0x0075 0 [(0, 16, code), (16, 5, pc), (21, 4, lc), (25, 10, q), (35, 32, h.toNat)]

/-- A stale handle: DET_GEN, the record and GEN_ERR_CNT (R170). -/
def State.staleFault (s : State) (code pc lc q : Nat) (h : Word) : State :=
  let s := { s with st := { s.st with genErr := satAdd s.st.genErr 1 max32 } }
  (s.streamFault code pc lc q h).report (mkReport 12 (.buffer (hBuf h)) (hBuf h))

/-- A ring slot released by MPX: the consumer index moves over the released run (R184). -/
def advanceRing : Nat → Ring → Ring
  | 0, r => r
  | n + 1, r =>
    let k := r.cons.toNat % (max 1 r.nslot)
    if r.cons ≠ r.prod ∧ SMap.get r.slots false k then
      advanceRing n { r with cons := r.cons + 1, slots := SMap.set r.slots false k false }
    else r

/-- Slot `k` of ring `r` released. -/
def State.ringRelease (s : State) (r k : Nat) : State :=
  let x := s.ring r
  let x := { x with slots := SMap.set x.slots false k true }
  s.setRing r (advanceRing x.nslot x)

/-- A buffer freed (R166, R170): its generation moves on, and a pool buffer joins its free list, a spilled one frees its
overflow slot, a ring's one its ring slot. -/
def State.freeBuffer (s : State) (b : Nat) : State :=
  let s := s.setBuffer b { gen := nextGen (s.buffer b).gen, refs := 0, side := 0 }
  if b < 4096 then
    match s.partOf b with
    | some p => if (s.part p).reserved then s else s.setPart p { s.part p with free := (s.part p).free ++ [b] }
    | none => s
  else if s.isOvf (b - 4096) then
    { s with st := { s.st with ovfUsed := s.st.ovfUsed.filter (fun x => decide (x ≠ b - 4096 - s.ovfFirst)) } }
  else
    match s.ringOf (b - 4096) with
    | some r => s.ringRelease r (b - 4096 - (s.ring r).first)
    | none => s

/-- One reference to buffer `b` given up; the last one frees it (R178). -/
def State.dropRef (s : State) (b : Nat) : State :=
  let x := s.buffer b
  if x.refs ≤ 1 then s.freeBuffer b else s.setBuffer b { x with refs := x.refs - 1 }

/-- Release of a handle (R126): a placeholder releases nothing, a stale handle is dropped with its fault. -/
def State.releaseHandle (s : State) (h : Word) (pc lc q : Nat) : State :=
  if isPlaceholder h then s
  else
    match s.staleCode h with
    | some c => s.staleFault c pc lc q h
    | none => s.dropRef (hBuf h)

/-- Take `n` buffers from the head of a partition's free list, each with one reference. -/
def State.takeBuffers (s : State) (p n : Nat) : State × List Nat :=
  let x := s.part p
  let bs := x.free.take n
  let s := s.setPart p { x with free := x.free.drop n }
  (bs.foldl (fun s b => s.setBuffer b { s.buffer b with refs := 1, side := 0 }) s, bs)

/-! ### Queues -/

/-- The endpoint code of a context (R209). -/
def ctxEndpoint (lc : Nat) (c : Ctx) : BitVec 16 := BitVec.ofNat 16 (0x1000 + lc % 16 + (match c with | .fg => 0 | .bg => 16))

/-- The context an endpoint names. -/
def endpointCtx (e : BitVec 16) : Option (Nat × Ctx) :=
  if fieldOf e.toNat 12 4 = 1 then some (fieldOf e.toNat 0 4, if fieldOf e.toNat 4 1 = 1 then .bg else .fg) else none

/-- Credits the producer may use freely: those not reserved (R176). -/
def Queue.spare (q : Queue) : Nat := q.credits - q.reserved

/-- The receiver slots of a peal (R178): those of RMASK, and of them the active ones. -/
def Peal.slots (g : Peal) : List Nat := (List.range 8).filter (fun k => g.rmask.getLsbD k)
def Peal.active (g : Peal) : List Nat := g.slots.filter (fun k => !g.shed.getLsbD k)
def Peal.recvQueue (g : Peal) (k : Nat) : Nat := g.rq.getD k 0

/-- Queues that a reservation for queue `q` holds a credit in: the queue, or every active receiver queue (R178). -/
def State.creditQueues (s : State) (q : Nat) : List Nat :=
  let x := s.queue q
  if x.entry then let g := s.peal x.peal; g.active.map (fun k => g.recvQueue k) else [q]

/-- Whether `n` credits can be reserved for queue `q` (DEDUCED, log entry 42). -/
def State.canReserve (s : State) (q n : Nat) : Bool :=
  (s.creditQueues q).all (fun k => decide (n ≤ (s.queue k).spare))

/-- Reserve `n` credits for queue `q` (R176). -/
def State.reserve (s : State) (q n : Nat) : State :=
  (s.creditQueues q).foldl (fun s k => s.setQueue k { s.queue k with reserved := (s.queue k).reserved + n }) s

/-- Return the credits that one handle holds reserved in the queues `ks` (R176). -/
def State.unreserve (s : State) (ks : List Nat) : State :=
  ks.foldl (fun s k => s.setQueue k { s.queue k with reserved := (s.queue k).reserved - 1 }) s

/-- A handle placed in one queue; the push takes a credit, a reserved one where `res`. -/
def State.enqueue (s : State) (q : Nat) (h : Word) (side : BitVec 128) (peal : Option Nat) (res : Bool) : State :=
  let x := s.queue q
  s.setQueue q { x with
    handles := x.handles ++ [{ handle := h, side := side, peal := peal, spilling := none }]
    credits := x.credits - 1
    reserved := if res then x.reserved - 1 else x.reserved }

/-- LAG and POLICY of a peal (PEAL_CFG). -/
def pealCfgOff (g : Nat) : Nat := 0x62008 + 0x20 * g
def State.pealLag (s : State) (g q : Nat) : Nat :=
  min (clampRange (fld (s.reg (pealCfgOff g)) 0 9) 1 256) (s.queue q).init
def State.pealSheds (s : State) (g : Nat) : Bool := bit (s.reg (pealCfgOff g)) 9

/-- Receivers of a peal that lag (R180). -/
def State.lagging (s : State) (g : Nat) : List Nat :=
  let x := s.peal g
  x.active.filter (fun k => decide (s.pealLag g (x.recvQueue k) ≤ (s.queue (x.recvQueue k)).handles.length))

/-- A receiver shed for the rest of the gong (R180). -/
def State.shedOne (s : State) (g k : Nat) : State :=
  let x := s.peal g
  let q := x.recvQueue k
  let s := s.setPeal g { x with shed := x.shed ||| BitVec.ofNat 8 (2 ^ k) }
  s.evt 0x0070 0 [(0, 6, g), (6, 3, k), (9, 10, q), (19, 9, (s.queue q).handles.length)]

/-- One more placeholder owed to a shed receiver (R181). -/
def State.owe (s : State) (q index : Nat) (h : Word) : State :=
  let x := s.queue q
  if 65535 ≤ x.owed.length then s.streamFault 0x050A 0x1F 0 q h
  else s.setQueue q { x with owed := x.owed ++ [index] }

/-- What stands in the way of a push to queue `q` of a handle for which the queues `held` hold a reserved credit (R174, R176,
R180): a stall cause, or nothing. -/
def State.pushWait (s : State) (q : Nat) (held : List Nat) : Option Nat :=
  let x := s.queue q
  if x.entry then
    let g := s.peal x.peal
    let lag := s.lagging x.peal
    if !lag.isEmpty && !s.pealSheds x.peal then some 12
    else
      let act := g.active.filter (fun k => decide (k ∉ lag))
      if act.all (fun k => held.contains (g.recvQueue k) || decide (0 < (s.queue (g.recvQueue k)).spare)) then none else some 1
  else if held.contains q then none
  else if 0 < x.spare then none else some 1

/-- A push that nothing stands in the way of (R174, R176, R178, R180, R181): the pusher's reference passes to the queue.  It uses
the credits that the queues `held` reserve for the handle; those of queues that get no handle go back. -/
def State.push (s : State) (q : Nat) (h : Word) (side : BitVec 128) (held : List Nat) : State :=
  let x := s.queue q
  if x.entry then
    let s := if s.pealSheds x.peal then (s.lagging x.peal).foldl (fun s k => s.shedOne x.peal k) s else s
    let g := s.peal x.peal
    let act := g.active
    let shed := g.slots.filter (fun k => g.shed.getLsbD k)
    let recv := act.map (fun k => g.recvQueue k)
    let s := recv.foldl (fun s rq => s.enqueue rq h side (some x.peal) (held.contains rq)) s
    let s := s.unreserve (held.filter (fun k => !recv.contains k))
    let s := shed.foldl (fun s k => s.owe (g.recvQueue k) (hIndex h) h) s
    if isPlaceholder h then s
    else
      let b := hBuf h
      if act.isEmpty then s.dropRef b
      else s.setBuffer b { s.buffer b with refs := (s.buffer b).refs + act.length - 1 }
  else s.enqueue q h side none (held.contains q)

/-- What a pop finds. -/
inductive Popped where
  | handle (h : Word) (side : BitVec 128)
  | wait (cause : Nat)
  deriving DecidableEq, Repr

/-- Whether the producer of a queue is a context of a logical core knelled since the last gong (R336). -/
def State.producerKnelled (s : State) (q : Nat) : Bool :=
  match endpointCtx (s.queue q).producer with
  | some (lc, _) => (s.lc lc).knelled
  | none => false

/-- A pop (R126, R171, R174, R181, R192, R336): queued handles first, then owed placeholders; `ctx` tells pops by contexts,
which alone get the placeholders of a knell. -/
def State.pop (s : State) (q : Nat) (ctx : Bool) : State × Popped :=
  let x := s.queue q
  match x.handles with
  | e :: rest =>
    if e.spilling.isSome then (s, .wait 13)
    else
      let s := s.setQueue q { x with handles := rest, credits := x.credits + 1 }
      let side := if isPlaceholder e.handle then s.placeholderSide
        else if (s.staleCode e.handle).isSome then e.side else (s.buffer (hBuf e.handle)).side
      (s, .handle e.handle side)
  | [] =>
    match x.owed with
    | i :: rest =>
      let s := s.setQueue q { x with owed := rest, delivered := x.delivered + 1 }
      (s, .handle (placeholderHandle i) s.placeholderSide)
    | [] =>
      if ctx && s.producerKnelled q then
        -- no buffer's place is taken: the spec states no INDEX here (log entry 7)
        let (i, s) := s.fresh
        (s, .handle (placeholderHandle (i % 4096)) s.placeholderSide)
      else (s, .wait 0)

/-! ### Sync objects (R135) -/

/-- A sync object changed: its count, last updater and, with LOG set, its record. -/
def State.setCount (s : State) (n : Nat) (v : Word) (pc inc : Nat) (isSet : Bool) : State :=
  let x := s.sync n
  let s := s.setSync n { x with count := v, lastPc := pc, lastInc := inc }
  if x.log then
    s.evt 0x0052 0 [(0, 15, n), (15, 32, v.toNat), (47, 5, pc), (52, 4, inc), (56, 1, b2n isSet)]
  else s

/-- Ghost traffic of a core (R134, R337): dropped, counted within the drain window of its knell, and reported as DET_GHOST. -/
def State.ghost (s : State) (pc : Nat) : State :=
  let open_ := s.sm.drains.any (fun d => decide (d.pc = pc))
  let s := { s with sm := { s.sm with drains := s.sm.drains.map (fun (d : Drain) =>
    if d.pc = pc then { d with ghosts := satAdd d.ghosts 1 max16 } else d) } }
  s.report { mkReport 14 (.core pc) pc with code := if open_ then 0x030B else 0x030C }

/-- Whether what a core carries is stale (R337): its incarnation differs from the SM's table. -/
def State.stale (s : State) (pc : Nat) : Bool := decide ((s.core pc).inc ≠ s.incOf pc)

/-- SIG and CSIG from a core (R126, R134): a stale incarnation is ghost traffic. -/
def State.signal (s : State) (pc n : Nat) (isSet : Bool) (v : Word) : State :=
  let x := s.sync n
  if s.stale pc then s.ghost pc
  else s.setCount n (if isSet then v else x.count + v) pc (s.core pc).inc isSet

/-- COND of WAIT and HOLD (R126). -/
def condHolds (cond : Nat) (count value : Word) : Bool :=
  if cond = 0 then decide (0 ≤ signed (count - value).toNat 32) else decide (count = value)

end Sys2Proof.Machine
end

