-- ==== Sys2Proof/Machine/Sin.lean ====
section
/-! DEFINITION. SIN ports (R182, R183): what the receive FIFO holds is drained frame by frame into pool buffers. -/

namespace Sys2Proof.Machine

/-- PORT_CFG.PART, and the queue of a selector where the port's list defines it. -/
def SPort.part (p : SPort) : Nat := fld p.cfg 0 4
def SPort.selQueue (p : SPort) (sel : Nat) : Option Nat :=
  if sel < 16 ∧ bit p.cfg (4 + sel) then some (p.qlist.getD sel 0) else none

/-- What a SIN header says: its selector and LEN, or nothing where a reserved bit is set (R182) (DEDUCED, log entry 57). -/
def sinHeader (h : List Byte) : Option (Nat × Nat) :=
  let side := leAt h 0 16
  if fieldOf side 78 2 = 0 ∧ fieldOf side 105 7 = 0 ∧ leAt h 17 1 = 0 ∧ fieldOf (leAt h 18 2) 12 4 = 0
      ∧ leNat (h.drop 20) = 0 then
    some (leAt h 16 1, fieldOf (leAt h 18 2) 0 12 + 1)
  else none

/-- The SIDE word of a received frame (R172, R182). -/
def State.sinSide (s : State) (side : BitVec 128) : BitVec 128 :=
  mkSide s.stamp (sideScale side) (sideKinds side) (sidePmap side) 0x1F 0 s.gsn16

/-- A frame's last beat is in: its buffer has its SIDE word (R172, R182). -/
def State.sinFilled (s : State) (k : Nat) (r : SinRecv) : State :=
  (s.setBuffer r.buf { s.buffer r.buf with side := s.sinSide r.side }).setSport k { s.sport k with recv := some r }

/-- The handle of a frame received is pushed (R182), unless the push must wait (R180). -/
def State.sinPush (s : State) (k : Nat) (r : SinRecv) : State :=
  if (s.pushWait r.queue r.held).isSome then s else
  let side := (s.buffer r.buf).side
  let ks := sideKinds side
  let h := hWithKinds (mkHandle r.buf (s.buffer r.buf).gen (ceilDiv r.len 16 % 256) 0 false false) ks
  let s := s.setSport k { s.sport k with recv := none, frames := satAdd (s.sport k).frames 1 max32 }
  s.push r.queue h side r.held

/-- A frame given up: its buffer returns to its free list and its queue credit returns (R182). -/
def State.sinGiveUp (s : State) (k : Nat) (r : SinRecv) (last : Bool) : State :=
  let h := mkHandle r.buf (s.buffer r.buf).gen 0 0 false false
  let s := s.setSport k { s.sport k with recv := none, drain := !last }
  ((s.unreserve r.held).dropRef r.buf).streamFault 0x0504 0x1F 0 r.queue h

/-- Whether every data beat of a frame has arrived, so that only its push is left. -/
def SinRecv.full (r : SinRecv) : Bool := decide (r.got = ceilDiv r.len 128)

/-- The push of a whole frame that had to wait, tried again (R180, R182). -/
def State.sinAgain (s : State) (k : Nat) : State :=
  match (s.sport k).recv with
  | some r => if r.full then s.sinPush k r else s
  | none => s

/-- One beat of the FIFO of SIN port `k` drained, where it can be; each drained beat returns its credit (R183) (DEDUCED, log entry 57). -/
def State.sinBeat (s : State) (k : Nat) : State :=
  let p := s.sport k
  match p.fifo with
  | [] => s
  | (b, last) :: rest =>
    let take (s : State) : State := s.setSport k { s.sport k with fifo := rest, credits := (s.sport k).credits + 1 }
    if p.drain then
      let s := take s
      s.setSport k { s.sport k with drain := !last }
    else
      match p.recv with
      | some r =>
        if r.full then s else
        let s := take s
        let got := r.got + 1
        let s := { s with st := { s.st with pool := s.st.pool.write (4096 * r.buf + 128 * r.got) (b.take (r.len - 128 * r.got)) } }
        let r := { r with got := got }
        if decide (got = ceilDiv r.len 128) = last then
          if last then (s.sinFilled k r).sinPush k r else s.setSport k { s.sport k with recv := some r }
        else s.sinGiveUp k r last
      | none =>
        let hd := sinHeader b
        let q := match hd with | some (sel, _) => p.selQueue sel | none => none
        match hd, q with
        | some (_, len), some q =>
          if last then (take s).streamFault 0x0504 0x1F 0 q 0
          else if s.canReserve q 1 && !(s.part p.part).free.isEmpty then
            let held := s.creditQueues q
            let s := take (s.reserve q 1)
            let (s, bs) := s.takeBuffers p.part 1
            s.setSport k { s.sport k with
              recv := bs.head?.map (fun x => { buf := x, queue := q, held := held, len := len, side := BitVec.ofNat 128 (leAt b 0 16), got := 0 }) }
          else s
        | _, _ =>
          let s := take s
          let s := s.setSport k { s.sport k with drain := !last }
          s.streamFault 0x0504 0x1F 0 (p.qlist.getD (leAt b 16 1) 0) 0

/-- The FIFO of a SIN port drained as far as it can be. -/
def State.sinDrain (k : Nat) : Nat → State → State
  | 0, s => s
  | n + 1, s => State.sinDrain k n (s.sinBeat k)

/-- Every SIN port drains while the spine runs (DEDUCED, log entry 61). -/
def State.sinPump (s : State) : State :=
  if (s.region 6).state ≠ .run then s
  else
    ((s.st.ports.filter (fun e => !e.2.fifo.isEmpty || e.2.recv.isSome)).map (fun e => (e.1, e.2.fifo.length))).foldl
      (fun s e => State.sinDrain e.1 e.2 (s.sinAgain e.1)) s

end Sys2Proof.Machine
end

