-- ==== Sys2Proof/Machine/Power.lean ====
section
/-! DEFINITION. The gong grid (R251, R253), region votes (R301), known events (R302), the choice of a state (R303), falling
and waking (R304 to R309), the voltage floor (R311) and the charge of a mallet (R317). -/

namespace Sys2Proof.Machine

/-! ### The gong grid -/

/-- ALIGN_NS (R251). -/
def State.alignNs (s : State) : Int := clampRange (fld (s.reg 0x10080) 0 24) 0 9999999

/-- The slot count of the present time (R251). -/
def State.slotCount (s : State) : Int := (s.nowNs - s.alignNs) / (s.gong.period : Int)

/-- The boundary of slot n in ns (R251). -/
def State.boundary (s : State) (n : Int) : Int := n * (s.gong.period : Int) + s.alignNs

/-- Whether gongs fire now (R14); none fires after a failed start or in MINIMAL (R365, R368). -/
def State.gongsFire (s : State) : Bool :=
  s.gong.en && (s.gong.mode || !s.tu.invalid) && (match s.boot.state with | .failed | .minimal => false | _ => true)

/-- Presented time in ns from now to stroke `k` of the `i`-th gong to come; gong 0 is the next one. -/
def State.untilPoint (s : State) (i k : Nat) : Int :=
  let off : Int := (k * s.gong.period / (max 1 s.gong.strokes) : Nat)
  let g : Int :=
    if s.gong.mode then (((s.gong.freeNext + i * s.gong.period * 2 ^ 64 : Nat) : Int) - s.gong.freeAcc) / 2 ^ 64
    else s.boundary (s.gong.nextN + i) - s.nowNs
  g + off

/-- The pattern index of the `i`-th gong to come (R20). -/
def State.indexOf (s : State) (i : Nat) : Nat :=
  let n : Int := if s.gong.mode then (s.gong.freeN + i : Nat) else s.gong.nextN + i
  ((n + s.gong.phase) % ((s.gong.lenM1 + 1 : Nat) : Int)).toNat

/-- The logical cores that region `g` serves under the map in force: those of its cores, or all for the others. -/
def State.regionLcs (s : State) (g : Nat) : List Nat :=
  (List.range 16).filter (fun n =>
    match (s.lc n).pc with
    | some pc => decide (6 ≤ g) || decide (regionOfCore pc = g)
    | none => false)

/-- Whether a release point of a gong type releases a list to one of these logical cores. -/
def State.releasesAt (s : State) (lcs : List Nat) (t k : Nat) : Bool := lcs.any (fun n => !(s.released t n k).isEmpty)

/-- ns of presented time as ns at RATE_NOM, through reference ticks of the LTC (R302). -/
def State.atNom (s : State) (ns : Int) : Int :=
  if ns ≤ 0 then ns
  else
    let ticks := ceilDiv (ns.toNat * 2 ^ 48) (max 1 s.tu.rate)
    ((ticks * s.rateNom / 2 ^ 48 : Nat) : Int)

/-- The smaller of two times, where one may be absent. -/
def minOpt (a b : Option Int) : Option Int :=
  match a, b with
  | some x, some y => some (min x y)
  | some x, none => some x
  | none, y => y

/-- Times from now of the release points that count for a region (R302), the earliest first found in each kind. -/
def State.nextRelease (s : State) (g : Nat) : Option Int :=
  if !s.gongsFire then none
  else
    let lcs := s.regionLcs g
    let every := decide (g = 7) || decide (s.cfg.state = .armed) || (decide (g < 6) && s.gong.arm)
    let pts := (List.range (s.gong.strokes - 1)).map (fun k => k + 1)
    let strokes : Option Int :=
      if g = 6 ∨ !s.gong.running then none
      else ((pts.filter (fun k => decide (s.gong.stroke < k) && s.releasesAt lcs s.gong.type k)).map (fun k =>
        (s.gong.g : Int) + ((k * s.gong.period / (max 1 s.gong.strokes) : Nat) : Int) - s.nowNs)).foldl
          (fun a x => minOpt a (some x)) none
    let later := (List.range (s.gong.lenM1 + 2)).foldl (fun (a : Option Int) i =>
      let t := s.patternType (s.indexOf i)
      let a := if every || s.releasesAt lcs t 0 then minOpt a (some (s.untilPoint i 0)) else a
      match (if g = 6 then [] else pts).find? (fun k => s.releasesAt lcs t k) with
      | some k => minOpt a (some (s.untilPoint i k))
      | none => a) none
    (minOpt strokes later).map (fun x => s.atNom x)

/-- The next poll of a valid inbound ring, in ns from now (R184, R302). -/
def State.nextPoll (s : State) : Option Int :=
  (List.range 16).foldl (fun a r =>
    let x := s.ring r
    if x.valid && !x.outbound then
      minOpt a (some (s.atNom (x.lastPoll + (100 * max 2 x.poll : Nat) - s.nowNs)))
    else a) none

/-- The next watermark write due, in ns from now (R261, R302). -/
def State.nextWatermark (s : State) : Option Int :=
  let c := s.reg 0x70248
  if !bit c 0 then none
  else
    (List.range 8).foldl (fun a r =>
      if bit (s.reg (ringBase r + 8)) 31 then
        let wait : Int := 16000 * (clampLo (fld c 8 8) 1 : Nat)
        minOpt a (some (((s.evRing r).wmTime.toInt + wait - s.stampTime.toInt) / 16))
      else a) none

/-- PWR_WAKE_AT, where it counts for a region, in ns from now (R302). -/
def State.nextWakeAt (s : State) (g : Nat) : Option Int :=
  let c := s.reg 0x20010
  if bit c 0 && c.getLsbD (8 + g) then
    let at_ : Int := ((s.reg 0x20008).toNat + 2 ^ 32 * (s.reg 0x2000C).toNat : Nat)
    some ((at_ - s.tu.ltc) * s.rateNom / 2 ^ 48)
  else none

/-- The next known event of a region, in ns from now (R302). -/
def State.nextEvent (s : State) (g : Nat) : Option Int :=
  minOpt (s.nextRelease g)
    (minOpt (s.nextWakeAt g)
      (minOpt (if g = 6 then s.nextPoll else none) (if g = 7 then s.nextWatermark else none)))

/-! ### Votes (R301) -/

/-- Whether a core holds its region awake. -/
def Core.busy (k : Core) : Bool :=
  k.fg.list.isSome || k.bg.list.isSome || !k.flight.isEmpty || !k.solveQ.isEmpty || k.slots.any (fun e => e.2.fetch)

/-- Whether a core region is in RUN or IDLE, or on its way to RUN. -/
def State.coreRegionUp (s : State) : Bool :=
  (List.range s.par.ncg).any (fun g =>
    match (s.region g).state with
    | .run | .idle | .waking => true
    | _ => false)

/-- Whether the configuration unit is loading. -/
def State.cfgLoading (s : State) : Bool :=
  match s.cfg.state with
  | .loading | .verify | .writing => true
  | _ => s.cfg.resume

/-- Whether a request holds tags of a memory port. -/
def PReq.onPort (r : PReq) : Bool := match r.st with | .issued _ => true | _ => false

/-- Whether an endpoint drains to outside: a SOUT port or a ring (R209). -/
def drainsOut (e : BitVec 16) : Bool := let k := fieldOf e.toNat 12 4; decide (k = 3 ∨ k = 4)

/-- A request of a ring: of a poll or of a copy (R184). -/
def Requester.ofRing : Requester → Bool
  | .ringIdx _ | .ringDesc _ | .ringTell _ | .ringRead _ | .ringOut _ | .ringProd _ => true
  | _ => false

/-- Whether a ring copy or a ring poll is in progress. -/
def State.ringActive (s : State) : Bool := s.st.rings.any (fun e => e.2.out.isSome) || s.mp.reqs.any (fun q => q.who.ofRing)

/-- Hardware vote bits [31:0] of a region (R301).  The event plane holds records while its region runs; those made while it does
not wait at their sources (R258) and vote for nothing (DEDUCED, log entry 85). -/
def State.hwVotes (s : State) (g : Nat) : Nat :=
  let bitAt (i : Nat) (b : Bool) : Nat := b2n b * 2 ^ i
  let r := s.region g
  if g < 6 then
    ((List.range 3).map (fun k =>
      bitAt k (s.hasCore (3 * g + k) && ((s.core (3 * g + k)).busy || decide (s.sm.diagBusy ∧ s.sm.diagPc = 3 * g + k))))).foldl
        (· + ·) 0 + bitAt 3 r.access + bitAt 4 r.applying
  else if g = 6 then
    bitAt 0 (s.mp.reqs.any (fun q => q.onPort && (match q.who with | .chan _ _ _ => true | _ => false)))
      + bitAt 1 (s.st.ports.any (fun e => !e.2.fifo.isEmpty || e.2.recv.isSome))
      + bitAt 2 (s.st.ports.any (fun e => e.2.out.isSome))
      + bitAt 3 (s.mp.reqs.any (fun q => match q.who with | .spill _ _ _ => true | _ => false))
      + bitAt 4 s.ringActive + bitAt 5 (s.mp.reqs.any (fun q => q.onPort)) + bitAt 6 s.cfgLoading + bitAt 7 r.access
      + bitAt 8 (s.st.queues.any (fun e => !e.2.handles.isEmpty && drainsOut e.2.consumer))
      + bitAt 9 s.coreRegionUp
  else if g = 7 then
    bitAt 0 s.cfgLoading + bitAt 1 r.access + bitAt 2 (decide (r.state = .run) && !s.ev.buf.isEmpty) + bitAt 6 s.coreRegionUp
      + bitAt 7 s.pwr.wakeHold
  else 0

/-- The 64 vote bits of a region. -/
def State.votes (s : State) (g : Nat) : Nat :=
  s.hwVotes g + (s.region g).limny.toNat * 2 ^ 32 + (s.region g).driver.toNat * 2 ^ 48

/-! ### States -/

/-- The code of a state in RGN_STATE (R298). -/
def RgnState.code : RgnState → Nat
  | .run => 0 | .idle => 1 | .sleep => 2 | .deep => 3 | .off => 4 | .waking => 5 | .failed => 6

/-- Entry cost and exit latency in ns (R303). -/
def entryNs : RgnState → Nat
  | .idle => 10 | .sleep => 1000 | .deep => 20000 | .off => 10000 | _ => 0
def exitNs : RgnState → Nat
  | .idle => 20 | .sleep => 2000 | .deep => 40000 | .off => 3000000 | _ => 0

/-- Reference ticks of a time in ns at RATE_NOM, rounded up. -/
def State.ticksOf (s : State) (ns : Nat) : Nat := ceilDiv (ns * 2 ^ 48) (max 1 s.rateNom)

/-- The deepest permitted state of a region (R303): RUN while no image is active (DEDUCED, log entry 84). -/
def State.deepest (s : State) (g : Nat) : Nat :=
  match s.image with
  | some im => im.deepest g
  | none => 0

/-- The PWC's choice (R303). -/
def State.choose (s : State) (g : Nat) : RgnState :=
  if s.votes g ≠ 0 then .run
  else
    let room := (s.nextEvent g).map (fun e => e - 1000 * (fld (s.reg 0x20004) 8 8 : Int))
    [RgnState.idle, .sleep, .deep, .off].foldl (fun b st =>
      if s.deepest g < st.code then b
      else
        match room with
        | none => st
        | some r => if ((entryNs st + exitNs st : Nat) : Int) ≤ r then st else b) .run

/-- A region starts to fall into the state chosen (R303). -/
def State.fall (s : State) (g : Nat) : State :=
  let r := s.region g
  if r.state = .run ∧ r.entering = none then
    match s.choose g with
    | .run => s
    | st => s.setRegion g { r with entering := some st, since := s.tu.ltc, from_ := .run }
  else s

/-- PWR_STATE (R324). -/
def State.pwrState (s : State) (code g fromS toS dur : Nat) : State :=
  s.evt 0x00B0 0 [(0, 16, code), (16, 4, g), (20, 3, fromS), (23, 3, toS), (26, 32, dur)]

/-- The first step of the wake sequence from a state (R309). -/
def firstStep : RgnState → Nat
  | .idle => 4 | .sleep => 2 | _ => 1

/-- The step after step `k` of a wake from a state; 5 when the wake is complete (R309). -/
def nextStep (st : RgnState) (k : Nat) : Nat :=
  match st with
  | .idle => 5
  | .sleep => if k = 2 then 4 else 5
  | _ => k + 1

/-- Reference ticks of an entry into a state. -/
def State.entryTicks (s : State) (st : RgnState) : Nat := s.ticksOf (entryNs st)

/-- Whether an entry stands in its last 6 reference ticks (R307). -/
def State.inWindow (s : State) (g : Nat) : Bool :=
  let r := s.region g
  match r.entering with
  | some .sleep | some .deep | some .off =>
    decide (s.entryTicks (r.entering.getD .run) ≤ s.tu.ltc - r.since + 6)
  | _ => false

/-- One region wakes (R304, R307, R309); in MINIMAL the PWC holds the core regions in OFF (R368): an entry is abandoned, a reached state starts its wake sequence; in the entry
window a level event waits for the state.  Answers whether the region is woken. -/
def State.wakeRegion (s : State) (g src : Nat) (level : Bool) : State × Bool :=
  let r := s.region g
  match r.entering with
  | some st =>
    if s.inWindow g then
      (if level then s.setRegion g { r with pendWake := r.pendWake ||| 2 ^ (src - 1) } else s, false)
    else
      let s := s.setRegion g { r with entering := none, state := .run }
      (s.pwrState 0x0704 g 0 st.code (s.tu.ltc - r.since), true)
  | none =>
    match r.state with
    | .run | .waking | .failed => (s, false)
    | st =>
      if s.boot.state = .minimal ∧ g < 6 then (s, false)
      else (s.setRegion g { r with state := .waking, from_ := st, step := firstStep st, tries := 0,
                                     since := s.tu.ltc, pendWake := 0 }, true)

/-- Reference ticks that have passed since AON runs on SLOWCLK (R262). -/
def TimeUnit.slowRef (t : TimeUnit) : Nat := (t.slowTicks * 9375 + t.slowRem) / 8

/-- The LTC as it stands, projected while AON runs on SLOWCLK (R262, R378). -/
def State.ltcNow (s : State) : Nat :=
  if s.tu.onSlow then s.tu.ltc + s.tu.slowRef else s.tu.ltc

/-- Reference ticks before an event at which a region's wake starts (R303, R378): guard, exit latency, and on SLOWCLK the
start of CLK_REF. -/
def State.wakeLead (s : State) (st : RgnState) : Nat :=
  s.ticksOf (1000 * fld (s.reg 0x20004) 8 8 + exitNs st + (if s.tu.onSlow then 1000 * s.par.refStartUs + 30518 else 0))

/-- The LTC of the next known event of a region: what the TU writes to its AON compare (R302). -/
def State.compareFor (s : State) (g : Nat) : Option Nat :=
  (s.nextEvent g).map (fun ns => s.tu.ltc + ceilDiv (ns.toNat * 2 ^ 48) (max 1 s.rateNom))

/-- Whether the TU runs: its region is in RUN or IDLE. -/
def State.tuRuns (s : State) : Bool := decide ((s.region 7).state = .run ∨ (s.region 7).state = .idle)

/-- Whether PWR_WAKE_AT is due for a region it wakes (R303, R305, source 3). -/
def State.programmedDue (s : State) (g : Nat) : Bool :=
  let at_ := (s.reg 0x20008).toNat + 2 ^ 32 * (s.reg 0x2000C).toNat
  bit (s.reg 0x20010) 0 && (s.reg 0x20010).getLsbD (8 + g) && decide (at_ ≤ s.ltcNow + s.wakeLead (s.region g).low)

/-- Whether the TU's compare of a region is due (R302, R303, source 4). -/
def State.compareDue (s : State) (g : Nat) : Bool :=
  match (match (s.region g).wakeAt with
    | some t => some t
    | none => if s.tuRuns then s.compareFor g else none) with
  | some t => decide (t ≤ s.ltcNow + s.wakeLead (s.region g).low)
  | none => false

/-- The AON compares that are due for some regions, as source bits 2 and 3: they act in the tick of another wake (R308). -/
def State.compareSources (s : State) (gs : List Nat) : Nat :=
  gs.foldl (fun a g => a ||| (4 * b2n (s.programmedDue g)) ||| (8 * b2n (s.compareDue g))) 0

/-- LAST_WAKE and the PWR_WAKE record of a wake (R308). -/
def State.recordWake (s : State) (srcs : Nat) (rgns : List Nat) : State :=
  if rgns.isEmpty then s
  else
    let low := ((List.range 8).find? (fun i => srcs.testBit i)).getD 0 + 1
    let m := rgns.foldl (fun a g => a ||| 2 ^ g) 0
    let s := { s with pwr := { s.pwr with lastSrc := low, lastRgn := BitVec.ofNat 9 m, lastLtc := s.tu.ltc } }
    s.evt 0x00B1 0 [(0, 8, srcs), (8, 9, m), (17, 64, s.tu.ltc)]

/-- The regions of a list woken by one source; an AON compare that is due for a woken region in the same tick acts with it
(R305, R308). -/
def State.wake (s : State) (src : Nat) (level : Bool) (gs : List Nat) : State :=
  let r := gs.foldl (fun (a : State × List Nat) g =>
    if a.1.hasRegion g then
      let (s, b) := a.1.wakeRegion g src level
      (s, if b then a.2 ++ [g] else a.2)
    else a) (s, [])
  r.1.recordWake (2 ^ (src - 1) ||| s.compareSources r.2) r.2

/-- Regions with a vote that are not in RUN wake (R301, source 7): core regions first, then the regions they need. -/
def State.voteWakes (s : State) : State :=
  let due (s : State) (gs : List Nat) : List Nat :=
    gs.filter (fun g => s.hasRegion g && decide (s.votes g ≠ 0) &&
      ((s.region g).entering.isSome || !(decide ((s.region g).state = .run) || decide ((s.region g).state = .waking)
        || decide ((s.region g).state = .failed))))
  let s := s.wake 7 true (due s (List.range 6))
  s.wake 7 true (due s [6, 7])

/-- After an effect, SIN ports drain what they can (R183), regions whose last vote has cleared choose a state and voted regions wake (R301, R303).  No effect touches the
integration parameters (R374) or the queue of waiting commands. -/
def settle (s0 s : State) : State :=
  let s := s.sinPump.voteWakes
  let s := ((List.range 8).filter (fun g => s.hasRegion g)).foldl (fun s g =>
    if s0.votes g ≠ 0 ∧ s.votes g = 0 then s.fall g else s) s
  { s with par := s0.par, pending := s0.pending }

/-! ### Clocks, voltages and charges -/

/-- The voltage floor for a clock (R311), rounded up to 5 mV. -/
def floorMv (mhz : Nat) : Nat :=
  let lin (x0 y0 x1 y1 : Nat) : Nat := 5 * ceilDiv (y0 * (x1 - x0) + (y1 - y0) * (mhz - x0)) (5 * (x1 - x0))
  if mhz ≤ 400 then 450
  else if mhz ≤ 1000 then lin 400 450 1000 520
  else if mhz ≤ 1800 then lin 1000 520 1800 620
  else lin 1800 620 2200 720

/-- The charge of a mallet class at a clock (R317). -/
def chargeOf (cls mhz : Nat) : Nat := ceilDiv (5 * cls * mhz) 1800

/-- The budget in force (R318). -/
def State.budget (s : State) : Nat :=
  if s.pwr.throttled then min s.pwr.budget (fld (s.reg 0x20308) 0 16) else s.pwr.budget

/-- A mallet released (R318). -/
def State.releaseMallet (s : State) (m : Option Mallet) : State :=
  match m with
  | some x => { s with pwr := { s.pwr with admitted := s.pwr.admitted - x.charge } }
  | none => s

/-- Requests of a context leave the queues (R319); withdrawn ones count. -/
def State.withdraw (s : State) (f : AcReq → Bool) : State :=
  let n := ((s.pwr.fgQ ++ s.pwr.bgQ).filter f).length
  { s with pwr := { s.pwr with
      fgQ := s.pwr.fgQ.filter (fun r => !f r), bgQ := s.pwr.bgQ.filter (fun r => !f r)
      withdraws := satAdd s.pwr.withdraws n max32 } }

end Sys2Proof.Machine
end

