-- ==== Sys2Proof/Machine/Port.lean ====
section
/-! DEFINITION. Memory ports: tags (R269, R274), translation (R275 to R278), error responses (R271, R281), quiesce (R282),
the row cache (R55, R58), prefetch windows (R185) and where a response goes. -/

namespace Sys2Proof.Machine

/-! ### Tags -/

/-- Runs of tags held on a port: (first, beats). -/
def State.heldTags (s : State) (port : Nat) (write : Bool) : List (Nat × Nat) :=
  (s.mp.reqs.filterMap (fun r =>
    match r.st with
    | .issued t => if r.port = port ∧ r.write = write then some (t, r.beats) else none
    | _ => none))
  ++ ((s.mport port).late.filterMap (fun l => if l.2.2 = write then some (l.1, l.2.1) else none))

/-- Tags held on a port. -/
def State.tagCount (s : State) (port : Nat) (write : Bool) : Nat := ((s.heldTags port write).map (fun x => x.2)).foldl (· + ·) 0

/-- Tags of a port in one direction (R269). -/
def tagLimit (write : Bool) : Nat := if write then 1024 else 2048

/-- The lowest run of `n` free tags (DESIGN CHOICE, log entry 8). -/
def freeTag (held : List (Nat × Nat)) (limit n : Nat) : Option Nat :=
  ((0 :: held.map (fun x => x.1 + x.2)).mergeSort (fun a b => decide (a ≤ b))).find? (fun t =>
    decide (t + n ≤ limit) && held.all (fun x => decide (t + n ≤ x.1) || decide (x.1 + x.2 ≤ t)))

/-- CH_CFG fields (CH_CFG, 07); FPOL is the RW field of its register. -/
def chOff (c : Nat) : Nat := 0x63000 + 0x40 * c
def Channel.port (c : Channel) : Nat := fld c.cfg 0 3
def Channel.lc (c : Channel) : Nat := fld c.cfg 3 4
def Channel.bg (c : Channel) : Bool := bit c.cfg 7
def Channel.part (c : Channel) : Nat := fld c.cfg 12 4
def Channel.window (c : Channel) : Nat := max 1 (fld c.cfg 16 8)
def Channel.tags (c : Channel) : Nat := 16 * fld c.cfg 24 8
def State.poisons (s : State) (c : Nat) : Bool := bit (s.reg (chOff c)) 8
def State.flimit (s : State) (c : Nat) : Nat := fld (s.reg (chOff c + 4)) 0 16

/-- Read tags that a channel's requests hold (R274) (DESIGN CHOICE, log entry 35). -/
def State.chanTags (s : State) (c : Nat) : Nat :=
  ((s.mp.reqs.filter (fun r => r.onPort && !r.write && decide (r.chan = some c))).map (fun r => r.beats)).foldl (· + ·) 0

/-- Whether a requester's tags come from a fixed reservation: the configuration unit's reads and the event plane's writes (R274). -/
def Requester.fixed : Requester → Bool
  | .cfg _ | .boot | .evRing _ | .evHead _ => true
  | _ => false

/-- Tags that requests of fixed reservations hold on a port in one direction. -/
def State.fixedTags (s : State) (port : Nat) (write : Bool) : Nat :=
  ((s.mp.reqs.filter (fun q => q.onPort && q.who.fixed && decide (q.port = port ∧ q.write = write))).map (fun q => q.beats)).foldl
    (· + ·) 0

/-- Tags reserved on a port in one direction (R274). -/
def fixedShare (port : Nat) (write : Bool) : Nat :=
  if write then (if port = 7 then 64 else 0) else if port = 0 then 512 else 0

/-- Whether a request may take tags now (R274): within its fixed reservation, or within the port's tags less the reserved ones
and its channel's share.  A channel that the image does not define has no share to bound it (DESIGN CHOICE, log entry 35). -/
def State.shareOk (s : State) (r : PReq) : Bool :=
  let mine := s.fixedTags r.port r.write
  if r.who.fixed then decide (mine + r.beats ≤ fixedShare r.port r.write)
  else
    decide (s.tagCount r.port r.write - mine + r.beats ≤ tagLimit r.write - fixedShare r.port r.write)
      && (r.write || (match r.chan with
        | some c => !(s.chan c).valid || decide (s.chanTags c + r.beats ≤ (s.chan c).tags)
        | none => true))

/-! ### Translation -/

/-- The entry that maps an address. -/
def tlbFind (es : List TlbEntry) (va : Nat) : Option TlbEntry :=
  es.find? (fun e => decide (e.va ≤ va) && decide (va < e.va + e.size))

/-- The physical core whose slice serves a request. -/
def Requester.core : Requester → Option Nat
  | .row pc _ => some pc
  | .tst pc _ => some pc
  | .spilled pc _ => some pc
  | _ => none

/-- An entry put into a list of at most `n`, in place of those whose pages it meets; the one that it replaces in a full list is
not stated (log entry 7). -/
def State.tlbPut (s : State) (es : List TlbEntry) (n : Nat) (e : TlbEntry) : State × List TlbEntry :=
  let es := es.filter (fun x => decide (x.va + x.size ≤ e.va ∨ e.va + e.size ≤ x.va))
  if es.length < n then (s, es ++ [e])
  else
    let (v, s) := s.fresh
    (s, es.eraseIdx (v % es.length) ++ [e])

/-- The TLB of a port pair. -/
def State.tlb (s : State) (pair : Nat) : List TlbEntry := SMap.get s.mp.tlbs [] pair

/-- A translation enters the pair TLB, and the slice of the core that asked. -/
def State.learn (s : State) (pair : Nat) (pc : Option Nat) (e : TlbEntry) : State :=
  let (s, es) := s.tlbPut (s.tlb pair) 4096 e
  let s := { s with mp := { s.mp with tlbs := SMap.set s.mp.tlbs [] pair es } }
  match pc with
  | some n =>
    let (s, sl) := s.tlbPut (s.core n).slice 64 e
    s.onCore n (fun k => { k with slice := sl })
  | none => s

/-- Every entry that matches removed from the pair TLBs and the core slices (R276, R277, R280). -/
def State.unlearn (s : State) (f : TlbEntry → Bool) : State :=
  { s with
    mp := { s.mp with tlbs := (s.mp.tlbs.map (fun e => (e.1, e.2.filter (fun x => !f x)))).filter (fun e => !e.2.isEmpty) }
    cores := s.cores.map (fun e => (e.1, { e.2 with slice := e.2.slice.filter (fun x => !f x) })) }

/-- What a lookup finds. -/
inductive Lookup where
  | hit (e : TlbEntry) | miss | fault (code : Nat)
  deriving DecidableEq, Repr

/-- A lookup in a core slice, then in the pair TLB (R275, R276). -/
def State.lookup (s : State) (r : PReq) : Lookup :=
  if !bit (s.reg 0x50400) 31 then .fault 0x0403
  else
    let own := match r.who.core with | some pc => tlbFind (s.core pc).slice r.va | none => none
    match own with
    | some e => if (if r.write then e.write else e.read) then .hit e else .fault 0x0402
    | none =>
      match tlbFind (s.tlb (r.port / 2)) r.va with
      | some e => if (if r.write then e.write else e.read) then .hit e else .fault 0x0402
      | none => .miss

/-! ### Requests -/

/-- Request `i` changed by `f`. -/
def State.onReq (s : State) (i : Nat) (f : PReq → PReq) : State :=
  { s with mp := { s.mp with reqs := s.mp.reqs.map (fun r => if r.id = i then f r else r) } }

/-- Request `i` waits for no acknowledgement of an invalidation any more (R277): an acknowledgement is given once its list is
empty. -/
def State.unack (s : State) (i : Nat) : State :=
  { s with mp := { s.mp with
      invAck := (s.mp.invAck.map (fun l => l.filter (fun k => decide (k ≠ i)))).filter (fun l => !l.isEmpty) } }

/-- Request `i` removed, with its page requests. -/
def State.dropReq (s : State) (i : Nat) : State :=
  let s := s.unack i
  { s with mp := { s.mp with reqs := s.mp.reqs.filter (fun r => decide (r.id ≠ i))
                             pageReqs := s.mp.pageReqs.filter (fun p => decide (p.req ≠ i)) } }

/-- Request `i`. -/
def State.req (s : State) (i : Nat) : Option PReq := s.mp.reqs.find? (fun r => decide (r.id = i))

/-- SRC of a request (R269). -/
def State.srcOf (s : State) (r : PReq) : Nat :=
  let u := match r.who with
    | .row pc _ => pc | .tst pc _ => pc | .spilled pc _ => pc
    | .chan _ _ _ | .spill _ _ _ | .sout _ | .ringIdx _ | .ringDesc _ | .ringTell _ | .ringRead _ | .ringOut _ | .ringProd _ => 24
    | .cfg _ | .boot => 25
    | .evRing _ | .evHead _ => 26
  s.par.instId.toNat + 64 * u

/-- The PC of a request's record, 0x1F for none. -/
def PReq.pc (r : PReq) : Nat := (r.who.core).getD 0x1F

/-- The PC that an XLATE record names: the core of the request, or of the logical core that its channel serves (log entry 37). -/
def State.xlatePc (s : State) (r : PReq) : Nat :=
  match r.who with
  | .chan c _ _ => ((s.lc (s.chan c).lc).pc).getD 0x1F
  | _ => r.pc

/-- MP_FAULT (R297). -/
def State.mpFault (s : State) (code port src va tag : Nat) : State :=
  s.evt 0x00A0 port [(0, 16, code), (16, 3, port), (19, 11, src), (30, 57, va), (87, 11, tag)]

/-- The last fault of a port (MP_FAULT_ADDR, MP_FAULT_INFO). -/
def State.lastFault (s : State) (port va code src : Nat) : State :=
  s.setMport port { s.mport port with faultAddr := va, faultCode := code, faultSrc := src }

/-- XLATE (R297). -/
def State.xlateRec (s : State) (code : Nat) (r : PReq) (row : Nat) : State :=
  let pol := match r.chan with | some c => s.poisons c | none => false
  s.evt 0x00A1 r.port [(0, 16, code), (16, 3, r.port), (19, 6, r.chan.getD 0x3F), (25, 5, s.xlatePc r), (30, 57, r.va),
    (87, 1, b2n r.write), (88, 1, b2n pol), (89, 6, row)]

/-- A protocol violation on a port (R273), with SRC and address of the request it concerns where one is known (DEDUCED, log
entry 81) (DEDUCED, log entry 81) (DESIGN CHOICE, log entry 99). -/
def State.violation (s : State) (port tag : Nat) (r : Option PReq := none) : State :=
  let (src, va) := match r with | some q => (s.srcOf q, q.va) | none => (0, 0)
  (s.mpFault 0x040C port src va tag).report (mkReport 15 (.port port) port)

/-- The page size of a code of R385. -/
def pageSize (c : Nat) : Nat := match c % 4 with | 0 => 4096 | 1 => 65536 | 2 => 2 ^ 21 | _ => 2 ^ 30

/-- A translation request sent for request `i`, where the pair has room for one more of 64 and no quiesce holds it (R276, R282,
R385) (DESIGN CHOICE, log entry 8). -/
def State.askXlp (s : State) (r : PReq) : State :=
  if s.mp.quiesce || s.mp.rstq then s else
  let pair := r.port / 2
  match (List.range 64).find? (fun k => !s.mp.xreqs.any (fun x => decide (x.id = 64 * pair + k))) with
  | some k =>
    let x : XReq := { id := 64 * pair + k, pasid := BitVec.ofNat 20 (fld (s.reg 0x50400) 0 20), va := r.va,
                      write := r.write, stale := false, at_ := s.tu.ltc }
    let s := { s with mp := { s.mp with xreqs := s.mp.xreqs ++ [x] } }
    s.onReq r.id (fun r => { r with st := .xlp (64 * pair + k) })
  | none => s

/-! ### Row cache and windows -/

/-- Memory spaces of row-cache lines. -/
def spStaging : Nat := 0
def spPool : Nat := 1
def spHost : Nat := 2

/-- The line that holds a row. -/
def Core.line (k : Core) (space addr : Nat) : Option Line :=
  k.cache.find? (fun l => decide (l.space = space) && decide (l.addr = addr))

/-- A line put into the row cache of 256 lines; the one it replaces is not stated (log entry 7). -/
def State.cachePut (s : State) (pc : Nat) (l : Line) : State :=
  let c := (s.core pc).cache.filter (fun x => decide (x.space ≠ l.space ∨ x.addr ≠ l.addr))
  if c.length < 256 then s.onCore pc (fun k => { k with cache := c ++ [l] })
  else
    let (v, s) := s.fresh
    s.onCore pc (fun k => { k with cache := c.eraseIdx (v % c.length) ++ [l] })

/-- A row of a response: its address, its bytes, its poisoned 32-byte words and the kinds it brings. -/
structure InRow where
  va    : Nat
  bytes : List Byte
  bad   : List Nat
  kinds : Kinds
  deriving DecidableEq, Repr

/-- The rows of 256 bytes of a response.  Its words in `bad` came as poisoned (R271); `k` are the kinds of an error or a fault,
which applies to every row of the burst (R186, R281), 0 for none. -/
def rowsOf (va : Nat) (data : List Byte) (bad : List Nat) (k : Kinds) : List InRow :=
  (indexed 0 (pieces 256 data.length data)).map (fun e =>
    let own := (bad.filter (fun b => decide (8 * e.1 ≤ b) && decide (b < 8 * e.1 + 8))).map (fun b => b - 8 * e.1)
    { va := va + 256 * e.1, bytes := e.2, bad := if k = 0 then own else List.range 8
      kinds := (if own.isEmpty then 0 else kEcc) ||| k })

/-- A row delivered into the window of channel `c` (R185): its data go to its place in the pool. -/
def State.fillRow (s : State) (c : Nat) (x : InRow) : State :=
  let ch := s.chan c
  match ch.win.find? (fun w => decide (w.va = x.va) && !w.ready) with
  | none => s
  | some w =>
    let s := s.setChan c { ch with win := ch.win.map (fun y =>
      if y.place = w.place then { y with ready := true, kinds := x.kinds } else y) }
    { s with st := { s.st with pool := s.st.pool.writeRow w.place x.bytes (x.bad.map (fun b => w.place / 32 + b)) } }

/-- Rows delivered into the window of channel `c`, with the count of its bytes (CH_BYTES). -/
def State.fillWindow (s : State) (c : Nat) (rows : List InRow) : State :=
  let s := rows.foldl (fun s x => s.fillRow c x) s
  s.setChan c { s.chan c with bytes := ((s.chan c).bytes + 256 * rows.length) % 2 ^ 48 }

/-! ### Faults of a request (R278) -/

/-- A tile instruction in flight changed by `f`. -/
def State.onFlight (s : State) (pc id : Nat) (f : InFlight → InFlight) : State :=
  s.onCore pc (fun k => { k with flight := k.flight.map (fun x => if x.id = id then f x else x) })

/-- Instruction `id` in flight on a core. -/
def Core.fly (k : Core) (id : Nat) : Option InFlight := k.flight.find? (fun x => decide (x.id = id))

/-- TRF_ABANDON with its count and TLD_FAULT (R52, R63). -/
def State.abandonRec (s : State) (pc lc cause opc row dest : Nat) : State :=
  let s := s.onCore pc (fun k => { k with faultRow := row, faultCause := cause, faultDest := dest,
                                          cnt := { k.cnt with restart := satAdd k.cnt.restart 1 max16 } })
  s.evt 0x0030 pc [(0, 5, pc), (5, 4, lc), (9, 3, cause), (12, 8, opc), (20, 6, row), (26, 5, dest)]

/-- What a ring has read of its engine (R184): its descriptors by lines of 64 bytes; its index word, none where it could not be
read (DESIGN CHOICE, log entry 63). -/
def State.ringRead (s : State) (r : Nat) (q : PReq) (data : List Byte) (lost : Bool) : State :=
  let x := s.ring r
  match q.who with
  | .ringDesc _ =>
    s.setRing r { x with lines := (indexed 0 (pieces 64 data.length data)).foldl (fun m e =>
      SMap.set m (some []) (q.va + 64 * e.1) (if lost then none else some e.2)) x.lines }
  | _ =>
    if lost then s
    else s.setRing r { x with index := some (BitVec.ofNat 32 (leAt data q.lo 4)) }

/-- A bit for each of `n` rows from row `i`. -/
def rowBits (i n : Nat) : Nat := ((List.range n).map (fun k => 2 ^ (i + k))).foldl (· + ·) 0

/-- Rows of an external buffer come for the copy of ring `r` (R184, R278); `a` is the buffer's address. -/
def RingOut.take (o : RingOut) (a : Nat) (rows : List InRow) (k : Kinds) : RingOut :=
  rows.foldl (fun (o : RingOut) x => { o with
    rows := SMap.set o.rows [] x.va x.bytes
    bad := o.bad ++ x.bad.map (fun b => (x.va - a) / 32 + b)
    lost := if k = 0 then o.lost else o.lost ||| rowBits ((x.va - a) / 256) 1
    kinds := o.kinds ||| k }) o

/-- Rows of a slot's buffer that could not be written because of a translation fault (R278) (DEDUCED, log entry 64). -/
def State.ringLost (s : State) (r : Nat) (q : PReq) : State :=
  let x := s.ring r
  let a := x.bufs + 4096 * (x.prod.toNat % max 1 x.nslot)
  s.setRing r { x with out := x.out.map (fun o =>
    if o.phase = .buffer then
      { o with kinds := o.kinds ||| kTranslate, lost := o.lost ||| rowBits ((q.va - a) / 256) (q.beats / 4) }
    else o) }

/-- Records that could not be written to their ring leave the event plane dropped and counted (R259, R278). -/
def State.dropSent (s : State) (r : Nat) : State :=
  let x := s.evRing r
  let s := s.setEvRing r { x with sent := [], drops := (x.drops + x.sent.length) % 2 ^ 32 }
  { s with ev := x.sent.foldl (fun v e => { v with
      buf := v.buf.erase e, dropCnt := satAdd v.dropCnt 1 max32
      lost := SMap.set v.lost 0 (32 * e.cls + e.unit) (SMap.get v.lost 0 (32 * e.cls + e.unit) + 1) }) s.ev }

/-- A write that ended without being made (R278, R281): records of an event ring are dropped; every other command completes. -/
def State.lostWrite (s : State) (r : PReq) : State :=
  match r.who with
  | .evRing n => s.dropSent n
  | _ => s

/-- A response or a fault delivered to its requester: `bad` are the words that came as poisoned, `k` the kinds of an error or a
fault, which loses the whole burst (R186, R281), 0 for none; writes deliver nothing. -/
def State.deliver (s : State) (r : PReq) (data : List Byte) (bad : List Nat) (k : Kinds) : State :=
  let rows := rowsOf r.va data bad k
  match r.who with
  | .row pc _ | .spilled pc _ =>
    rows.foldl (fun s x => s.cachePut pc { space := spHost, addr := x.va, bytes := x.bytes, bad := x.bad, kinds := x.kinds }) s
  | .chan c _ _ => s.fillWindow c rows
  | .ringIdx n | .ringDesc n => s.ringRead n r data (decide (k ≠ 0 ∨ bad ≠ []))
  | .ringRead n => s.setRing n { s.ring n with out := (s.ring n).out.map (fun o => o.take (s.extAddr (hIndex o.handle)) rows k) }
  | .ringOut _ | .ringProd _ | .ringTell _ | .evRing _ | .evHead _ => s
  | .sout n =>
    let x := s.sport n
    s.setSport n { x with out := x.out.map (fun o => { o with rows := SMap.set o.rows [] r.va data }) }
  | .cfg n =>
    if n ≠ s.cfg.pass then s
    else if k ≠ 0 ∨ bad ≠ [] then { s with cfg := { s.cfg with err := some 0x020B } }
    else { s with cfg := { s.cfg with buf := SMap.set s.cfg.buf [] r.va data } }
  | .boot =>
    if k ≠ 0 ∨ bad ≠ [] then { s with boot := { s.boot with err := true } }
    else { s with boot := { s.boot with buf := SMap.set s.boot.buf [] r.va data } }
  | .tst _ _ | .spill _ _ _ => s

/-- Zeros for every byte of a request. -/
def PReq.zeros (r : PReq) : List Byte := List.replicate (64 * r.beats) 0

/-! ### Where a row lies -/

/-- Where a row lies: staging, pool, host memory under a channel, or a handle that gives no access. -/
inductive Loc where
  | staging (a : Nat)
  | pool (a : Nat)
  | host (va : Nat) (chan : Nat)
  | dead (k : Kinds)
  deriving DecidableEq, Repr

/-- The role bit of a pair (R129). -/
def State.role (s : State) (lc k : Nat) : Bool := (s.lc lc).roles.getLsbD k

/-- Base of the half that a PAIR access addresses. -/
def State.halfBase (s : State) (lc : Nat) (r : List Word) : Nat :=
  let x := s.pairRec lc (mvPair r)
  prBase x + (if mvHalf r != s.role lc (mvPair r) then prHalf x else 0)

/-- The place of memory row `i` (R108). -/
def State.rowLoc (s : State) (pc : Nat) (c : Ctx) (lc : Nat) (r : List Word) (i : Nat) : Loc :=
  let a := rowOff r i
  match mvSpace r with
  | 0 => .staging a
  | 1 =>
    match SMap.get (((s.core pc).ctx c).hregs.map (fun e => (e.1, some e.2))) none (mvH r + a / 4096) with
    | none => .dead kFault
    | some h =>
      if isPlaceholder h.handle then .dead kMissing
      else if (s.staleCode h.handle).isSome then .dead kFault
      else if hExternal h.handle then .host (s.extAddr (hIndex h.handle) + a % 4096) (s.extChan (hIndex h.handle))
      else .pool (4096 * hIndex h.handle + a % 4096)
  | 2 => .host (a + 2 ^ 32 * mvAddrHi r) (mvChan r)
  | _ =>
    let b := s.halfBase lc r + a
    match prSpace (s.pairRec lc (mvPair r)) with
    | 0 => .staging b
    | 1 => .pool b
    | _ => .host b (mvChan r)

/-- The memory row of a TLD or TST that a host address belongs to, 0 where there is none; a scale or exponent row counts as
the memory row it is (DESIGN CHOICE, log entry 93). -/
def State.rowIndex (s : State) (pc : Nat) (f : InFlight) (va : Nat) : Nat :=
  let p := (s.core pc).part
  let rows := movedRows p (if recOpc f.words = 0x01 then descD p f.words else descS p f.words)
  match rows.find? (fun x => match s.rowLoc pc f.ctx f.list.lc f.words x.2 with
    | .host a _ => decide (a ≤ va) && decide (va < a + 256)
    | _ => false) with
  | some x => x.2
  | none => 0

/-- A request ends as under POISON: rows of zeros in poison form with a kind; rows of a write are not written (R278,
R281) (DEDUCED, log entry 64). -/
def State.poisonReq (s : State) (r : PReq) (k : Kinds) : State :=
  let s := s.dropReq r.id
  if r.write then (match r.who with | .ringOut n => s.ringLost n r | _ => s.lostWrite r)
  else s.deliver r r.zeros [] k

/-- Partial write bursts of an instruction discarded (R186). -/
def State.dropPartial (s : State) (pc id : Nat) : State :=
  { s with st := { s.st with chans := s.st.chans.map (fun e =>
      (e.1, { e.2 with partWr := e.2.partWr.filter (fun w => !(decide (w.2.2.2.1 = pc) && decide (w.2.2.2.2 = id))) })) } }

/-- The tile instruction of a request abandoned on a translation fault (R52): it waits to restart, and its requests that hold no
tags are given up (DEDUCED, log entry 37). -/
def State.abandonFault (s : State) (pc id : Nat) (va : Nat) : State :=
  match (s.core pc).fly id with
  | none => s
  | some f =>
    match f.phase with
    | .restart _ _ => s
    | _ =>
      let isTld := decide (recOpc f.words = 0x01)
      let own (q : PReq) : Bool := decide (q.who = .row pc id ∨ q.who = .tst pc id)
      let s := (s.mp.reqs.filter (fun q => own q && !q.onPort && q.wait.isNone)).foldl (fun s q => s.dropReq q.id) s
      let s := (s.dropPartial pc id).onFlight pc id (fun f => { f with phase := .restart false false, slot := none })
      s.abandonRec pc f.list.lc 1 (recOpc f.words) (if isTld then s.rowIndex pc f va else 0) (f.dest.getD 0)

/-- The instruction in flight that a request serves. -/
def State.flightOf (s : State) (r : PReq) : Option (Nat × InFlight) :=
  match r.who with
  | .row pc id | .tst pc id | .spilled pc id => ((s.core pc).fly id).map (fun f => (pc, f))
  | _ => none

/-- Whether a request is left over from before its instruction was abandoned. -/
def State.leftOver (s : State) (r : PReq) : Bool :=
  match s.flightOf r with
  | some (_, f) => (match f.phase with | .restart _ _ => r.wait.isNone | _ => false)
  | none => false

/-- The row that an XLATE record names. -/
def State.faultRow (s : State) (r : PReq) : Nat :=
  match r.who with
  | .chan _ _ row => row
  | _ => match s.flightOf r with | some (pc, f) => s.rowIndex pc f r.va | none => 0

/-- XLATE at the first fault of a wait, and at the first fault of an instruction under POISON (R278, log entry 37). -/
def State.noteXlate (s : State) (r : PReq) (code : Nat) : State :=
  if r.wait.isSome then s
  else
    match s.flightOf r with
    | some (pc, f) =>
      if f.noted then s else (s.xlateRec code r (s.faultRow r)).onFlight pc f.id (fun f => { f with noted := true })
    | none => s.xlateRec code r (s.faultRow r)

/-- A page request forwarded to the agent at a fault of a waiting request, one for its page per wait (R278). -/
def State.askPage (s : State) (r : PReq) : State :=
  let p : PageReq := { req := r.id, pasid := BitVec.ofNat 20 (fld (s.reg 0x50400) 0 20), page := r.va / 4096, write := r.write }
  if s.mp.pageReqs.any (fun q => decide (q.req = p.req ∧ q.page = p.page)) then s
  else { s with mp := { s.mp with pageReqs := s.mp.pageReqs ++ [p] } }

/-- A translation fault of a request (R278) (DEDUCED, log entry 37). -/
def State.faultReq (s : State) (r : PReq) (code : Nat) : State :=
  let s := { s with mp := { s.mp with xlateFault := satAdd s.mp.xlateFault 1 max32 } }
  let s := s.lastFault r.port r.va code (s.srcOf r)
  if s.leftOver r then s.dropReq r.id else
  let s := s.noteXlate r code
  match r.who with
  | .spill _ _ _ => s.onReq r.id (fun r => { r with err := some .translateFault, st := .queued, dead := true })
  | .cfg _ | .boot => (s.dropReq r.id).deliver r [] [] kTranslate
  | who =>
    match r.chan with
    | none => s.poisonReq r kTranslate
    | some c =>
      let late := match s.flightOf r with | some (_, f) => f.late | none => false
      if s.poisons c || late then s.poisonReq r kTranslate
      else
        let s := (s.askPage r).onReq r.id (fun r =>
          { r with st := .faulted (r.wait.getD s.tu.ltc), wait := some (r.wait.getD s.tu.ltc), at_ := s.tu.ltc })
        match who with
        | .row pc id | .tst pc id => s.abandonFault pc id r.va
        | _ => s

/-! ### Issue -/

/-- One queued request tried: translated, then sent when it gets its tags (R274 to R276, R282) (DESIGN CHOICE, log entry 99). -/
def State.tryReq (s : State) (i : Nat) : State :=
  match s.req i with
  | none => s
  | some r =>
    match r.st with
    | .queued =>
      if s.mp.quiesce || s.mp.rstq || (r.dead && r.err.isSome) then s
      else
        let go (s : State) (pa : Nat) : State :=
          match freeTag (s.heldTags r.port r.write) (tagLimit r.write) r.beats with
          | some t =>
            if s.shareOk r then
              s.onReq i (fun r => { r with st := .issued t, pa := pa % 2 ^ 52, live := r.beats, at_ := s.tu.ltc, got := 0, err := none })
            else s
          | none => s
        match r.who with
        | .boot => go s r.va
        | who =>
          match s.lookup r with
          | .hit e =>
            let s := match who.core with
              | some pc => if (tlbFind (s.core pc).slice r.va).isNone then
                  let (s, sl) := s.tlbPut (s.core pc).slice 64 e
                  s.onCore pc (fun k => { k with slice := sl }) else s
              | none => s
            go s (e.pa + (r.va - e.va))
          | .fault c => s.faultReq r c
          | .miss =>
            let n := r.port / 2
            let s := { s with mp := { s.mp with tlbMiss := SMap.set s.mp.tlbMiss 0 n (satAdd (SMap.get s.mp.tlbMiss 0 n) 1 max32) } }
            s.askXlp r
    | _ => s

/-- Every queued request tried in order. -/
def State.pump (s : State) : State := (s.mp.reqs.map (fun r => r.id)).foldl (fun s i => s.tryReq i) s

/-- A new request, tried at once; its strobes are 1 from byte `lo` to the one before `hi` of its data. -/
def State.newReqAt (s : State) (who : Requester) (port : Nat) (chan : Option Nat) (va beats : Nat) (write : Bool)
    (data : List Byte) (bad : List Nat) (lo hi : Nat) : State :=
  let i := s.mp.nextReq
  let inc := match who.core with | some pc => (s.core pc).inc | none => 0
  let r : PReq := { id := i, who := who, port := port, chan := chan, va := va, pa := 0, beats := beats, write := write,
                    data := data, lo := lo, hi := hi, live := beats, bad := bad, kinds := 0, st := .queued, got := 0, retried := false, dead := false, err := none,
                    wait := none, inc := inc, at_ := s.tu.ltc }
  let s := { s with mp := { s.mp with reqs := s.mp.reqs ++ [r], nextReq := i + 1 } }
  s.tryReq i

/-- A new request for whole beats, tried at once. -/
def State.newReq (s : State) (who : Requester) (port : Nat) (chan : Option Nat) (va beats : Nat) (write : Bool)
    (data : List Byte) (bad : List Nat) : State := s.newReqAt who port chan va beats write data bad 0 (64 * beats)

/-! ### The payloads of a request (R269) -/

/-- A payload of RA or WA (R269). -/
structure AddrPayload where
  addr  : Nat
  lenM1 : Nat
  tag   : Nat
  src   : Nat
  hint  : Nat
  deriving DecidableEq, Repr

/-- A beat of WD (R269). -/
structure WriteBeat where
  data   : List Byte
  strb   : BitVec 64
  poison : BitVec 2
  last   : Bool
  deriving DecidableEq, Repr

/-- The address payload that a request under tag `t` puts on its port; which of the two hints it carries is not stated (R269, log
entry 7). -/
def State.addrPayload (s : State) (r : PReq) (t : Nat) : AddrPayload :=
  { addr := r.pa, lenM1 := r.beats - 1, tag := t, src := s.srcOf r, hint := (Config.hint r.id).toNat }

/-- Beat `i` of a write request (R269, R271): a beat past the last live one has STRB 0 and POISON 0 (R283, R295). -/
def PReq.writeBeat (r : PReq) (i : Nat) : WriteBeat :=
  let on := decide (i < r.live)
  { data := (r.data.drop (64 * i)).take 64
    strb := BitVec.ofNat 64 ((List.range 64).foldl (fun a k =>
      a + b2n (on && decide (r.lo ≤ 64 * i + k) && decide (64 * i + k < r.hi)) * 2 ^ k) 0)
    poison := BitVec.ofNat 2 (b2n (on && r.bad.contains (2 * i)) + 2 * b2n (on && r.bad.contains (2 * i + 1)))
    last := decide (i + 1 = r.beats) }

/-- The write bursts of a core or of a reset block go on with strobes off after the beats that have passed (R283 step 2, R295);
how many have passed is not stated (log entry 7). -/
def State.strobesOff (s : State) (f : PReq → Bool) : State :=
  s.mp.reqs.foldl (fun s r =>
    if r.onPort && r.write && f r then
      let (v, s) := s.fresh
      s.onReq r.id (fun r => { r with live := min r.live (v % (r.beats + 1)) })
    else s) s

/-- The rounded trip statistics of a channel (CH_RTT); the mean's window is not stated, so it is a free value (log entry 7). -/
def State.noteRtt (s : State) (r : PReq) : State :=
  match r.chan with
  | none => s
  | some c =>
    let (v, s) := s.fresh
    let t := (s.tu.ltc - r.at_) * s.rateNom / 2 ^ 48 / 10
    let x := s.chan c
    s.setChan c { x with rttAvg := v % 65536, rttMax := min 65535 (max x.rttMax t) }

/-- A final error of a request (R281) (DEDUCED, log entry 81). -/
def State.finalError (s : State) (r : PReq) (code tag : Nat) : State :=
  let p := s.mport r.port
  let s := s.setMport r.port
    (if r.write then { p with wrErr := satAdd p.wrErr 1 max32 } else { p with rdErr := satAdd p.rdErr 1 max32 })
  (s.lastFault r.port r.va code (s.srcOf r)).mpFault code r.port (s.srcOf r) r.va tag

/-- A retry of R281 put off: tags are freed, the request waits under its former tag. -/
def State.deferReq (s : State) (r : PReq) (tag : Nat) : State :=
  (s.unack r.id).onReq r.id (fun r =>
    { r with
      st := .retry tag, retried := true, err := none, got := 0, at_ := s.tu.ltc, kinds := 0
      data := if r.write then r.data else []
      bad := if r.write then r.bad else [] })

/-- MATRIX (R297): the stale core of a transfer on the core report path, else 0 (DEDUCED, log entry 82). -/
def State.matrixRec (s : State) (code m off g st woke pc : Nat) : State :=
  s.evt 0x00A2 8 [(0, 16, code), (16, 3, m), (19, 26, off), (45, 4, g), (49, 3, st), (52, 1, woke), (53, 5, pc)]

/-- A stale transfer of a core on the core report path (R293): dropped, counted and recorded as one of master 7 at the target it
enters, the control region's (DEDUCED, log entry 82). -/
def State.coreGhost (s : State) (pc : Nat) : State :=
  ({ s with mp := { s.mp with cmGhost := satAdd s.mp.cmGhost 1 max32 } }.matrixRec 0x040D 7 0 7 ((s.region 7).low).code 0 pc).ghost pc

/-- A stale request or response on a port (R293). -/
def State.portGhost (s : State) (r : PReq) (tag : Nat) : State :=
  let p := s.mport r.port
  let s := s.setMport r.port { p with ghosts := satAdd p.ghosts 1 max32 }
  (s.mpFault 0x040D r.port (s.srcOf r) r.va tag).ghost r.pc

/-- Tags held anywhere. -/
def State.anyTag (s : State) : Bool :=
  s.mp.reqs.any (fun r => r.onPort) || (List.range 8).any (fun p => !(s.mport p).late.isEmpty)

/-- Tags held on all ports together. -/
def State.allTags (s : State) : Nat :=
  ((List.range 8).map (fun p => s.tagCount p false + s.tagCount p true)).foldl (· + ·) 0

/-- Ticks as units of 10 ns. -/
def State.ns10 (s : State) (ticks : Nat) : Nat := ticks * s.rateNom / 2 ^ 48 / 10

/-- QUIESCE_ACK rises when no tag is held and no XLP request is outstanding (R282); a reset-time quiesce passes when no tag
is held (R283 step 4). -/
def State.quiesceCheck (s : State) : State :=
  let s :=
    if s.mp.quiesce && !s.mp.ack && !s.anyTag && s.mp.xreqs.isEmpty then
      let s := { s with mp := { s.mp with ack := true } }
      s.evt 0x00A3 9 [(0, 1, 0), (1, 32, s.ns10 (s.tu.ltc - s.mp.qSince)), (33, 12, s.mp.qHeld)]
    else s
  s

end Sys2Proof.Machine
end

