-- ==== Sys2Proof/Machine/Issue.lean ====
section
/-! DEFINITION. The command units (R94 to R107, R131, R132): fetching a record at the issue point, waits, commit slots
(R50), reuse latches (R48), mallets (R107, R130), command and shape errors (R41, R105), the end, cut and abandonment of a
list (R27, R52, R96), and the collectives of the exchange (R85 to R87). -/

namespace Sys2Proof.Machine

/-! ### Records -/

/-- Records of the list area start at this offset of sequencer memory (R213). -/
def listArea : Nat := 0x20000

/-- The record `i` of a list of logical core `lc` (R94, R213): its 8 words and whether a word of it is poisoned. -/
def State.record (s : State) (lc start i : Nat) : List Word × Bool :=
  let m := s.seq (2 * (lc % 2))
  let a := listArea + 32 * (start + i)
  (wordsOfBytes (m.read a 32), m.isBad (a / 32))

/-- The opcodes of R106. -/
def opcodes : List Nat :=
  [0x01, 0x02, 0x03, 0x10, 0x11, 0x12, 0x13, 0x14, 0x15, 0x16, 0x17, 0x18, 0x19, 0x1A, 0x1B, 0x1C, 0x1D, 0x20, 0x21, 0x22,
   0x23, 0x30, 0x31, 0x32, 0x33, 0x34, 0x35, 0x36, 0x37, 0x38, 0x3F]

/-- Whether an opcode is a control command. -/
def isControl (opc : Nat) : Bool := decide (0x30 ≤ opc)

/-- Command modifier bits an opcode defines: (CMOD[14], CMOD[15]) (R98, R111, R115, R122). -/
def cmodOk (opc : Nat) : Bool × Bool :=
  if opc = 0x03 ∨ opc = 0x14 ∨ opc = 0x18 then (true, false)
  else if opc = 0x19 then (true, true)
  else (false, false)

/-- Whether every flag set in a record is valid for its opcode (R98). -/
def flagsOk (r : List Word) : Bool :=
  let o := recOpc r
  (!recCsig r || !(decide (o = 0x30 ∨ o = 0x31 ∨ o = 0x32)))
    && (!recCpush r || decide (o = 0x02))
    && (!recSolve r || decide (o = 0x10 ∨ o = 0x14 ∨ o = 0x15))
    && (!recRetry r || decide (o = 0x20 ∨ o = 0x22))
    && !bit (rw r 0) 13
    && (!recCmod0 r || (cmodOk o).1) && (!recCmod1 r || (cmodOk o).2)

/-- Whether a shape code is permitted for the opcode (R100, R111): control commands and TMOV take 0; commands with
parameters in word 2 take 0 or 1. -/
def shpOk (r : List Word) : Bool :=
  let o := recOpc r
  let p := recShp r
  if isControl o ∨ o = 0x03 then decide (p = 0)
  else if 0x18 ≤ o ∧ o ≤ 0x1B then decide (p ≤ 1)
  else decide (p ≤ 2)

/-! ### Waits -/

/-- A context held at its issue point by a cause (R189), waiting on an object. -/
def State.hold (s : State) (pc : Nat) (c : Ctx) (cause obj : Nat) : State :=
  let s := s.onCtx pc c (fun x => { x with wait := some cause, waitObj := obj })
  if s.st.waitSeq.contains (pc, c) then s
  else { s with st := { s.st with waitSeq := s.st.waitSeq ++ [(pc, c)] } }

/-- A context waits no more. -/
def State.unhold (s : State) (pc : Nat) (c : Ctx) : State :=
  { s.onCtx pc c (fun x => { x with wait := none, waitObj := 0 }) with
    st := { s.st with waitSeq := s.st.waitSeq.filter (fun w => decide (w ≠ (pc, c))) } }

/-- The command at the issue point has issued: the next record becomes the issue point (R95). -/
def State.advance (s : State) (pc : Nat) (c : Ctx) : State :=
  (s.unhold pc c).onCtx pc c (fun x =>
    { x with index := x.index + 1, run := x.run + 1, solves := [], fence := none })

/-- Commands of a context that have not completed. -/
def Core.inFlight (k : Core) (c : Ctx) : List InFlight := k.flight.filter (fun f => decide (f.ctx = c))

/-- Whether every command that a context has issued has completed: no instruction in flight (DEDUCED, log entry 39). -/
def State.ctxDone (s : State) (pc : Nat) (c : Ctx) : Bool := ((s.core pc).inFlight c).isEmpty

/-- The GSN of a list's deadline gong (R24). -/
def ListRef.deadline (l : ListRef) : Nat := l.gsn + (if l.carry then 2 else 1)

/-- Whether the gong of this GSN is a list's deadline (R24); a list that gongs left behind has none (R15). -/
def ListRef.due (l : ListRef) (gsn : Nat) : Bool := !l.free && decide (l.deadline ≤ gsn)

/-- Whether the curfew holds heavy commands of a list (R25). -/
def State.curfewHolds (s : State) (l : ListRef) : Bool :=
  s.gong.inCurfew && l.due (s.gong.gsn.toNat + 1)

/-! ### Registers and commit slots -/

/-- Registers written by instructions of a context in flight. -/
def Core.writing (k : Core) (c : Ctx) (r : Nat) : Bool := (k.inFlight c).any (fun f => decide (f.dest = some r))

/-- A fabric-input read of slice `s` of physical slot `p` (R48): hit or miss, most recent latch first. -/
def Core.latch (k : Core) (p s : Nat) : Core :=
  let hit := k.latches.contains (p, s)
  let l := (p, s) :: (k.latches.filter (fun x => decide (x ≠ (p, s))))
  { k with
    latches := l.take 4
    cnt := if hit then { k.cnt with latchHit := satAdd k.cnt.latchHit 1 max32 }
      else { k.cnt with latchMiss := satAdd k.cnt.latchMiss 1 max32 } }

/-- The latches of a slot invalidated (R49). -/
def Core.unlatch (k : Core) (p : Nat) : Core := { k with latches := k.latches.filter (fun x => decide (x.1 ≠ p)) }

/-! ### Check symbol failures (R89) -/

/-- A check symbol failure of a core (R89): counted, kept for the record of the gong, reported (DESIGN CHOICE, log entry 31). -/
def State.fabFail (s : State) (pc port place : Nat) (injected : Bool) : State :=
  let s := s.onCore pc (fun k =>
    { k with
      cnt := { k.cnt with fabCheck := satAdd k.cnt.fabCheck 1 max32 }
      gongPort := if k.gongFab = 0 then port else k.gongPort
      gongPlace := if k.gongFab = 0 then place else k.gongPlace
      gongFab := k.gongFab + 1 })
  s.report { mkReport 2 (.core pc) port with injected := injected }

/-- Every failed check of a pass (R89). -/
def State.fabFails (s : State) (pc : Nat) (fs : Fails) (injected : Bool) : State :=
  fs.foldl (fun s f => s.fabFail pc f.1 f.2 injected) s

/-- The kind that failed checks give a register (R89). -/
def failKinds (fs : Fails) : Kinds := if fs.isEmpty then 0 else kFabric

/-- Fabric work of a core done: passes and input reads counted (R48, FAB_PASS_CNT), an armed lane fault spent (R334), the
failed checks acted on (R89). -/
def State.fabDone (s : State) (pc passes : Nat) (reads : List (Nat × Nat)) (fs : Fails) : State :=
  let struck := (s.core pc).injLane.isSome
  let s := s.onCore pc (fun k =>
    let k := reads.foldl (fun k x => k.latch (k.slotOfReg x.1) x.2) k
    { k with cnt := { k.cnt with fabPass := satAdd k.cnt.fabPass passes max32 }, injLane := none })
  s.fabFails pc fs struck

/-! ### The exchange (R85 to R87) -/

/-- Collective `i`. -/
def State.coll (s : State) (i : Nat) : Option Collective := (s.routes.colls.find? (fun e => decide (e.1 = i))).map (fun e => e.2)

/-- Collective `i` replaced. -/
def State.setColl (s : State) (i : Nat) (c : Collective) : State :=
  { s with routes := { s.routes with colls := s.routes.colls.map (fun e => if e.1 = i then (i, c) else e) } }

/-- The participants of a collective. -/
def Collective.parts (c : Collective) : List Nat := (List.range 16).filter (fun n => c.mask.getLsbD n)

/-- Contributions of a participant that have not arrived. -/
def Collective.missing (c : Collective) (lc : Nat) : Nat :=
  16 - (c.got.filter (fun g => decide (g.1 = lc))).length

/-- Whether every contribution has arrived or been filled. -/
def Collective.ready (c : Collective) : Bool :=
  c.parts.all (fun n => decide (c.missing n = 0) || c.filled.any (fun f => decide (f.1 = n)))

/-- The lanes of one slice as a participant receives them (R85): `o` picks the data or the code part of what each sender
sent; a filled contribution is a poisoned 0 (R87), and lanes that the map sends from nowhere are free values (log entry 7)
(DEDUCED, log entry 28). -/
def Collective.receive (c : Collective) (lc s o free : Nat) : List Lane :=
  let from_ := c.sent.map (fun e => (e.lc, e.lanes.toArray))
  (List.range 256).map (fun q =>
    match c.parts.find? (fun n => decide (c.xmap.getD (256 * n + q) 16 = lc)) with
    | some n =>
      if c.got.contains (n, s) then
        match from_.find? (fun e => decide (e.1 = n)) with
        | some e => e.2.getD (o + 256 * s + q) Lane.zero
        | none => Lane.poisoned
      else Lane.poisoned
    | none => Lane.new (BitVec.ofNat 32 (free / 2 ^ (33 * q))) ((free / 2 ^ (33 * q + 32)) % 2 = 1))

/-- Pass 3 of a participant (R86): the received slices, checked at XCX egress (R88), through its pass-3 route, codes through
the same movement (R113); `hit` is an armed fault of its core (DEDUCED, log entry 44). -/
def Collective.passThree (c : Collective) (lc : Nat) (rt : Route) (f : InFlight) (free : Nat) (hit : Option Nat) : Tile × Fails :=
  let d := descD false f.words
  let sop := descS false f.words
  let keep := (f.kept.getD 1 Tile.reset).lanes false
  let data := perSlice false 16 (fun s =>
    let x := ({ out := c.receive lc s 0 free, fails := [] } : Pass).check 1
    let y := (rt.apply (slice keep s) (strike (if s = 0 then hit else none) x.out)).check 0
    { y with fails := x.fails ++ y.fails })
  let out :=
    if hasCodes sop.ty then
      let moved (s : Nat) : List Lane :=
        ((rt.move { out := c.receive lc s 4096 free, fails := [] }).step (rt.mask (List.replicate 256 Lane.zero))).out
      putLaneBytes data.1 (arrivedCodes false (if d.ty = sop.ty then d else sop) 16 moved
        ++ level2Lanes false sop ((f.kept.getD 0 Tile.reset).lanes false))
    else data.1
  let ks := (c.kinds.map (fun e => e.2) ++ c.filled.map (fun e => e.2)).foldl (· ||| ·) f.result.kinds
  (tileOfLanes false d out (ks ||| failKinds data.2) f.result.t, data.2)

/-- XCX_WAIT_LIMIT in 100 ns (R87). -/
def State.xcxLimit (s : State) : Nat := fld (s.reg 0x810010) 0 16

/-- The instruction of a participant that waits in a collective: its physical core and the instruction. -/
def State.waiting (s : State) (i lc : Nat) : Option (Nat × InFlight) :=
  (List.range 18).findSome? (fun pc =>
    ((s.core pc).flight.find? (fun f => decide (f.phase = .xcx i) && decide (f.list.lc = lc))).map (fun f => (pc, f)))

/-- Collectives whose participants are all finished leave the XCX. -/
def State.dropColls (s : State) : State :=
  { s with routes := { s.routes with colls := s.routes.colls.filter (fun e =>
      !(e.2.parts.all (fun n => e.2.done.contains n))) } }

/-- A collective that has everything runs pass 3 for each participant that waits (R86) (DEDUCED, log entry 44). -/
def State.finishColl (s : State) (i : Nat) : State :=
  match s.coll i with
  | none => s
  | some c =>
    if !c.ready then s
    else
      let s := (c.parts.filter (fun n => c.issued.contains n && !c.done.contains n)).foldl (fun s n =>
        match s.waiting i n, c.pass3.find? (fun e => decide (e.1 = n)) with
        | some (pc, f), some (_, rt) =>
          let (v, s) := s.fresh
          let (t, fs) := c.passThree n rt f v (s.core pc).injLane
          let hit := c.sent.any (fun e => e.struck)
          let s := s.onCore pc (fun k =>
            { k with flight := k.flight.map (fun x => if x.id = f.id then { x with result := t, phase := .done } else x) })
          let s := s.fabFails pc (fs.filter (fun e => decide (e.2 = 1))) hit
          let s := s.fabDone pc (16 * rt.passes) [] (fs.filter (fun e => decide (e.2 ≠ 1)))
          s.setColl i { (s.coll i).getD c with done := ((s.coll i).getD c).done ++ [n] }
        | _, _ => s) s
      s.dropColls

/-- Whether a list of a logical core is at its deadline at the present gong, so that it is cut there (R27, R87). -/
def State.cutNow (s : State) (lc : Nat) : Bool :=
  s.cores.any (fun e =>
    (e.2.fg.list.toList ++ e.2.bg.list.toList).any (fun l => decide (l.lc = lc) && l.due s.gong.gsn.toNat))

/-- A collective filled for the participants still absent (R87): `why` 1 wait limit, 2 cut, 3 knell; the one named takes
kind `k`, at a cut the others whose lists are cut at the same gong LATE, and the others MISSING (DEDUCED, log entry 34). -/
def State.fillColl (s : State) (i : Nat) (lc : Option Nat) (k : Kinds) (why : Nat) : State :=
  match s.coll i with
  | none => s
  | some c =>
    let absent := c.parts.filter (fun n => decide (0 < c.missing n) && !c.filled.any (fun f => decide (f.1 = n)))
    let c' := { c with
      issued := match lc with | some n => if c.issued.contains n then c.issued else c.issued ++ [n] | none => c.issued
      done := match lc with | some n => if c.issued.contains n then c.done else c.done ++ [n] | none => c.done
      closed := true, filled := c.filled ++ absent.map (fun n =>
        (n, if lc = some n ∨ lc = none then k else if why = 2 ∧ s.cutNow n then kLate else kMissing)) }
    let n := (absent.map (fun n => c.missing n)).foldl (· + ·) 0
    let s := s.setColl i c'
    let s := { s with routes := { s.routes with xcxMiss := satAdd s.routes.xcxMiss n max32 } }
    let s := s.evt 0x0046 1 [(0, 12, c.route), (12, 16, (absent.map (fun n => 2 ^ n)).foldl (· + ·) 0), (28, 2, why)]
    s.finishColl i

/-- The open collectives of a logical core filled when its list is cut or its core knelled (R87): those in `own`, which
its ended commands issued, and those it has not issued.  A participant of `own` whose contribution is complete is finished
there; with XCX_WAIT_LIMIT at 0 the deadline of its waiting list ends the wait (DEDUCED, log entry 34). -/
def State.fillFor (s : State) (lc : Nat) (own : List Nat) (k : Kinds) (why : Nat) : State :=
  let mine := s.routes.colls.filter (fun e => e.2.mask.getLsbD lc && (own.contains e.1 || !e.2.issued.contains lc))
  let s := (mine.filter (fun e => !e.2.closed)).foldl (fun s e =>
    if 0 < e.2.missing lc then s.fillColl e.1 (some lc) k why
    else if why = 2 ∧ s.xcxLimit = 0 ∧ !e.2.ready then
      let s := s.setColl e.1 { e.2 with done := e.2.done ++ [lc] }
      s.fillColl e.1 none kMissing 1
    else s) s
  ((mine.filter (fun e => own.contains e.1)).foldl (fun s e =>
    match s.coll e.1 with
    | some c => if c.done.contains lc then s else s.setColl e.1 { c with done := c.done ++ [lc] }
    | none => s) s).dropColls

/-! ### The end of a list -/

/-- A context starts its next list, if one waits (R23, R96). -/
def Context.next (x : Context) : Context :=
  match x.queue with
  | l :: q => { Context.reset with list := some l, queue := q }
  | [] => Context.reset

/-- One handle of an ended list (R27 step 3, R41, R96): outputs pushed to their bound queue with a kind, a stale core's push dropped (R134), inputs released. -/
def State.flushHandle (s : State) (lc pc : Nat) (k : Option Kinds) (h : HReg) : State :=
  let q := h.bound.getD 0
  match k, h.input with
  | some k, false =>
    if s.stale pc then (s.unreserve h.reserved).ghost pc
    else
    match s.staleCode h.handle with
    | some c => (s.staleFault c pc lc q h.handle).unreserve h.reserved
    | none =>
      let s := if isPlaceholder h.handle then s else s.markBuffer (hBuf h.handle) k 0xFFFF
      let hd := if isPlaceholder h.handle then h.handle else hWithKinds h.handle (sideKinds (s.buffer (hBuf h.handle)).side)
      s.push q hd (s.buffer (hBuf h.handle)).side h.reserved
  | _, _ =>
    (s.unreserve h.reserved).releaseHandle h.handle pc lc q

/-- Row-cache lines of a pool buffer invalidated when the core gives up its handle (R58). -/
def State.dropLines (s : State) (pc b : Nat) : State :=
  s.onCore pc (fun k => { k with cache := k.cache.filter (fun l =>
    !(decide (l.space = spPool) && decide (l.addr / 4096 = b))) })

/-- A tile instruction in flight abandoned for good (R51, R52): cut 3, knell 4, error 5 (DEDUCED, log entry 34). -/
def State.abandonOne (s : State) (pc cause : Nat) (f : InFlight) : State :=
  let s := (s.releaseMallet f.mallet).dropPartial pc f.id
  let s := { s with mp := { s.mp with reqs := s.mp.reqs.filter (fun r =>
    !(decide (r.who = Requester.tst pc f.id) && !r.onPort) && !((decide (r.who = Requester.row pc f.id) || decide (r.who = Requester.spilled pc f.id)) && !r.onPort)) } }
  let row := match f.phase with | .rows ((_, m) :: _) => m | _ => 0
  let s := s.onCore pc (fun k =>
    let k := { k with flight := k.flight.filter (fun x => decide (x.id ≠ f.id)) }
    match f.slot with | some x => k.unlatch x | none => k)
  s.abandonRec pc f.list.lc cause (recOpc f.words) row (f.dest.getD 0)

/-- A context's window rows discarded and scans reset when its list stops (R197). -/
def State.stopPrefetch (s : State) (lc : Nat) (c : Ctx) : State :=
  { s with st := { s.st with chans := s.st.chans.map (fun e =>
      if e.2.valid ∧ e.2.lc = lc ∧ e.2.bg = decide (c = .bg) then
        (e.1, { e.2 with win := [], scan := 0, scanRow := 0, atStop := false, partRd := [] })
      else e) } }

/-- A list ended before its END (R27 steps 2 and 3, R41, R105, R192): its instructions are abandoned, its output handles
flow on with kind `k` (at a knell they go back, R136), its inputs go back, its mallets are released; the context starts its
next list. -/
def State.stopList (s : State) (pc : Nat) (c : Ctx) (k : Kinds) (cause : Nat) : State :=
  let x := (s.core pc).ctx c
  match x.list with
  | none => s
  | some l =>
    let own := ((s.core pc).inFlight c).filterMap (fun f => match f.phase with | .xcx i => some i | _ => none)
    let s := ((s.core pc).inFlight c).foldl (fun s f => s.abandonOne pc cause f) s
    let s := x.hregs.foldl (fun s h =>
      let s := if hExternal h.2.handle then s else s.dropLines pc (hBuf h.2.handle)
      s.flushHandle l.lc pc (if cause = 4 then none else some k) h.2) s
    let s := (s.releaseMallet x.held).releaseMallet x.granted
    let s := s.withdraw (fun r => decide (r.pc = pc) && decide (r.ctx = c))
    let s := if cause = 4 then s.fillFor l.lc own kFault 3 else s.fillFor l.lc own kLate 2
    let s := s.stopPrefetch l.lc c
    let s := s.onLc l.lc (fun n => { n with mustDone := if c = .fg ∧ cause = 5 then s.nowNs else n.mustDone })
    (s.unhold pc c).onCtx pc c (fun x => x.next)

/-- TRF_SHAPE for operand `o` of type `t` (R41, R101). -/
def State.shapeRec (s : State) (pc lc opc o t : Nat) : State :=
  s.evt 0x0031 pc [(0, 5, pc), (5, 4, lc), (12, 8, opc), (20, 4, o), (24, 4, t), (28, 1, b2n (s.core pc).part)]

/-- The logical core of a context's list. -/
def Context.lc (x : Context) : Nat := match x.list with | some l => l.lc | none => 0

/-- The list of an erring command abandoned with FAULT outputs (R41, R105); a tile instruction counts as abandoned too
(DEDUCED, log entry 34). -/
def State.errorStop (s : State) (pc : Nat) (c : Ctx) (r : List Word) : State :=
  let x := (s.core pc).ctx c
  let s := if isControl (recOpc r) then s else s.abandonRec pc x.lc 5 (recOpc r) 0 (recD r)
  s.stopList pc c kFault 5

/-- A command error (R105). -/
def State.cmdError (s : State) (pc : Nat) (c : Ctx) (r : List Word) (cause : Nat) : State :=
  let x := (s.core pc).ctx c
  let s := s.evt 0x0050 pc [(0, 5, pc), (5, 4, x.lc), (9, 1, b2n (decide (c = .bg))), (12, 8, recOpc r), (20, 4, cause),
    (24, 14, x.index)]
  s.errorStop pc c r

/-- A shape error (R41). -/
def State.shapeError (s : State) (pc : Nat) (c : Ctx) (r : List Word) (o t : Nat) : State :=
  let x := (s.core pc).ctx c
  (s.shapeRec pc x.lc (recOpc r) o t).errorStop pc c r

/-- A route error (R92, R93): reason 1 not valid, 2 KIND, 3 WIDTH, 4 TAG. -/
def State.routeError (s : State) (pc : Nat) (c : Ctx) (r : List Word) (id reason : Nat) : State :=
  let x := (s.core pc).ctx c
  (s.evt 0x0043 pc [(0, 5, pc), (5, 4, x.lc), (12, 8, recOpc r), (20, 12, id), (32, 3, reason)]).errorStop pc c r

/-! ### The issue point -/

/-- The context's own conditions for issue (R13, R30, R59): a core out of reset in a region in RUN with a list
(DEDUCED, log entry 15). -/
def State.canRun (s : State) (pc : Nat) : Bool :=
  s.hasCore pc && !(s.core pc).held && decide ((s.region (regionOfCore pc)).state = .run)
    && (s.region (regionOfCore pc)).entering.isNone && !(s.region (regionOfCore pc)).applying

/-- The issue point of a context: its list and record, where it can run; a list released at the gong at which the map wrote
the partition starts after the change applies (R61) (DEDUCED, log entry 15). -/
def State.issuePoint (s : State) (pc : Nat) (c : Ctx) : Option (ListRef × List Word × Bool) :=
  if s.canRun pc then
    match ((s.core pc).ctx c).list with
    | some l =>
      let r := s.record l.lc l.start ((s.core pc).ctx c).index
      if l.after && (s.core pc).partPend.isSome then none else some (l, r.1, r.2)
    | none => none
  else none

/-- Whether a record gives a reserved field a value other than 0 (R6, R101, R103, R104, R108 to R110) (DEDUCED, log entry 12). -/
def reservedSet (r : List Word) : Bool :=
  let o := recOpc r
  let desc (w : Word) : Bool := decide (fld w 21 3 ≠ 0) || decide (fld w 26 6 ≠ 0)
  bit (rw r 6) 15 ||
    (if isControl o then false
     else if o = 0x01 then desc (rw r 1) || decide (rw r 2 ≠ 0) || decide (fld (rw r 3) 22 10 ≠ 0)
     else if o = 0x02 then (decide (recShp r ≠ 2) && desc (rw r 2)) || decide (rw r 1 ≠ 0) || decide (fld (rw r 3) 22 10 ≠ 0)
     else if o = 0x03 then false
     else if 0x18 ≤ o ∧ o ≤ 0x1B then desc (rw r 1)
     else
       desc (rw r 1) || (decide (recShp r ≠ 2) && desc (rw r 2)) ||
         (!(decide (o = 0x11 ∨ o = 0x1C ∨ o = 0x1D)) && decide (fld (rw r 5) 16 16 ≠ 0)))

/-! ### Mallets (R107, R130) -/

/-- The class a heavy command asks for (R107). -/
def wclass (r : List Word) : Nat := max 1 (recWclass r)

/-- The outcome of a heavy command's need of a mallet. -/
inductive Need where
  /-- runs under this mallet of its own, or under a held one -/
  | go (m : Option Mallet)
  /-- waits under this cause; a request joins the queue where true -/
  | wait (cause : Nat) (ask : Bool)
  deriving DecidableEq, Repr

/-- What a heavy command meets (R25, R107, R130). -/
def State.need (s : State) (pc : Nat) (c : Ctx) (l : ListRef) (cls : Nat) : Need :=
  let x := (s.core pc).ctx c
  let curfew := s.curfewHolds l
  match x.held with
  | some m =>
    if cls ≤ m.cls then (if curfew then .wait 10 false else .go none)
    else
      match x.granted with
      | some g => .go (some g)
      | none => if curfew then .wait 10 false else .wait 3 (!x.requested)
  | none =>
    match x.granted with
    | some g => .go (some g)
    | none => if curfew then .wait 10 false else .wait 3 (!x.requested)

/-- A request joins its queue (R319). -/
def State.askMallet (s : State) (pc : Nat) (c : Ctx) (cls : Nat) (h : Bool) : State :=
  let q : AcReq := { pc := pc, ctx := c, cls := cls, hold := h }
  let s := s.onCtx pc c (fun x => { x with requested := true })
  match c with
  | .fg => { s with pwr := { s.pwr with fgQ := s.pwr.fgQ ++ [q] } }
  | .bg => { s with pwr := { s.pwr with bgQ := s.pwr.bgQ ++ [q] } }

/-! ### A tile instruction issues -/

/-- Whether a context is in flight or waits: both contexts share 4 tile instructions (R23). -/
def Core.full (k : Core) : Bool := decide (4 ≤ k.flight.length)

/-- 4 KB regions of a memory space that a row touches: (space, number); spaces 0 staging, 1 pool (R132). -/
abbrev Regions := List (Nat × Nat)

/-- Whether two sets of regions meet. -/
def meets (a b : Regions) : Bool := a.any (fun x => b.contains x)

/-- Whether earlier instructions of the context hold a region that a command reads or writes (R132): a read waits for
writes, a write for both. -/
def Core.regionBusy (k : Core) (c : Ctx) (reads writes : Regions) : Bool :=
  (k.inFlight c).any (fun f => meets f.writes (reads ++ writes) || meets f.reads writes || meets f.reads reads)

/-- A background TLD that waits on rows gives up its commit slot to the foreground (R52).  TLD_FAULT.ROW and the record give the
memory row, also for a scale or exponent row (DESIGN CHOICE, log entry 93). -/
def State.preempt (s : State) (pc : Nat) : State :=
  match (s.core pc).flight.find? (fun f => decide (f.ctx = .bg) && decide (recOpc f.words = 0x01) &&
      (match f.phase with | .rows (_ :: _) => true | _ => false)) with
  | none => s
  | some f =>
    let row := match f.phase with | .rows ((_, m) :: _) => m | _ => 0
    let s := s.onFlight pc f.id (fun f => { f with phase := .restart true false, slot := none })
    s.abandonRec pc f.list.lc 2 0x01 row (f.dest.getD 0)

/-- A tile instruction put in flight with its result or its phase (R50, R95) (DESIGN CHOICE, log entry 16). -/
def State.launch (s : State) (pc : Nat) (c : Ctx) (l : ListRef) (r : List Word) (dest : Option Nat) (srcs : List Nat)
    (reads writes : Regions) (m : Option Mallet) (res : Tile) (st : CvtStats) (ph : Phase) (kept : List Tile := []) : State :=
  let k := s.core pc
  let slot := match dest with | some _ => k.freeSlots.head? | none => none
  let f : InFlight :=
    { id := k.nextId, ctx := c, list := l, index := (k.ctx c).index, words := r, dest := dest, slot := slot, result := res,
      srcs := srcs.map (fun x => k.slotOfReg x), reads := reads, writes := writes, phase := ph, mallet := m, stats := st,
      rerun := false, late := false, noted := false, kept := kept }
  let s := s.onCore pc (fun k =>
    let k := { k with flight := k.flight ++ [f], nextId := k.nextId + 1 }
    match slot with | some x => k.unlatch x | none => k)
  let s := if m.isSome then s.onCtx pc c (fun x => { x with granted := none, requested := false }) else s
  s.advance pc c

/-- The waits of every tile instruction before it may act (R23, R50, R59, R131): a partition drain, four in flight, the
registers it reads, a commit slot.  Answers the stall cause (DEDUCED, log entry 38). -/
def State.tileWait (s : State) (pc : Nat) (c : Ctx) (dest : Option Nat) (srcs : List Nat) : Option Nat :=
  let k := s.core pc
  if k.partPend.isSome then some 15
  else if k.full then some 15
  else if srcs.any (fun r => k.writing c r) then some 0
  else if dest.isSome && k.freeSlots.isEmpty then some 6
  else none

/-- A tile instruction that meets no wait acts; a foreground one short of a commit slot preempts (R52). -/
def tileGate (pc : Nat) (c : Ctx) (l : ListRef) (r : List Word) (dest : Option Nat) (srcs : List Nat) (heavy : Bool)
    (act : Option Mallet → State → State) (s : State) : State :=
  let s := if s.tileWait pc c dest srcs = some 6 ∧ c = .fg then s.preempt pc else s
  match s.tileWait pc c dest srcs with
  | some w => s.hold pc c w 0
  | none =>
    if heavy then
      match s.need pc c l (wclass r) with
      | .go m => act m s
      | .wait w ask => (if ask then s.askMallet pc c (wclass r) false else s).hold pc c w 0
    else act none s

end Sys2Proof.Machine
end

