-- ==== Sys2Proof/Machine/Prefetch.lean ====
section
/-! DEFINITION. Prefetch (R185, R186) and the issue of one record at the issue point of a context (R94 to R98, R105). -/

namespace Sys2Proof.Machine

/-! ### Prefetch -/

/-- A read burst of a channel sent. -/
def State.sendRead (s : State) (c : Nat) (b : Nat × Nat × Nat) : State :=
  s.newReq (.chan c b.2.2 0) (s.chan c).port (some c) b.1 (4 * b.2.1) false [] []

/-- A row wanted by the scan: merged with the partial burst it follows within one 4 KB block and the channel's share, sent
when the block ends (R186, R274). -/
def State.scanRead (s : State) (c i va : Nat) : State :=
  let ch := s.chan c
  let (s, b) : State × (Nat × Nat × Nat) :=
    match ch.partRd with
    | (a, n, k) :: _ =>
      if a + 256 * n = va ∧ va % 4096 ≠ 0 ∧ 4 * (n + 1) ≤ ch.tags then (s, (a, n + 1, k))
      else (s.sendRead c (a, n, k), (va, 1, i))
    | [] => (s, (va, 1, i))
  if (b.1 + 256 * b.2.1) % 4096 = 0 then
    let s := s.setChan c { s.chan c with partRd := [] }
    s.sendRead c b
  else s.setChan c { s.chan c with partRd := [b] }

/-- The context that a channel serves: its physical core and context, where it runs a list and the core serves. -/
def State.chanCtx (s : State) (c : Nat) : Option (Nat × Ctx × ListRef) :=
  let ch := s.chan c
  let x : Ctx := if ch.bg then .bg else .fg
  match (s.lc ch.lc).pc with
  | some pc => (((s.core pc).ctx x).list).map (fun l => (pc, x, l))
  | none => none

/-- Whether a record's HOST rows can be fetched: addresses aligned and within their 4 KB blocks (R108). -/
def hostRowOk (va : Nat) : Bool := decide (va % 64 = 0) && decide (va % 4096 + 256 ≤ 4096) && decide (va + 256 ≤ 2 ^ 57)

/-- Where the window of a channel begins in the pool (R185, R188): its partition, or, where that lies within a POOL pair of its
logical core, the half that is the back half now (DEDUCED, log entry 33). -/
def State.windowBase (s : State) (c : Nat) : Nat :=
  let ch := s.chan c
  let p := s.part ch.part
  match (List.range 16).find? (fun k =>
    let x := s.pairRec ch.lc k
    prValid x && decide (prSpace x = 1) && decide (prBase x ≤ 4096 * p.base)
      && decide (4096 * (p.base + p.size) ≤ prBase x + 2 * prHalf x)) with
  | some k =>
    let x := s.pairRec ch.lc k
    prBase x + (if s.role ch.lc k then 0 else prHalf x)
  | none => 4096 * p.base

/-- The place for the next row of a channel's window: the lowest that no row of the window has (DESIGN CHOICE, log entry 8). -/
def State.windowPlace (s : State) (c : Nat) : Nat :=
  let ch := s.chan c
  let at_ (j : Nat) : Nat := s.windowBase c + 256 * j
  at_ (((List.range (16 * ch.window)).find? (fun j => !ch.win.any (fun w => decide (w.place = at_ j)))).getD 0)

/-- Whether a row of a channel waits under the WAIT policy: the scan holds there (R278). -/
def State.chanFaulted (s : State) (c : Nat) : Bool :=
  s.mp.reqs.any (fun q => q.wait.isSome && (match q.who with | .chan n _ _ => decide (n = c) | _ => false))

/-- The scan of a channel from record `i`, row `j` (R185, R278); each step passes a record or fetches a row (DEDUCED, log entry 33). -/
def State.scanFrom (c pc : Nat) (x : Ctx) (l : ListRef) : Nat → State → State
  | 0, s => s
  | n + 1, s =>
    let ch := s.chan c
    let k := s.core pc
    let idx := (k.ctx x).index
    let i := max ch.scan idx
    let j := if ch.scan < idx then 0 else ch.scanRow
    let (r, bad) := s.record l.lc l.start i
    let stop := s.setChan c { ch with scan := i, scanRow := j, atStop := true }
    let next (s : State) : State := State.scanFrom c pc x l n (s.setChan c { s.chan c with scan := i + 1, scanRow := 0, atStop := false })
    if bad ∨ 16384 ≤ i ∨ s.chanFaulted c then stop
    else if recOpc r = 0x3F ∨ recOpc r = 0x30 then stop
    else if recOpc r = 0x31 then
      if condHolds (fld (rw r 3) 16 2) (s.sync (fld (rw r 3) 0 15)).count (rw r 4) then next s else stop
    else if recOpc r = 0x01 ∧ mvSpace r = 2 ∧ mvChan r = c ∧ shapeOk k.part (descD k.part r) then
      let rows := movedRows k.part (descD k.part r)
      match rows[j]? with
      | none => next s
      | some (_, m) =>
        let va := rowOff r m + 2 ^ 32 * mvAddrHi r
        if 16 * ch.window ≤ ch.win.length then stop
        else if !hostRowOk va then next s
        else
          let w : WRow := { index := i, row := m, va := va, place := s.windowPlace c, ready := false, kinds := 0 }
          let s := s.setChan c { ch with scan := i, scanRow := j + 1, atStop := false, win := ch.win ++ [w] }
          State.scanFrom c pc x l n (s.scanRead c i va)
    else next s

/-- Window rows that no TLD can take any more are discarded (R185): those of records passed and not in flight. -/
def State.trimWindow (s : State) (c pc : Nat) (x : Ctx) : State :=
  let ch := s.chan c
  let k := s.core pc
  s.setChan c { ch with win := ch.win.filter (fun w =>
    decide ((k.ctx x).index ≤ w.index) || (k.inFlight x).any (fun f => decide (f.index = w.index))) }

/-- Every channel scans as far as it can (R185), while the spine runs and no quiesce holds it (R282). -/
def State.prefetch (s : State) : State :=
  if (s.region 6).state ≠ .run ∨ s.mp.quiesce ∨ s.mp.rstq then s
  else
    ((s.st.chans.filter (fun e => e.2.valid)).map (fun e => e.1)).foldl (fun s c =>
      match s.chanCtx c with
      | some (pc, x, l) => (State.scanFrom c pc x l 20000 (s.trimWindow c pc x))
      | none => s) s

/-! ### The issue of a record -/

/-- The row of an opcode at the issue point of a context.  `body` acts where the record is of that opcode; an opcode that
is in no table is command error 1 whichever row names it; another opcode's record leaves the state as it is.  BARRIER
(R98) and the list's length (R94) are checked here, and a record in poison form is a command error (R329)
(DEDUCED, log entry 15). -/
def issue (opc : Nat) (body : Nat → Ctx → ListRef → List Word → State → State) (pc : Nat) (c : Ctx) (s : State) : State :=
  match s.issuePoint pc c with
  | none => s
  | some (l, r, bad) =>
    let idx := ((s.core pc).ctx c).index
    if bad ∨ !opcodes.contains (recOpc r) then settle s (s.cmdError pc c r 1)
    else if recOpc r ≠ opc then s
    else if recBarrier r ∧ !s.ctxDone pc c then s.hold pc c 15 0
    else if !shpOk r then settle s (s.cmdError pc c r 2)
    else if !flagsOk r then settle s (s.cmdError pc c r 3)
    else if 16383 ≤ idx ∧ opc ≠ 0x3F then settle s (s.cmdError pc c r 4)
    else settle s (body pc c l r s).prefetch

end Sys2Proof.Machine
end

