-- ==== Sys2Proof/Machine/Move.lean ====
section
/-! DEFINITION. Movement commands: addressing (R108), TLD (R109, R55, R56), TST (R110, R54), TMOV (R111). -/

namespace Sys2Proof.Machine

/-- The 4 KB regions an access touches (R132), host memory behind a pair or a handle included; none in HOST space. -/
def State.regionsOf (s : State) (pc : Nat) (c : Ctx) (lc : Nat) (r : List Word) (rows : List (Nat × Nat)) : Regions :=
  (rows.filterMap (fun x =>
    match s.rowLoc pc c lc r x.2 with
    | .staging a => some (0, a / 4096)
    | .pool a => some (1, a / 4096)
    | .host a _ => if mvSpace r = 2 then none else some (2, a / 4096)
    | .dead _ => none)).dedup

/-- Register contents of a context. -/
def Context.hreg (x : Context) (h : Nat) : Option HReg := (x.hregs.find? (fun e => decide (e.1 = h))).map (fun e => e.2)

/-- Handle register `h` set or emptied, in rising order. -/
def Context.setHreg (x : Context) (h : Nat) (v : Option HReg) : Context :=
  { x with hregs := x.hregs.filter (fun e => decide (e.1 < h)) ++ (match v with | some y => [(h, y)] | none => [])
      ++ x.hregs.filter (fun e => decide (h < e.1)) }

/-- Handle registers a POOL access reaches (R108). -/
def hregsOf (r : List Word) (rows : List (Nat × Nat)) : List Nat :=
  (rows.map (fun x => mvH r + rowOff r x.2 / 4096)).dedup

/-- Whether a queue is defined with the context as its producer (R174). -/
def State.producer (s : State) (q lc : Nat) (c : Ctx) : Bool :=
  (s.queue q).valid && decide ((s.queue q).producer = ctxEndpoint lc c)

/-- Whether a queue is defined with the context as its consumer. -/
def State.consumer (s : State) (q lc : Nat) (c : Ctx) : Bool :=
  (s.queue q).valid && decide ((s.queue q).consumer = ctxEndpoint lc c)

/-- Command errors of an access (R105, R108): (broken, cause) (DEDUCED, log entry 88).  ALLOC set on a TLD, or on a TST whose
SPACE is not POOL, is cause 8 (DESIGN CHOICE, log entry 96). -/
def State.accessErrs (s : State) (pc : Nat) (c : Ctx) (lc : Nat) (r : List Word) (rows : List (Nat × Nat)) (store : Bool) :
    List (Bool × Nat) :=
  let x := (s.core pc).ctx c
  let sp := mvSpace r
  let offs := rows.map (fun e => rowOff r e.2)
  let pr := s.pairRec lc (mvPair r)
  let alloc := store && mvAlloc r
  let hs := hregsOf r rows
  [ (decide (sp = 1) && !alloc && hs.any (fun h => (x.hreg h).isNone), 5),
    (decide (sp = 3) && !prValid pr, 6),
    (decide (mvAddr r % 64 ≠ 0), 7),
    (decide (sp ≠ 2 ∧ mvAddrHi r ≠ 0), 7),
    (offs.any (fun a => decide (4096 < (a + (if sp = 3 then prBase pr else 0)) % 4096 + 256)), 7),
    (decide (sp = 0) && offs.any (fun a => decide (0xFC000 < a + 256)), 7),
    (decide (sp = 1) && hs.any (fun h => decide (mvH r + 3 < h ∨ 15 < h)), 7),
    (decide (sp = 2) && offs.any (fun a => decide (2 ^ 57 < a + 2 ^ 32 * mvAddrHi r + 256)), 7),
    (decide (sp = 3) && offs.any (fun a => decide (prHalf pr < a + 256)), 7),
    (store && decide (sp = 1) && !alloc && hs.any (fun h => match x.hreg h with | some y => hExternal y.handle | none => false), 7),
    (mvAlloc r && !(store && decide (sp = 1)), 8) ]

/-- The lowest cause among the rules a record breaks (R105). -/
def lowestErr (es : List (Bool × Nat)) : Option Nat :=
  (es.filter (fun e => e.1)).foldl (fun (a : Option Nat) e =>
    match a with | some x => some (min x e.2) | none => some e.2) none

/-- The first operand with a bad register or shape (R41): (bad, operand number, type). -/
def firstShape (es : List (Bool × Nat × Nat)) : Option (Nat × Nat) :=
  (es.find? (fun e => e.1)).map (fun e => e.2)

/-- Errors judged at issue (R105): a command error first, then a shape error, then `k` (DEDUCED, log entry 38). -/
def judge (pc : Nat) (c : Ctx) (r : List Word) (errs : List (Bool × Nat)) (shapes : List (Bool × Nat × Nat))
    (k : State → State) (s : State) : State :=
  match lowestErr errs with
  | some e => s.cmdError pc c r e
  | none =>
    match firstShape shapes with
    | some (o, t) => s.shapeError pc c r o t
    | none => k s

/-- Errors of a tile instruction judged when it issues, after the wait `w` that holds it there, if any (R41, R105)
(DEDUCED, log entry 38). -/
def judgeTile (w : Option Nat) (pc : Nat) (c : Ctx) (r : List Word) (errs : List (Bool × Nat))
    (shapes : List (Bool × Nat × Nat)) (k : State → State) (s : State) : State :=
  match w with
  | none => judge pc c r errs shapes k s
  | some x =>
    if (lowestErr errs).isSome ∨ (firstShape shapes).isSome then
      (if x = 6 ∧ c = .fg then s.preempt pc else s).hold pc c x 0
    else k s

/-- Whether a register and its descriptor are bad in a partition. -/
def badOperand (p : Bool) (reg : Nat) (d : Desc) : Bool := decide (regCount p ≤ reg) || !shapeOk p d

/-! ### Reading rows -/

/-- A row as it arrives: 256 bytes, its poisoned words, the kinds it brings. -/
structure RowData where
  bytes : List Byte
  bad   : List Nat
  kinds : Kinds
  deriving DecidableEq, Repr

/-- A row of zeros in poison form. -/
def RowData.lost (k : Kinds) : RowData := { bytes := List.replicate 256 0, bad := List.range 8, kinds := k }

/-- A row of an on-chip memory. -/
def memRow (m : Memory) (a : Nat) : RowData :=
  let bad := (List.range 8).filter (fun k => decide ((a + 32 * k) / 32 ∈ m.poison) || decide ((a + 32 * k + 31) / 32 ∈ m.poison))
  { bytes := m.read a 256, bad := bad, kinds := if bad.isEmpty then 0 else kEcc }

/-- The window row of a channel at an address. -/
def Channel.row (c : Channel) (va : Nat) : Option WRow := c.win.find? (fun w => decide (w.va = va))

/-- A row if it is at hand (R55, R185): from the row cache, on-chip memory or the prefetch window. -/
def State.rowAt (s : State) (pc : Nat) (loc : Loc) : Option RowData :=
  let cached (sp a : Nat) : Option RowData :=
    ((s.core pc).line sp a).map (fun l =>
      { bytes := l.bytes, bad := l.bad, kinds := if l.bad.isEmpty then l.kinds else if l.kinds = 0 then kEcc else l.kinds })
  match loc with
  | .staging a => (cached spStaging a).or (some (memRow (s.core pc).staging a))
  | .pool a => (cached spPool a).or (some (memRow s.st.pool a))
  | .host va ch =>
    match (s.chan ch).row va with
    | some w =>
      if w.ready then
        let x := memRow s.st.pool w.place
        some { x with kinds := if w.kinds = 0 then x.kinds else w.kinds }
      else none
    | none => cached spHost va
  | .dead k => some (RowData.lost k)

/-- A row that holds a poisoned word is taken as poisoned in every word (R56). -/
def RowData.whole (x : RowData) : RowData := if x.bad.isEmpty then x else { x with bad := List.range 8 }

/-- The rows that a SIDE word's PMAP marks, over the bytes of a row at an offset of its buffer (R196). -/
def pmapHits (side : BitVec 128) (off : Nat) : List Nat :=
  (List.range 8).filter (fun k =>
    (sidePmap side).testBit ((off % 4096 + 32 * k) / 256) || (sidePmap side).testBit ((off % 4096 + 32 * k + 31) / 256))

/-- The SIDE word of a handle register: that of its buffer, or its own for a placeholder or a stale handle (R171, R172). -/
def State.sideNow (s : State) (h : HReg) : BitVec 128 :=
  if (s.staleCode h.handle).isSome ∨ isPlaceholder h.handle then h.side else (s.buffer (hBuf h.handle)).side

/-- A row with the poison of the SIDE word it comes under: every word of a row whose PMAP bit is 1 (R196). -/
def State.rowUnder (s : State) (pc : Nat) (c : Ctx) (r : List Word) (i : Nat) (x : RowData) : RowData :=
  if mvSpace r = 1 then
    match ((s.core pc).ctx c).hreg (mvH r + rowOff r i / 4096) with
    | some h =>
      let hit := pmapHits (s.sideNow h) (rowOff r i)
      { x with bad := (x.bad ++ hit).dedup.mergeSort (fun a b => decide (a ≤ b)) }
    | none => x
  else x

/-- The tile with one register row written. -/
def Tile.putRow (p : Bool) (t : Tile) (reg : Nat) (x : RowData) : Tile :=
  let ws := padTo (64 * rmax p) 0 t.words
  { t with
    words := ws.take (64 * reg) ++ padTo 64 0 (wordsOfBytes x.bytes) ++ ws.drop (64 * reg + 64)
    bad := t.bad ++ x.bad.map (fun b => 8 * reg + b)
    kinds := t.kinds ||| x.kinds }

/-- The register of a completed load: bytes outside the shape 0, poison in order (R40). -/
def finishLoad (p : Bool) (d : Desc) (t : Tile) : Tile :=
  let ws := padTo (64 * rmax p) 0 t.words
  mkTile p ((indexed 0 ws).map (fun e => cleanWord p d e.1 e.2))
    ((t.bad.filter (fun b => (List.range 8).any (fun k => wordInShape p d (8 * b + k)))).dedup.mergeSort
      (fun a b => decide (a ≤ b))) t.kinds t.t

/-- Row requests of a TLD for rows in host memory that are neither cached nor in a window: up to 16 outstanding, in row
order (R55). -/
def State.requestRows (s : State) (pc id : Nat) : State :=
  match (s.core pc).fly id with
  | none => s
  | some f =>
    match f.phase with
    | .rows need =>
      need.foldl (fun s x =>
        let out := (s.mp.reqs.filter (fun q => decide (q.who = Requester.row pc id ∨ q.who = Requester.spilled pc id))).length
        match s.rowLoc pc f.ctx f.list.lc f.words x.2 with
        | .host va ch =>
          let asked := s.mp.reqs.any (fun q =>
            decide (q.who = Requester.row pc id ∨ q.who = Requester.spilled pc id) && decide (q.va = va))
          if 16 ≤ out ∨ asked ∨ ((s.core pc).line spHost va).isSome ∨ ((s.chan ch).row va).isSome then s
          else
            let who := if mvSpace f.words = 1 then Requester.spilled pc id else Requester.row pc id
            s.newReq who (s.chan ch).port (some ch) va 4 false [] []
        | _ => s) s
    | _ => s

/-- Stale handles that a command goes through: DET_GEN and the record, once for each register (R170). -/
def State.reportStale (s : State) (pc : Nat) (c : Ctx) (lc : Nat) (hs : List Nat) : State :=
  hs.foldl (fun s h =>
    match ((s.core pc).ctx c).hreg h with
    | some y =>
      match s.staleCode y.handle with
      | some e => s.staleFault e pc lc (y.bound.getD 0) y.handle
      | none => s
    | none => s) s

/-- The poison kinds and the scale that a TLD's handles bring (R139, R196). -/
def State.sideOf (s : State) (pc : Nat) (c : Ctx) (r : List Word) (hs : List Nat) : Kinds × Int :=
  let x := (s.core pc).ctx c
  let ks := hs.map (fun h => match x.hreg h with | some y => sideKinds (s.sideNow y) | none => 0)
  (ks.foldl (· ||| ·) 0, match x.hreg (mvH r) with | some y => sideScale (s.sideNow y) | none => 0)

/-- A TLD acts: it is launched waiting for its rows, and host rows are requested. -/
def startTld (pc : Nat) (c : Ctx) (l : ListRef) (r : List Word) (d : Desc) (s : State) : State :=
  let p := (s.core pc).part
  let rows := movedRows p d
  let s := if mvSpace r = 1 then s.reportStale pc c l.lc (hregsOf r rows) else s
  let (k, t) := if mvSpace r = 1 then s.sideOf pc c r (hregsOf r rows) else (0, 0)
  let regs := s.regionsOf pc c l.lc r rows
  let id := (s.core pc).nextId
  let s := s.launch pc c l r (some (recD r)) [] regs [] none
    { Tile.reset with kinds := k, t := if tyScaled d.ty then t else 0 } CvtStats.zero (.rows rows)
  s.requestRows pc id

/-- TLD (R109). -/
def bodyTld (pc : Nat) (c : Ctx) (l : ListRef) (r : List Word) (s : State) : State :=
  let p := (s.core pc).part
  let d := descD p r
  let rows := if shapeOk p d then movedRows p d else []
  let regs := s.regionsOf pc c l.lc r rows
  let w := if (s.core pc).regionBusy c regs [] then some 0 else s.tileWait pc c (some (recD r)) []
  judgeTile w pc c r (s.accessErrs pc c l.lc r rows false) [(badOperand p (recD r) d, 0, d.ty)]
    (fun s =>
      if (s.core pc).regionBusy c regs [] then s.hold pc c 0 0
      else tileGate pc c l r (some (recD r)) [] false (fun _ s => startTld pc c l r d s) s) s

/-! ### TST -/

/-- A row written to an on-chip memory; the row cache line of that address takes the data too (R58). -/
def State.storeRow (s : State) (pc : Nat) (loc : Loc) (x : RowData) : State :=
  let fix (sp a : Nat) (s : State) : State :=
    s.onCore pc (fun k => { k with cache := k.cache.map (fun l =>
      if l.space = sp ∧ l.addr = a then { l with bytes := x.bytes, bad := x.bad, kinds := x.kinds } else l) })
  match loc with
  | .staging a =>
    fix spStaging a (s.onCore pc (fun k => { k with staging := k.staging.writeRow a x.bytes (x.bad.map (fun b => a / 32 + b)) }))
  | .pool a =>
    fix spPool a { s with st := { s.st with pool := s.st.pool.writeRow a x.bytes (x.bad.map (fun b => a / 32 + b)) } }
  | .host va _ => fix spHost va s
  | .dead _ => s

/-- A register row as it is stored. -/
def Tile.rowOut (t : Tile) (reg : Nat) : RowData :=
  { bytes := padTo 256 0 (bytesOfWords ((t.words.drop (64 * reg)).take 64)),
    bad := (t.bad.filter (fun b => decide (8 * reg ≤ b) && decide (b < 8 * reg + 8))).map (fun b => b - 8 * reg),
    kinds := if t.bad.any (fun b => decide (8 * reg ≤ b) && decide (b < 8 * reg + 8)) then kEcc else 0 }

/-- Contiguous rows of one TST merged into bursts of at most 64 beats within a 4 KB block (R186). -/
def mergeRows : List (Nat × RowData) → List (Nat × List Byte × List Nat) → List (Nat × List Byte × List Nat)
  | [], acc => acc.reverse
  | (va, x) :: t, acc =>
    match acc with
    | (a, bs, bad) :: rest =>
      if a + bs.length = va ∧ bs.length < 4096 ∧ va % 4096 ≠ 0 then
        mergeRows t ((a, bs ++ x.bytes, bad ++ x.bad.map (fun b => b + bs.length / 32)) :: rest)
      else mergeRows t ((va, x.bytes, x.bad) :: acc)
    | [] => mergeRows t [(va, x.bytes, x.bad)]

/-- A write burst sent for a TST. -/
def State.sendWrite (s : State) (pc id ch : Nat) (b : Nat × List Byte × List Nat) : State :=
  s.newReq (Requester.tst pc id) (s.chan ch).port (some ch) b.1 (b.2.1.length / 64) true b.2.1 b.2.2

/-- Host rows of a TST sent; a last burst that could still grow waits for BURST_FLUSH (R186). -/
def State.sendRows (s : State) (pc id ch : Nat) (rows : List (Nat × RowData)) : State :=
  let bs := mergeRows rows []
  match bs.reverse with
  | [] => s
  | last :: before =>
    let s := before.reverse.foldl (fun s b => s.sendWrite pc id ch b) s
    if (last.1 + last.2.1.length) % 4096 = 0 then s.sendWrite pc id ch last
    else
      let x := s.chan ch
      s.setChan ch { x with partWr := x.partWr ++ [(last.1, last.2.1, last.2.2, pc, id)] }

/-- Whether a TST still waits for write responses (R54, R133). -/
def State.tstPending (s : State) (pc id : Nat) : Bool :=
  s.mp.reqs.any (fun q => decide (q.who = Requester.tst pc id))
    || s.st.chans.any (fun e => e.2.partWr.any (fun w => decide (w.2.2.2.1 = pc ∧ w.2.2.2.2 = id)))

/-- The rows of a TST stored where they go: on chip at once, host rows through the memory ports (DEDUCED, log entry 17). -/
def State.storeAll (s : State) (pc : Nat) (c : Ctx) (lc id : Nat) (r : List Word) (t : Tile) (rows : List (Nat × Nat)) :
    State :=
  let s := rows.foldl (fun s x => s.storeRow pc (s.rowLoc pc c lc r x.2) (t.rowOut x.1)) s
  let host := rows.filterMap (fun x =>
    match s.rowLoc pc c lc r x.2 with
    | .host va ch => some (ch, va, t.rowOut x.1)
    | _ => none)
  match host with
  | [] => s
  | (ch, _, _) :: _ => s.sendRows pc id ch (host.map (fun e => (e.2.1, e.2.2)))

/-- Buffers that a TST with ALLOC takes: one for each 4 KB of its span (R110), counted from offset 0 of the space that the
registers from H on give, also where ADDR is 4,096 or more (DESIGN CHOICE, log entry 96). -/
def allocCount (r : List Word) (rows : List (Nat × Nat)) : Nat :=
  (rows.map (fun x => rowOff r x.2 / 4096 + 1)).foldl max 0

/-- The buffers of a TST with ALLOC taken, with their reserved credits, into H and onward (R110, R176). -/
def State.allocate (s : State) (pc : Nat) (c : Ctx) (r : List Word) (n : Nat) : State :=
  let held := s.creditQueues (recChq r)
  let s := s.reserve (recChq r) n
  let (s, bs) := s.takeBuffers (mvPart r) n
  (indexed 0 bs).foldl (fun s e =>
    let h : HReg := { handle := mkHandle e.2 (s.buffer e.2).gen 0 0 false false, side := 0, input := false,
                      bound := some (recChq r), reserved := held }
    s.onCtx pc c (fun x => x.setHreg (mvH r + e.1) (some h))) s

/-- A handle register emptied: the rows of its buffer leave the row cache (R58). -/
def State.giveUp (s : State) (pc : Nat) (c : Ctx) (h : Nat) (y : HReg) : State :=
  let s := s.onCtx pc c (fun x => x.setHreg h none)
  if hExternal y.handle then s else s.dropLines pc (hBuf y.handle)

/-- A TST acts (DEDUCED, log entry 17). -/
def startTst (pc : Nat) (c : Ctx) (l : ListRef) (r : List Word) (d : Desc) (s : State) : State :=
  let p := (s.core pc).part
  let rows := movedRows p d
  let s := if mvSpace r = 1 ∧ mvAlloc r then s.allocate pc c r (allocCount r rows) else s
  let s := if mvSpace r = 1 then
      let s := s.reportStale pc c l.lc (hregsOf r rows)
      -- a stale handle's register becomes empty (R170)
      (hregsOf r rows).foldl (fun s h =>
        match ((s.core pc).ctx c).hreg h with
        | some y =>
          if (s.staleCode y.handle).isSome then
            (s.unreserve y.reserved).giveUp pc c h y
          else s
        | none => s) s
    else s
  let t := (s.core pc).tile (recSa r)
  let regs := s.regionsOf pc c l.lc r rows
  let id := (s.core pc).nextId
  let s := s.launch pc c l r none [recSa r] [] regs none t CvtStats.zero .writes
  s.storeAll pc c l.lc id r t rows

/-- TST (R110) (DEDUCED, log entry 42). -/
def bodyTst (pc : Nat) (c : Ctx) (l : ListRef) (r : List Word) (s : State) : State :=
  let p := (s.core pc).part
  let d := descS p r
  let rows := if shapeOk p d then movedRows p d else []
  let x := (s.core pc).ctx c
  let n := allocCount r rows
  let alloc := mvAlloc r
  let pt := s.part (mvPart r)
  let hs := (List.range n).map (fun i => mvH r + i)
  let ch := (List.range (recCn r)).map (fun i => recCh r + i)
  let own (h : Nat) : Bool := alloc && hs.contains h
  let errs := s.accessErrs pc c l.lc r rows true
    ++ [ (alloc && hs.any (fun h => (x.hreg h).isSome), 5),
         (recCpush r && ch.any (fun h => (x.hreg h).isNone && !own h), 5),
         (alloc && (decide (pt.size = 0) || pt.reserved), 6),
         ((alloc && !(s.queue (recChq r)).valid) || (recCpush r && !s.producer (recChq r) l.lc c), 6),
         (recCpush r && ch.any (fun h => decide (15 < h)), 8) ]
  let regs := s.regionsOf pc c l.lc r rows
  let w := if (s.core pc).regionBusy c [] regs then some 0 else s.tileWait pc c none [recSa r]
  judgeTile w pc c r errs [(badOperand p (recSa r) d, 1, d.ty)]
    (fun s =>
      let spilling := s.mp.reqs.any (fun q => match q.who with
        | .spill _ _ b => decide (s.partOf b = some (mvPart r)) | _ => false)
      if (s.core pc).regionBusy c [] regs then s.hold pc c 0 0
      else if alloc && (decide (pt.free.length < n) || !s.canReserve (recChq r) n) then
        s.hold pc c (if spilling then 13 else 1) (recChq r)
      else tileGate pc c l r none [recSa r] false (fun _ s => startTst pc c l r d s) s) s

/-! ### TMOV (R111) -/

def tmRs (r : List Word) : Nat := fld (rw r 3) 0 6
def tmRd (r : List Word) : Nat := fld (rw r 3) 8 6
def tmNr (r : List Word) : Nat := fld (rw r 3) 16 6 + 1

/-- The result of TMOV: rows of SA into rows of D, the others from SB under MERGE or 0, and the failed output checks of its
first slice, which an armed fault `hit` strikes. -/
def tmovTile (p : Bool) (r : List Word) (a b : Tile) (hit : Option Nat) : Tile × Fails :=
  let la := a.lanes p
  let lb := b.lanes p
  let merge := recCmod0 r
  let pass := ({ out := strike hit (slice la (tmRs r / 4)), fails := [] } : Pass).check 0
  let struck := pass.out.toArray
  let ls := (List.range (64 * rmax p)).map (fun i =>
    let row := i / 64
    if tmRd r ≤ row ∧ row < tmRd r + tmNr r then
      let j := 64 * (row - tmRd r) + i % 64
      if j < 256 then (struck.getD j Lane.zero).word else lane la (64 * tmRs r + j)
    else if merge then lane lb i else (0, false))
  (tileOfAll p ls.toArray ((a.kinds ||| (if merge then b.kinds else 0)) ||| failKinds pass.fails) a.t, pass.fails)

/-- TMOV (R111); TRF_SHAPE names an operand without a descriptor with type code 0 (DESIGN CHOICE, log entry 94). -/
def bodyTmov (pc : Nat) (c : Ctx) (l : ListRef) (r : List Word) (s : State) : State :=
  let p := (s.core pc).part
  let bad (g : Nat) : Bool := decide (regCount p ≤ g)
  let srcs := if recCmod0 r then [recSa r, recSb r] else [recSa r]
  judgeTile (s.tileWait pc c (some (recD r)) srcs) pc c r
    [ (decide (tmRs r % 4 ≠ 0 ∨ tmRd r % 4 ≠ 0 ∨ tmNr r % 4 ≠ 0), 8),
      (decide (rmax p < tmRs r + tmNr r ∨ rmax p < tmRd r + tmNr r), 8) ]
    [(bad (recD r), 0, 0), (bad (recSa r), 1, 0), (recCmod0 r && bad (recSb r), 2, 0)]
    (fun s => tileGate pc c l r (some (recD r)) srcs false (fun m s =>
      let k := s.core pc
      let (t, fs) := tmovTile p r (k.tile (recSa r)) (k.tile (recSb r)) k.injLane
      let s := s.fabDone pc (tmNr r / 4) ((List.range (tmNr r / 4)).map (fun i => (recSa r, tmRs r / 4 + i))) fs
      s.launch pc c l r (some (recD r)) srcs [] [] m t CvtStats.zero .done) s) s

end Sys2Proof.Machine
end

