-- ==== Sys2Proof/Machine/Convert.lean ====
section
/-! DEFINITION. Number commands: history slots and the output scale (R155 to R157), unconverted element moves (R104, R113),
CVT, SCALE, QNT and DQN (R125, R139 to R154).  Results are made at issue; counters, rescales and renames come with
TILE_COMPLETE. -/

namespace Sys2Proof.Machine

/-! ### History slots -/

/-- History slot `h` of a logical core (R155). -/
def State.histOf (s : State) (lc h : Nat) : Hist := SMap.get (s.lc lc).hist Hist.reset h

/-- The history slot replaced. -/
def State.setHist (s : State) (lc h : Nat) (x : Hist) : State :=
  s.onLc lc (fun l => { l with hist := SMap.set l.hist Hist.reset h x })

/-- The offset of HIST_CFG. -/
def histOff (lc h : Nat) : Nat := 0x41000 + 0x80 * lc + 8 * h

/-- The largest exponent of a ring (R157). -/
def Hist.big (h : Hist) : Option Int :=
  h.ring.foldl (fun a x => match a with | some b => some (max b x) | none => some x) none

/-- The width w of a fixed-point target (R157). -/
def fixedWidth (ty : Nat) : Option Nat :=
  if ty = tyI8 then some 8 else if ty = tyI16 ∨ ty = tyC16 then some 16 else if ty = tyI32 then some 32 else none

/-- −128 to 127. -/
def clampT (t : Int) : Int := max (-128) (min 127 t)

/-- The output scale of a conversion (R157); 0 for a target that is not fixed-point (R139). -/
def State.outScale (s : State) (lc : Nat) (r : List Word) (ty : Nat) : Int :=
  match fixedWidth ty with
  | none => 0
  | some w =>
    if recHist r then
      match (s.histOf lc (recHslot r)).big with
      | some b => clampT (b + (s.histOf lc (recHslot r)).head - ((w : Int) - 1))
      | none => recShift r
    else recShift r

/-- The exponent u of the delayed level-2 scale, where HIST selects it (R150). -/
def State.quantScale (s : State) (lc : Nat) (r : List Word) : Option Int :=
  if recHist r then
    match (s.histOf lc (recHslot r)).big with
    | some b => some (b + (s.histOf lc (recHslot r)).head)
    | none => some (recShift r)
  else none

/-! ### Moves of elements without conversion -/

/-- The first element of each run of `n`. -/
def firsts (n : Nat) (xs : List Nat) : List Nat := (pieces n xs.length xs).map (fun b => b.headD 0)

/-- D's element y takes SA's element xm[y], with no conversion: each output block takes the code of the block that its
first element comes from, and the level-2 row is copied as far as D's shape goes (R40, R104, R113, R117)
(DEDUCED, log entry 27). -/
def moveElems (p : Bool) (l : Lanes) (k : Kinds) (ts : Int) (sop dop : Desc) (xm : List Nat) : Tile :=
  let es := xm.map (fun x => laneElem l sop (x / sop.cols) (x % sop.cols))
  let at_ (n : Nat) (f : Nat → Nat → Nat) : List (Nat × Nat × Bool) :=
    let nb := max 1 (dop.cols / n)
    (indexed 0 (firsts n xm)).map (fun e =>
      let c := laneByte l (f (e.2 / sop.cols) (e.2 % sop.cols / n))
      (f (e.1 / nb) (e.1 % nb), c.1, c.2))
  let codes : List (Nat × Nat × Bool) :=
    if sop.ty = tyPB16 then at_ 16 (fun r b => pbExpByte p r b)
    else if sop.ty = tyPW8 ∨ sop.ty = tyPW4 then at_ 32 (fun r b => se8Byte p sop.ty r b) ++ level2Lanes p sop l
    else []
  let t := buildTile p dop (es.map (fun e => e.1)) [] (es.map (fun e => e.2)) k ts
  if codes.isEmpty then t
  else
    finishLoad p dop (mkTile p (putTileBytes t.words (64 * rmax p) (codes.map (fun (c : Nat × Nat × Bool) => (c.1, c.2.1))))
      ((t.bad ++ (codes.filter (fun (c : Nat × Nat × Bool) => c.2.2)).map (fun (c : Nat × Nat × Bool) => c.1 / 32)).dedup.mergeSort (fun x y => decide (x ≤ y)))
      k ts)

/-! ### A conversion -/

/-- What a command makes: the register, its counts, the LFSR after it, and the check symbols that failed (R89). -/
structure Made where
  tile  : Tile
  stats : CvtStats
  lfsr  : BitVec 32
  fails : Fails := []
  deriving DecidableEq, Repr

/-- Elements converted into D (R141 to R157). -/
def State.makeConv (s : State) (pc lc : Nat) (r : List Word) (d : Desc) (els : List El) (k : Kinds) : Made :=
  let t := s.outScale lc r d.ty
  let o := convert d.ty t (recRnd r) els (s.core pc).lfsr
  { tile := buildTile (s.core pc).part d o.codes o.exps o.bad k t, stats := o.stats, lfsr := o.lfsr }

/-- CVT of a register (R125, R153) (DEDUCED, log entry 27). -/
def State.makeCvt (s : State) (pc lc : Nat) (r : List Word) (a : Tile) : Made :=
  let p := (s.core pc).part
  let sop := descS p r
  let dop := descD p r
  if sop.ty = dop.ty then
    { tile := moveElems p (a.lanes p) a.kinds a.t sop dop (List.range (elems sop)), stats := CvtStats.zero, lfsr := (s.core pc).lfsr }
  else s.makeConv pc lc r dop (readEls p (a.lanes p) a.t sop) a.kinds

/-- SCALE of a register (R125, R153): NaN and infinite inputs count as they are read. -/
def State.makeScale (s : State) (pc lc : Nat) (r : List Word) (a : Tile) : Made :=
  let p := (s.core pc).part
  let els := readEls p (a.lanes p) a.t (descS p r)
  let m := s.makeConv pc lc r (descD p r) (scaleEls (fp32Val (rw r 3).toNat) els) a.kinds
  let st := inputStats els
  { m with stats := { m.stats with nan := st.nan, inf := st.inf } }

/-- ROW0 of QNT and DQN (R125). -/
def recRow0 (r : List Word) : Nat := fld (rw r 3) 0 6

/-- QNT of a register over the rows of SB (R125, R150, R151). -/
def State.makeQnt (s : State) (pc lc : Nat) (r : List Word) (a b : Tile) : Made :=
  let p := (s.core pc).part
  let dop := descD p r
  let els := readEls p (a.lanes p) a.t (descS p r)
  let q := quantise dop.ty (recRnd r) (s.quantScale lc r) els (s.core pc).lfsr
  let bs := weightBytes p dop (recRow0 r) q
  let l := (b.lanes p)
  -- a lane that the command writes holds valid check bytes (R151)
  let l := bs.foldl (fun (l : Lanes) x => l.modify (x.1 / 4) (fun w => (w.1, false))) l
  let l := putLaneBytes l (bs.map (fun x => (x.1, x.2, false)))
  let miss := (els.filter (fun e => e.bad)).length
  { tile := tileOfLanes p dop l (a.kinds ||| b.kinds ||| (if miss = 0 then 0 else kMissing)) 0
    stats := { inputStats els with sat := q.sat, missing := miss }
    lfsr := q.lfsr }

/-- DQN of a register (R125, R148, R149): its NaN and infinite inputs are level-2 scales (R165) (DEDUCED, log entry 21) (DEDUCED, log entry 23). -/
def State.makeDqn (s : State) (pc lc : Nat) (r : List Word) (a : Tile) : Made :=
  let p := (s.core pc).part
  let sop := descS p r
  let dop := descD p r
  let ws := readWeights p (a.lanes p) sop (recRow0 r) (elems dop)
  let miss := missingOf sop.ty ws
  let m := s.makeConv pc lc r dop (ws.map (fun w => weightEl sop.ty w)) (a.kinds ||| (if miss = 0 then 0 else kMissing))
  { m with stats := { m.stats with missing := miss, nan := nanScales ws, inf := infScales ws } }

/-- The commands that a rerun converts again from their retained sources (R160). -/
def State.remake (s : State) (pc lc : Nat) (r : List Word) (kept : List Tile) : Made :=
  if recOpc r = 0x22 then s.makeQnt pc lc r (kept.getD 0 Tile.reset) (kept.getD 1 Tile.reset)
  else s.makeCvt pc lc r (kept.getD 0 Tile.reset)

/-! ### Checks -/

/-- RND 2 or 3 (R104). -/
def rndErr (r : List Word) : Bool × Nat := (decide (2 ≤ recRnd r), 8)

/-- Whether a conversion between two types exists (R152) (DEDUCED, log entry 27). -/
def convertible (a b : Nat) : Bool := decide (tyGroup a = tyGroup b) && decide (tyGroup a ≠ 2)

/-- Shape errors of a command that converts between types where they differ (R41, R152, R153) (DEDUCED, log entry 88). -/
def convShapes (p : Bool) (sop dop : Desc) : List (Bool × Nat × Nat) :=
  [ (decide (sop.ty ≠ dop.ty) && !convertible sop.ty dop.ty, if tyGroup sop.ty = 2 ∧ tyGroup dop.ty ≠ 2 then 1 else 0,
      if tyGroup sop.ty = 2 ∧ tyGroup dop.ty ≠ 2 then sop.ty else dop.ty),
    (decide (sop.ty ≠ dop.ty) && decide (elems sop ≠ elems dop), 0, dop.ty) ]
  |>.filter (fun _ => shapeOk p sop && shapeOk p dop)

/-- A number command put in flight with its result (R50, R125). -/
def State.launchMade (s : State) (pc : Nat) (c : Ctx) (l : ListRef) (r : List Word) (srcs : List Nat) (m : Option Mallet)
    (x : Made) (kept : List Tile) : State :=
  let s := s.onCore pc (fun k => { k with lfsr := x.lfsr })
  s.launch pc c l r (some (recD r)) srcs [] [] m x.tile x.stats .done kept

/-- Bad registers and shapes of D and SA. -/
def operandShapes (p : Bool) (r : List Word) : List (Bool × Nat × Nat) :=
  [(badOperand p (recD r) (descD p r), 0, (descD p r).ty), (badOperand p (recSa r) (descS p r), 1, (descS p r).ty)]

/-! ### The commands -/

/-- CVT. -/
def bodyCvt (pc : Nat) (c : Ctx) (l : ListRef) (r : List Word) (s : State) : State :=
  let p := (s.core pc).part
  let sop := descS p r
  let dop := descD p r
  judgeTile (s.tileWait pc c (some (recD r)) [recSa r]) pc c r [rndErr r]
    (operandShapes p r ++ convShapes p sop dop ++ [(decide (elems sop ≠ elems dop), 0, dop.ty)])
    (tileGate pc c l r (some (recD r)) [recSa r] (coversAll p sop) (fun m s =>
      let a := (s.core pc).tile (recSa r)
      s.launchMade pc c l r [recSa r] m (s.makeCvt pc l.lc r a) [a])) s

/-- SCALE. -/
def bodyScale (pc : Nat) (c : Ctx) (l : ListRef) (r : List Word) (s : State) : State :=
  let p := (s.core pc).part
  let sop := descS p r
  let dop := descD p r
  let bad := match fp32Val (rw r 3).toNat with | .num _ _ _ => false | _ => true
  judgeTile (s.tileWait pc c (some (recD r)) [recSa r]) pc c r [rndErr r, (bad, 8)]
    (operandShapes p r ++ [(decide (tyGroup dop.ty = 2), 0, dop.ty), (decide (tyGroup sop.ty = 2), 1, sop.ty)]
      ++ convShapes p sop dop ++ [(decide (elems sop ≠ elems dop), 0, dop.ty)])
    (tileGate pc c l r (some (recD r)) [recSa r] false (fun m s =>
      let a := (s.core pc).tile (recSa r)
      s.launchMade pc c l r [recSa r] m (s.makeScale pc l.lc r a) [])) s

/-- Whether ROW0 keeps superblocks whole (R125) (DEDUCED, log entry 88). -/
def row0Err (ty : Nat) (r : List Word) : Bool × Nat :=
  (decide (tyGroup ty = 2) && decide (recRow0 r % superRows ty ≠ 0), 8)

/-- QNT. -/
def bodyQnt (pc : Nat) (c : Ctx) (l : ListRef) (r : List Word) (s : State) : State :=
  let p := (s.core pc).part
  let sop := descS p r
  let dop := descD p r
  judgeTile (s.tileWait pc c (some (recD r)) [recSa r, recSb r]) pc c r [rndErr r, row0Err dop.ty r]
    (operandShapes p r ++
      [ (decide (tyGroup dop.ty ≠ 2), 0, dop.ty),
        (decide (sop.ty ≠ tyFP16 ∧ sop.ty ≠ tyFP32), 1, sop.ty),
        (decide (elems sop % 1024 ≠ 0), 1, sop.ty),
        (decide (dop.rows < recRow0 r + elems sop / dop.cols), 0, dop.ty),
        (decide (regCount p ≤ recSb r), 2, dop.ty) ])
    (tileGate pc c l r (some (recD r)) [recSa r, recSb r] (coversAll p sop) (fun m s =>
      let a := (s.core pc).tile (recSa r)
      let b := (s.core pc).tile (recSb r)
      s.launchMade pc c l r [recSa r, recSb r] m (s.makeQnt pc l.lc r a b) [a, b])) s

/-- DQN (DEDUCED, log entry 23). -/
def bodyDqn (pc : Nat) (c : Ctx) (l : ListRef) (r : List Word) (s : State) : State :=
  let p := (s.core pc).part
  let sop := descS p r
  let dop := descD p r
  judgeTile (s.tileWait pc c (some (recD r)) [recSa r]) pc c r [rndErr r, row0Err sop.ty r]
    (operandShapes p r ++
      [ (decide (dop.ty ≠ tyFP16 ∧ dop.ty ≠ tyFP32), 0, dop.ty),
        (decide (tyGroup sop.ty ≠ 2), 1, sop.ty),
        (decide (elems dop % 1024 ≠ 0), 0, dop.ty),
        (decide (sop.rows < recRow0 r + elems dop / sop.cols), 1, sop.ty) ])
    (tileGate pc c l r (some (recD r)) [recSa r] false (fun m s =>
      let a := (s.core pc).tile (recSa r)
      s.launchMade pc c l r [recSa r] m (s.makeDqn pc l.lc r a) [])) s

end Sys2Proof.Machine
end

