-- ==== Sys2Proof/Machine/Reorder.lean ====
section
/-! DEFINITION. Reordering commands: route slots, fetches and solves (R68, R69, R76 to R78, R92), PERM, GTH, SCT and SHUF
(R112 to R116), AXP, TRN and BREV (R117), REDP (R119), SORT (R120) and PERMX (R85 to R87, R118). -/

namespace Sys2Proof.Machine

/-! ### Route slots (R68, R69) -/

/-- Whether a queued or running solve will write slot `n`. -/
def Core.solving (k : Core) (n : Nat) : Bool := k.solveQ.any (fun x => decide (x.slot = n))

/-- The slot that holds, or fetches, a stored route of the present directory. -/
def Core.slotFor (k : Core) (gen id : Nat) : Option Nat :=
  (List.range 8).find? (fun n =>
    let x := k.slot n
    decide (x.id = id) && decide (x.gen = gen) && !x.solved && !x.bad && (x.route.isSome || x.fetch))

/-- The least recently used of some slots. -/
def Core.lru (k : Core) (ns : List Nat) : Option Nat :=
  ns.foldl (fun a n =>
    match a with
    | some m => if (k.slot n).use < (k.slot m).use then some n else some m
    | none => some n) none

/-- The slot a fetch takes (R69); one with a fetch under way is not taken again (DESIGN CHOICE, log entry 91). -/
def Core.pickSlot (k : Core) : Option Nat :=
  let ok := (List.range 8).filter (fun n => !k.solving n && !(k.slot n).fetch)
  match ok.find? (fun n => (k.slot n).route.isNone && !(k.slot n).bad) with
  | some n => some n
  | none =>
    match k.lru (ok.filter (fun n => (k.slot n).route.isSome && !(k.slot n).solved)) with
    | some n => some n
    | none => k.lru ok

/-- Slot `n` used now. -/
def Core.touch (k : Core) (n : Nat) : Core :=
  { k.setSlot n { k.slot n with use := k.useClock + 1 } with useClock := k.useClock + 1 }

/-- A directory entry in force (R71). -/
def State.dirEntry (s : State) (id : Nat) : DWord := SMap.get s.routes.active 0 id

/-- The entries of a route as the route table holds them. -/
def State.tableRoute (s : State) (id : Nat) : List DWord :=
  let d := s.dirEntry id
  (pieces 8 (deLen d) (s.routes.table.read (8 * deBase d) (8 * deLen d))).map (fun b => BitVec.ofNat 64 (leNat b))

/-- Whether an entry of a route stands in poison form (R329). -/
def State.routeBad (s : State) (id : Nat) : Bool :=
  (wordsOf (8 * deBase (s.dirEntry id)) (8 * deLen (s.dirEntry id))).any (fun w => s.routes.table.isBad w)

/-- A route that a command needs: its reference, the permitted kinds and, where it matters, the WIDTH. -/
structure Want where
  ref   : RouteRef
  kinds : List Nat
  width : Option Nat
  deriving DecidableEq, Repr

/-- The WIDTH code of an element size (R72) (DEDUCED, log entry 24). -/
def widthOf (ty : Nat) : Nat := match tySize ty with | 1 => 2 | 2 => 1 | _ => if ty = tyPW4 then 2 else 0

/-- KIND of a route as a command sees it: a solved route is a WORD or a GATHER route (R76) (DEDUCED, log entry 24). -/
def Route.kind : Route → Nat
  | .entries e => rtKind (ent e 0)
  | .lanes _ _ g => if g then 3 else 0
  | .bad => 0

/-- The route error of a need (R92, R329): 1 not valid, 2 KIND, 3 WIDTH, 4 TAG (DEDUCED, log entry 24). -/
def State.wantErr (s : State) (pc : Nat) (w : Want) : Option Nat :=
  if w.ref.bySlot then
    let k := s.core pc
    let x := k.slot w.ref.slot
    if k.solving w.ref.slot ∨ x.bad ∨ x.fetch then none
    else
      match x.route with
      | none => some 1
      | some rt =>
        if rt.kind ∉ w.kinds then some 2
        else
          match rt, w.width with
          | .entries e, some n => if rtWidth (ent e 0) ≠ n then some 3 else none
          | _, _ => none
  else
    let d := s.dirEntry w.ref.id
    if !deValid d ∨ s.routeBad w.ref.id then some 1
    else
      let h := ent (s.tableRoute w.ref.id) 0
      if deKind d ∉ w.kinds ∨ rtKind h ∉ w.kinds then some 2
      else if (match w.width with | some n => decide (rtWidth h ≠ n) | none => false) then some 3
      else if rtTag h ≠ w.ref.id then some 4
      else none

/-- The first route error of a command: (route ID, reason). -/
def State.firstRouteErr (s : State) (pc : Nat) (ws : List Want) : Option (Nat × Nat) :=
  ws.findSome? (fun w => (s.wantErr pc w).map (fun e => (w.ref.id, e)))

/-- The route of a need, with the kinds it adds, once it is in its slot. -/
def State.wantGot (s : State) (pc : Nat) (w : Want) : Option (Route × Kinds) :=
  let k := s.core pc
  let at_ (n : Nat) : Option (Route × Kinds) :=
    let x := k.slot n
    if k.solving n ∨ x.fetch then none
    else if x.bad then some (.bad, x.badK)
    else x.route.map (fun r => (r, 0))
  if w.ref.bySlot then at_ w.ref.slot
  else
    match k.slotFor s.routes.gen w.ref.id with
    | some n => at_ n
    | none => none

/-- A need looked for (R69): the slot that holds it is used, and on a miss a fetch starts where a slot can be chosen. -/
def State.seek (s : State) (pc : Nat) (w : Want) : State :=
  let k := s.core pc
  if w.ref.bySlot then s.onCore pc (fun k => k.touch w.ref.slot)
  else
    match k.slotFor s.routes.gen w.ref.id with
    | some n => s.onCore pc (fun k => k.touch n)
    | none =>
      match k.pickSlot with
      | none => s
      | some n =>
        s.onCore pc (fun k =>
          let k := (k.setSlot n { RSlot.reset with id := w.ref.id, gen := s.routes.gen, fetch := true }).touch n
          { k with cnt := { k.cnt with routeMiss := satAdd k.cnt.routeMiss 1 max32 } })

/-- A route fetched into slot `n` arrives (R69). -/
def State.fetched (s : State) (pc n : Nat) : State :=
  let x := (s.core pc).slot n
  if x.fetch then
    s.onCore pc (fun k => (k.setSlot n { x with fetch := false, route := some (.entries (s.tableRoute x.id)) }).touch n)
  else s

/-- Route slots that hold a stored route of an ID changed, or fetch one, become invalid; the others go with the new
generation (R75, R92). -/
def Core.retag (k : Core) (gen : Nat) (changed : Nat → Bool) : Core :=
  { k with slots := (k.slots.map (fun e =>
      if e.2.solved ∨ e.2.bad ∨ (e.2.route.isNone ∧ !e.2.fetch) then e
      else if changed e.2.id then (e.1, RSlot.reset)
      else (e.1, { e.2 with gen := gen }))).filter (fun e => decide (e.2 ≠ RSlot.reset)) }

/-! ### Solves (R76, R77, R114, R115) -/

/-- What a solve gives (R76, R78). -/
def solveResult (scatter : Bool) (v : List (Option Nat × Bool) × Kinds) : Route × Kinds :=
  match solveFault scatter [] 0 v.1 with
  | some (_, cause) => (.bad, if cause = 3 then v.2 else kFault)
  | none => (solveRoute scatter v.1, 0)

/-- Solves of a command queued in order, one for each slot of `slots`, as far as the queue of 8 has room (R77). -/
def State.queueSolves (s : State) (pc : Nat) (c : Ctx) (slots : List Nat) (scatter : Bool)
    (vecs : List (List (Option Nat × Bool) × Kinds)) : State :=
  (indexed 0 (slots.zip vecs)).foldl (fun s e =>
    let k := s.core pc
    let x := k.ctx c
    if x.solves.length = e.1 ∧ k.solveQ.length < 8 then
      let q : Solve := { slot := e.2.1, index := e.2.2.1, scatter := scatter, kinds := e.2.2.2 }
      (s.onCore pc (fun k => { k with solveQ := k.solveQ ++ [q] })).onCtx pc c (fun x => { x with solves := x.solves ++ [e.2.2] })
    else s) s

/-- A solve of R114 that a command asks for: target slots, form, and where its vectors are. -/
structure SolvePlan where
  slots   : List Nat
  scatter : Bool
  reg     : Option (Nat × Nat)
  deriving DecidableEq, Repr

/-- The index vectors of a plan: slices of the index register, or the INDEX route in hand. -/
def State.planVectors (s : State) (pc : Nat) (pl : SolvePlan) (got : List (Route × Kinds)) :
    List (List (Option Nat × Bool) × Kinds) :=
  match pl.reg with
  | some (g, sl) =>
    let t := (s.core pc).tile g
    let l := t.lanes (s.core pc).part
    (List.range pl.slots.length).map (fun i => (indexSlice l (sl + i), t.kinds))
  | none =>
    match got with
    | (.entries e, _) :: _ => pl.slots.map (fun _ => (indexRoute e, 0))
    | _ => []

/-- A fabric command meets its waits in turn: tile waits, its routes, its solves, a mallet; then it acts on its routes
(DEDUCED, log entry 38). -/
def fabGate (pc : Nat) (c : Ctx) (l : ListRef) (r : List Word) (dest : Option Nat) (srcs : List Nat) (heavy : Bool)
    (wants : List Want) (plan : Option SolvePlan) (act : Option Mallet → List (Route × Kinds) → State → State) (s : State) :
    State :=
  let s := if s.tileWait pc c dest srcs = some 6 ∧ c = .fg then s.preempt pc else s
  match s.tileWait pc c dest srcs with
  | some w => s.hold pc c w 0
  | none =>
    match s.firstRouteErr pc wants with
    | some (id, e) => s.routeError pc c r id e
    | none =>
      let s := wants.foldl (fun s w => s.seek pc w) s
      match wants.mapM (fun w => s.wantGot pc w) with
      | none => s.hold pc c 5 0
      | some got =>
        let go (rts : List (Route × Kinds)) (s : State) : State :=
          if heavy then
            match s.need pc c l (wclass r) with
            | .go m => act m rts s
            | .wait w ask => (if ask then s.askMallet pc c (wclass r) false else s).hold pc c w 0
          else act none rts s
        match plan with
        | none => go got s
        | some pl =>
          let s := s.queueSolves pc c pl.slots pl.scatter (s.planVectors pc pl got)
          let x := (s.core pc).ctx c
          if x.solves.length < pl.slots.length ∨ pl.slots.any (fun n => (s.core pc).solving n) then s.hold pc c 5 0
          else
            -- the solved slots are used now (R69); the kinds of an index register join (R57)
            let s := s.onCore pc (fun k => pl.slots.foldl (fun k n => k.touch n) k)
            go (x.solves.map (fun v => ((solveResult pl.scatter v).1, (solveResult pl.scatter v).2 ||| v.2))) s

/-! ### A pass through the fabric -/

/-- A fabric command put in flight with what it made. -/
def State.launchFab (s : State) (pc : Nat) (c : Ctx) (l : ListRef) (r : List Word) (srcs : List Nat) (m : Option Mallet)
    (passes : Nat) (reads : List (Nat × Nat)) (x : Made) : State :=
  let x := { x with tile := { x.tile with kinds := x.tile.kinds ||| failKinds x.fails } }
  (s.fabDone pc passes reads x.fails).launchMade pc c l r srcs m x []

/-- Slices of the larger of D and SA (R106). -/
def sliceCount (p : Bool) (r : List Word) : Nat := max (slicesOf (descS p r)) (slicesOf (descD p r))

/-- The reads of the first `n` slices of some registers: slice by slice, register by register within a slice (R48, R80). -/
def sliceReads (regs : List Nat) (n : Nat) : List (Nat × Nat) :=
  (List.range n).flatMap (fun i => regs.map (fun g => (g, i)))

/-- A register routed slice by slice and converted where the types differ (R112, R113, R153). -/
def State.makeRouted (s : State) (pc lc : Nat) (r : List Word) (rts : List (Route × Kinds)) (keep : Bool) : Made :=
  let k := s.core pc
  let p := k.part
  let sop := descS p r
  let dop := descD p r
  let n := sliceCount p r
  let a := k.tile (recSa r)
  let b := k.tile (recSb r)
  let rt (i : Nat) : Route := (rts.getD (min i (rts.length - 1)) (.bad, 0)).1
  let same := decide (sop.ty = dop.ty)
  let (lanes, fs) := routeOperand p sop (if same then dop else sop) n rt (if same then 0 else 6) k.injLane (a.lanes p) (b.lanes p)
  let ks := (rts.map (fun x => x.2)).foldl (· ||| ·) (a.kinds ||| (if keep then b.kinds else 0))
  if same then { tile := tileOfLanes p dop lanes ks a.t, stats := CvtStats.zero, lfsr := k.lfsr, fails := fs }
  else { s.makeConv pc lc r dop (readEls p lanes a.t sop) ks with fails := fs }

/-- Passes of a routed command (R106, R113). -/
def routedPasses (n : Nat) (ty : Nat) (rts : List (Route × Kinds)) : Nat :=
  ((List.range n).map (fun i => (rts.getD (min i (rts.length - 1)) (.bad, 0)).1.passes + b2n (hasCodes ty))).foldl (· + ·) 0

/-- The routed command acts. -/
def actRouted (pc : Nat) (c : Ctx) (l : ListRef) (r : List Word) (srcs : List Nat) (keep : Bool) (m : Option Mallet)
    (rts : List (Route × Kinds)) (s : State) : State :=
  let p := (s.core pc).part
  let n := sliceCount p r
  s.launchFab pc c l r srcs m (routedPasses n (descS p r).ty rts)
    (sliceReads (recSa r :: (if keep then [recSb r] else [])) n) (s.makeRouted pc l.lc r rts keep)

/-- Whether a route that a command names keeps lanes of SB (R112) (DEDUCED, log entry 32). -/
def State.wantKeeps (s : State) (pc : Nat) (w : Want) : Bool :=
  if w.ref.bySlot then
    match ((s.core pc).slot w.ref.slot).route with
    | some rt => rt.keeps
    | none => false
  else decide (rtMaskMode (ent (s.tableRoute w.ref.id) 0) = 2)

/-- Kinds of a route that moves elements of a type: PW4 moves by word routes only (R67) (DEDUCED, log entry 24). -/
def moveKinds (ty : Nat) : List Nat := if ty = tyPW4 then [0, 3] else [0, 1, 2, 3]

/-- Fields of word 4 under SOLVE (R114) (DEDUCED, log entry 25). -/
def solIsrc (r : List Word) : Bool := bit (rw r 4) 0
def solId (r : List Word) : Nat := fld (rw r 4) 1 12
def solReg (r : List Word) : Nat := fld (rw r 4) 1 5
def solSlice (r : List Word) : Nat := fld (rw r 4) 6 4

/-- PERM, GTH and SCT (R112 to R115) (DEDUCED, log entry 25) (DEDUCED, log entry 32). -/
def bodyRouted (heavyOk : Bool) (pc : Nat) (c : Ctx) (l : ListRef) (r : List Word) (s : State) : State :=
  let p := (s.core pc).part
  let sop := descS p r
  let dop := descD p r
  let n := sliceCount p r
  let ref := ref3lo r
  let sv := recSolve r
  let per := decide (recOpc r = 0x14) && recCmod0 r && sv && solIsrc r
  let slots := if per then (List.range n).map (fun i => ref.slot ^^^ (i % 2)) else [ref.slot]
  let want : Want := { ref := ref, kinds := moveKinds sop.ty, width := some (widthOf sop.ty) }
  let wants : List Want :=
    if sv then (if solIsrc r then [] else [{ ref := { id := solId r, bySlot := false, slot := 0 }, kinds := [4], width := none }])
    else [want]
  let keep := if sv then decide (recOpc r = 0x15) else s.wantKeeps pc want
  let plan : Option SolvePlan :=
    if sv then some { slots := slots, scatter := decide (recOpc r = 0x15),
                      reg := if solIsrc r then some (solReg r, solSlice r) else none }
    else none
  let srcs := [recSa r] ++ (if keep then [recSb r] else []) ++ (if sv && solIsrc r then [solReg r] else [])
  judgeTile (s.tileWait pc c (some (recD r)) srcs) pc c r
    [ rndErr r, (sv && !ref.bySlot, 8), (sv && solIsrc r && decide (rmax p / 4 < solSlice r + slots.length), 8) ]
    (operandShapes p r ++ convShapes p sop dop ++
      [(keep && decide (regCount p ≤ recSb r), 2, dop.ty), (sv && solIsrc r && decide (regCount p ≤ solReg r), 5, 0)])
    (fabGate pc c l r (some (recD r)) srcs (heavyOk && decide (n = rmax p / 4)) wants plan (actRouted pc c l r srcs keep)) s

/-- SHUF (R116). -/
def bodyShuf (pc : Nat) (c : Ctx) (l : ListRef) (r : List Word) (s : State) : State :=
  let p := (s.core pc).part
  let mode := fld (rw r 3) 0 3
  let g := fld (rw r 3) 3 4
  judgeTile (s.tileWait pc c (some (recD r)) [recSa r]) pc c r [rndErr r, (decide (4 ≤ mode), 8), (decide (g = 0 ∨ 8 < g), 8)]
    (operandShapes p r ++ convShapes p (descS p r) (descD p r))
    (fabGate pc c l r (some (recD r)) [recSa r] false [] none (fun m _ s =>
      actRouted pc c l r [recSa r] false m [(shufRoute mode g (fld (rw r 3) 7 8), 0)] s)) s

/-! ### AXP, TRN, BREV (R117) -/

/-- The source element of each element of D. -/
def linearMap (r : List Word) (d : Desc) : List Nat :=
  let n := elems d
  if recOpc r = 0x13 then (List.range n).map (fun y => trnSource d.rows d.cols y)
  else if recOpc r = 0x12 then
    let e := (List.range 6).map (fun k => fld (rw r 3) (4 * k) 4)
    let q := (List.range 6).map (fun k => fld (rw r 4) (3 * k) 3)
    (List.range n).map (fun y => axpSource y e q)
  else
    let b := fld (rw r 3) 4 2
    (List.range n).map (fun y => digitReverse b (fld (rw r 3) 0 4 / max 1 b) y)

/-- Passes per slice of a linear permutation (R117): `k` elements to a word. -/
def linearPasses (k : Nat) (xm : List Nat) : Nat :=
  if k = 1 then 1
  else
    let ok := (indexed 0 (pieces k xm.length xm)).all (fun e =>
      (indexed 0 e.2).all (fun x => decide (x.2 % k = x.1 % k)) && e.2.all (fun x => decide (x / k = e.2.headD 0 / k)))
    if ok then 1 else k

/-- Command errors of AXP and BREV (R117). -/
def linearErrs (r : List Word) : List (Bool × Nat) :=
  if recOpc r = 0x12 then
    let q := (List.range 6).map (fun k => fld (rw r 4) (3 * k) 3)
    [(!((List.range 6).all (fun i => q.contains i)), 8)]
  else if recOpc r = 0x17 then
    let b := fld (rw r 3) 4 2
    let n := fld (rw r 3) 0 4
    [(decide (b = 0), 8), (decide (n = 0 ∨ 12 < n), 8), (decide (b ≠ 0 ∧ n % b ≠ 0), 8)]
  else []

/-- The element count that AXP and BREV require; TRN requires none. -/
def linearCount (r : List Word) (d : Desc) : Nat :=
  if recOpc r = 0x12 then 2 ^ (((List.range 6).map (fun k => fld (rw r 3) (4 * k) 4)).foldl (· + ·) 0)
  else if recOpc r = 0x17 then 2 ^ fld (rw r 3) 0 4
  else elems d

/-- What AXP, TRN and BREV make; the lanes are checked before their elements are picked (DESIGN CHOICE, log entry 31). -/
def State.makeLinear (s : State) (pc lc : Nat) (r : List Word) : Made :=
  let k := s.core pc
  let p := k.part
  let sop := descS p r
  let dop := descD p r
  let a := k.tile (recSa r)
  let xm := linearMap r sop
  let first := ({ out := strike k.injLane (slice (a.lanes p) 0), fails := [] } : Pass).check 2
  let l : Lanes := if first.fails.isEmpty then a.lanes p
    else (first.out.map Lane.word ++ (a.lanes p).toList.drop 256).toArray
  if sop.ty = dop.ty then
    { tile := moveElems p l a.kinds a.t sop dop xm, stats := CvtStats.zero, lfsr := k.lfsr, fails := first.fails }
  else
    let els := (readEls p l a.t sop).toArray
    { s.makeConv pc lc r dop (xm.map (fun x => els.getD x { comps := [], bad := false })) a.kinds with fails := first.fails }

/-- AXP, TRN and BREV. -/
def bodyLinear (pc : Nat) (c : Ctx) (l : ListRef) (r : List Word) (s : State) : State :=
  let p := (s.core pc).part
  let sop := descS p r
  let dop := descD p r
  let n := sliceCount p r
  judgeTile (s.tileWait pc c (some (recD r)) [recSa r]) pc c r (rndErr r :: linearErrs r)
    (operandShapes p r ++
      [ (decide (dop.ty = tyPW4), 0, tyPW4), (decide (sop.ty = tyPW4), 1, tyPW4), (dop.split, 0, dop.ty), (sop.split, 1, sop.ty),
        (decide (elems sop ≠ linearCount r sop), 1, sop.ty), (decide (elems sop ≠ elems dop), 0, dop.ty) ]
      ++ convShapes p sop dop)
    (fabGate pc c l r (some (recD r)) [recSa r] false [] none (fun m _ s =>
      s.launchFab pc c l r [recSa r] m (n * (linearPasses (4 / tySize sop.ty) (linearMap r sop) + b2n (hasCodes sop.ty)))
        (sliceReads [recSa r] n) (s.makeLinear pc l.lc r))) s

/-! ### REDP (R80, R81, R119) -/

/-- Sources of a REDP: (register, route reference). -/
def redpSources (r : List Word) : List (Nat × RouteRef) :=
  ([(recSa r, ref3lo r), (recSb r, ref3hi r), (fld (rw r 4) 0 5, ref5lo r), (fld (rw r 4) 5 5, ref5hi r)]).take
    (fld (rw r 4) 10 2 + 1)

/-- Modifiers of source `i`; CONJ means nothing for I16 and is ignored there (DESIGN CHOICE, log entry 97). -/
def redpMod (r : List Word) (i : Nat) : RMod :=
  { neg := bit (rw r 4) (12 + i), conj := bit (rw r 4) (16 + i), shr := fld (rw r 4) (20 + 2 * i) 2 }

/-- One output slice of a REDP and its saturated components: the routed lanes of each source, checked before the reduce step
(R88), are reduced lane by lane; `hit` is an armed fault of the first pass. -/
def redpSlice (sop : Desc) (ms : List RMod) (ls : List (Lanes × Route)) (keep : Lanes) (hit : Option Nat) (s : Nat) :
    Pass × Nat :=
  let ps := (indexed 0 ls).map (fun x =>
    (x.2.2.apply (slice keep s) (strike (if s = 0 ∧ x.1 = 0 then hit else none) (slice x.2.1 s))).check 5)
  let vs := ps.map (fun x => x.out.toArray)
  let out := (List.range 256).map (fun j =>
    let im := decide (sop.ty = tyC16)
    let low := im && sop.split && decide (32 ≤ j % 64)
    let high := im && (if sop.split then decide (32 ≤ j % 64) else true)
    redpLane low high ms (vs.map (fun v => v.getD j Lane.zero)))
  ({ out := out.map (fun x => x.1), fails := ps.flatMap (fun x => x.fails) }, (out.map (fun x => x.2)).foldl (· + ·) 0)

/-- The lanes of a REDP, the checks that failed and its saturated components. -/
def redpLanes (p : Bool) (r : List Word) (sop : Desc) (n : Nat) (ts : List (Tile × Route)) (keep : Lanes) (hit : Option Nat) :
    (Lanes × Fails) × Nat :=
  let ms := (List.range ts.length).map (fun i => redpMod r i)
  let ls := ts.map (fun t => (t.1.lanes p, t.2))
  let out := (List.range n).map (fun s => redpSlice sop ms ls keep hit s)
  (perSlice p n (fun s => (out.getD s ({ out := [], fails := [] }, 0)).1), (out.map (fun x => x.2)).foldl (· + ·) 0)

/-- REDP (DEDUCED, log entry 29) (DEDUCED, log entry 32). -/
def bodyRedp (pc : Nat) (c : Ctx) (l : ListRef) (r : List Word) (s : State) : State :=
  let p := (s.core pc).part
  let sop := descS p r
  let dop := descD p r
  let n := sliceCount p r
  let src := redpSources r
  let wants : List Want := src.map (fun x => { ref := x.2, kinds := [0], width := some (widthOf sop.ty) })
  let keep := wants.any (fun w => s.wantKeeps pc w)
  let srcs := src.map (fun x => x.1) ++ (if keep then [recSb r] else [])
  judgeTile (s.tileWait pc c (some (recD r)) srcs) pc c r []
    (operandShapes p r ++ [(decide (sop.ty ≠ tyI16 ∧ sop.ty ≠ tyC16), 1, sop.ty), (decide (dop.ty ≠ sop.ty), 0, dop.ty)]
      ++ (indexed 1 src).map (fun e => (decide (regCount p ≤ e.2.1), e.1, sop.ty))
      ++ [(keep && decide (regCount p ≤ recSb r), 2, sop.ty)])
    (fabGate pc c l r (some (recD r)) srcs (decide (n = rmax p / 4)) wants none (fun m rts s =>
      let k := s.core pc
      let ts := (src.zip rts).map (fun x => (k.tile x.1.1, x.2.1))
      let ks := (src.map (fun x => (k.tile x.1).kinds) ++ rts.map (fun x => x.2)).foldl (· ||| ·)
        (if keep then (k.tile (recSb r)).kinds else 0)
      let o := redpLanes p r sop n ts ((k.tile (recSb r)).lanes p) k.injLane
      let t := tileOfLanes p dop o.1.1 ks (k.tile (recSa r)).t
      let s := s.onCnt pc (fun x => { x with redpSat := satAdd x.redpSat o.2 max32 })
      s.launchFab pc c l r srcs m (src.length * n) (sliceReads srcs n)
        { tile := t, stats := CvtStats.zero, lfsr := k.lfsr, fails := o.1.2 })) s

/-! ### SORT (R82 to R84, R120) -/

/-- The descriptor that the SORT route of a record holds, where it is known. -/
def State.sortDesc (s : State) (pc : Nat) (w : Want) : Option DWord :=
  if w.ref.bySlot then
    match ((s.core pc).slot w.ref.slot).route with
    | some (.entries e) => some (ent e 1)
    | _ => none
  else some (ent (s.tableRoute w.ref.id) 1)

/-- A register sorted slice by slice, its lanes checked before the compare steps (R88); the code of a word moves with it to the
blocks of D (R113); `hit` is an armed fault of the first pass. -/
def sortTile (p : Bool) (sop dop : Desc) (n : Nat) (desc : DWord) (a : Tile) (hit : Option Nat) : Tile × Fails :=
  let l := a.lanes p
  let d := dataLanes p sop l
  let out := (List.range n).map (fun s =>
    let x := ({ out := strike (if s = 0 then hit else none) (slice d s), fails := [] } : Pass).check 4
    (x.fails, sortSlice desc (Lane.zero, Lane.zero) (x.out.zip (codeSlice p sop l s))))
  let at_ (s : Nat) : List (Lane × Lane) := (out.getD s ([], [])).2
  let ls := perSlice p n (fun s => { out := (at_ s).map (fun x => x.1), fails := (out.getD s ([], [])).1 })
  let od := if sop.ty = dop.ty then dop else sop
  let res := if hasCodes sop.ty then
      putLaneBytes ls.1 (arrivedCodes p od n (fun s => (at_ s).map (fun x => x.2)) ++ level2Lanes p sop l)
    else ls.1
  (tileOfLanes p dop res a.kinds a.t, ls.2)

/-- SORT (DEDUCED, log entry 29). -/
def bodySort (pc : Nat) (c : Ctx) (l : ListRef) (r : List Word) (s : State) : State :=
  let p := (s.core pc).part
  let n := sliceCount p r
  let want : Want := { ref := ref3lo r, kinds := [5], width := none }
  let bad := (s.wantErr pc want).isNone && (match s.sortDesc pc want with | some d => !sortOk d | none => false)
  judgeTile (s.tileWait pc c (some (recD r)) [recSa r]) pc c r [(bad, 8)] (operandShapes p r)
    (fabGate pc c l r (some (recD r)) [recSa r] (decide (n = rmax p / 4)) [want] none (fun m rts s =>
      let k := s.core pc
      let a := k.tile (recSa r)
      let (t, fs, ps) := match rts with
        | (.entries e, _) :: _ =>
          let x := sortTile p (descS p r) (descD p r) n (ent e 1) a k.injLane
          (x.1, x.2, sortPasses (ent e 1))
        | (_, ks) :: _ =>
          (tileOfLanes p (descD p r) (perSlice p n (fun _ => { out := List.replicate 256 Lane.poisoned, fails := [] })).1
            (a.kinds ||| ks) a.t, [], 1)
        | [] => (Tile.reset, [], 0)
      s.launchFab pc c l r [recSa r] m (ps * n) (sliceReads [recSa r] n)
        { tile := t, stats := CvtStats.zero, lfsr := k.lfsr, fails := fs })) s

/-! ### PERMX (R85 to R87, R118) -/

/-- Fields of a GLOBAL route (R73). -/
def glXmap (e : List DWord) : Nat := dfld (ent e 1) 0 12
def glMask (e : List DWord) : BitVec 16 := BitVec.ofNat 16 (dfld (ent e 1) 16 16)
def glPass1 (e : List DWord) (lc : Nat) : Nat := dfld (ent e (2 + lc)) 0 12
def glPass3 (e : List DWord) (lc : Nat) : Nat := dfld (ent e (2 + lc)) 16 12

/-- The destination of lane q sent by logical core c, at 256c + q (R73). -/
def xmapOf (e : List DWord) : List Nat :=
  (List.range 4096).map (fun i => dfld (ent e (1 + 16 * (i / 256) + i % 256 / 16)) (4 * (i % 16)) 4)

/-- What pass 1 sends: data slices, then code slices for a type with codes (R86, R113), and the checks that failed.  The lanes
pass straight into the XCX, whose egress checks them; `hit` is an armed fault (DEDUCED, log entry 28) (DESIGN CHOICE, log entry 31). -/
def passOne (sop : Desc) (rt : Route) (a b : Tile) (hit : Option Nat) : Pass :=
  let l := a.lanes false
  let d := dataLanes false sop l
  let k := b.lanes false
  let ps := (List.range 16).map (fun s => rt.apply (slice k s) (strike (if s = 0 then hit else none) (slice d s)))
  let codes := if hasCodes sop.ty then
      (List.range 16).flatMap (fun s =>
        ((rt.move { out := codeSlice false sop l s, fails := [] }).step (rt.mask (List.replicate 256 Lane.zero))).out)
    else []
  { out := ps.flatMap (fun x => x.out) ++ codes, fails := ps.flatMap (fun x => x.fails) }

/-- The collective a PERMX joins: the first of its route that its logical core has not issued. -/
def State.joins (s : State) (id lc : Nat) : Option (Nat × Collective) :=
  s.routes.colls.find? (fun e => decide (e.2.route = id) && e.2.mask.getLsbD lc && !e.2.issued.contains lc)

/-- A PERMX acts: it joins or opens its collective, or completes at once where filling closed it (R87).  The kinds of SB count
where a route of it keeps lanes of SB (R57). -/
def actPermx (pc : Nat) (c : Ctx) (l : ListRef) (r : List Word) (srcs : List Nat) (g xm : List DWord) (m : Option Mallet)
    (p1 p3 : Route) (ks : Kinds) (s : State) : State :=
  let k := s.core pc
  let a := k.tile (recSa r)
  let b := k.tile (recSb r)
  let id := (ref3lo r).id
  let x1 := passOne (descS false r) p1 a b k.injLane
  let kept (rt : Route) : Kinds := if rt.keeps then b.kinds else 0
  let base : Tile := { Tile.reset with kinds := ks ||| kept p3, t := a.t }
  let sent : XSend := { lc := l.lc, pc := pc, inc := k.inc, struck := k.injLane.isSome, lanes := x1.out }
  let brings : Nat × Kinds := (l.lc, a.kinds ||| ks ||| kept p1 ||| failKinds x1.fails)
  let fly (i : Nat) (s : State) : State :=
    let s := s.fabDone pc (16 * p1.passes) (sliceReads srcs 16) x1.fails
    { s with routes := { s.routes with
        flying := s.routes.flying ++ [{ coll := i, lc := l.lc, pc := pc, inc := k.inc, left := List.range 16 }] } }
  match s.joins id l.lc with
  | some (i, x) =>
    if x.closed then
      let s := s.setColl i { x with issued := x.issued ++ [l.lc], done := x.done ++ [l.lc] }
      let t := tileOfLanes false (descD false r) (List.replicate 4096 Lane.poisoned.word).toArray kMissing a.t
      s.dropColls.launch pc c l r (some (recD r)) srcs [] [] m t CvtStats.zero .done
    else
      let s := (fly i s).setColl i { x with
        issued := x.issued ++ [l.lc], sent := x.sent ++ [sent], kinds := x.kinds ++ [brings], pass3 := x.pass3 ++ [(l.lc, p3)] }
      s.launch pc c l r (some (recD r)) srcs [] [] m base CvtStats.zero (.xcx i) [a, b]
  | none =>
    let i := s.routes.nextCol
    let x : Collective :=
      { route := id, mask := glMask g, xmap := xmapOf xm, issued := [l.lc], sent := [sent], kinds := [brings],
        pass3 := [(l.lc, p3)], got := [], filled := [], done := [], opened := s.tu.ltc, closed := false }
    let s := fly i s
    let s := { s with routes := { s.routes with colls := s.routes.colls ++ [(i, x)], nextCol := i + 1 } }
    s.launch pc c l r (some (recD r)) srcs [] [] m base CvtStats.zero (.xcx i) [a, b]

/-- PERMX (R118) (DEDUCED, log entry 28) (DEDUCED, log entry 32). -/
def bodyPermx (pc : Nat) (c : Ctx) (l : ListRef) (r : List Word) (s : State) : State :=
  let p := (s.core pc).part
  let sop := descS p r
  let dop := descD p r
  let ref := ref3lo r
  let stored (n : Nat) : RouteRef := { id := n, bySlot := false, slot := 0 }
  let glob : Want := { ref := stored ref.id, kinds := [7], width := none }
  let okG := (s.wantErr pc glob).isNone
  let g := s.tableRoute ref.id
  let xw : Want := { ref := stored (glXmap g), kinds := [6], width := none }
  let w1 : Want := { ref := stored (glPass1 g l.lc), kinds := moveKinds sop.ty, width := some (widthOf sop.ty) }
  let w3 : Want := { ref := stored (glPass3 g l.lc), kinds := moveKinds sop.ty, width := some (widthOf sop.ty) }
  let full (d : Desc) : Bool := decide (d.rows = (fullDesc false d).rows) && decide (d.cols = (fullDesc false d).cols)
  let xm := s.tableRoute (glXmap g)
  let keep := okG && (s.wantKeeps pc w1 || s.wantKeeps pc w3)
  let srcs := if keep then [recSa r, recSb r] else [recSa r]
  let w := s.tileWait pc c (some (recD r)) srcs
  judgeTile w pc c r [(ref.bySlot, 8), (okG && !(glMask g).getLsbD l.lc, 8)]
    (operandShapes p r ++ [(p || !full dop, 0, dop.ty), (p || !full sop, 1, sop.ty),
      (keep && decide (regCount p ≤ recSb r), 2, dop.ty)])
    (fun s =>
      match (if okG ∧ w.isNone then s.firstRouteErr pc [xw] else none) with
      | some (id, e) => s.routeError pc c r id e
      | none =>
        let busy := (s.joins ref.id l.lc).isNone && decide (4 ≤ (s.routes.colls.filter (fun e => !e.2.closed)).length)
        if okG ∧ busy ∧ w.isNone then s.hold pc c 7 0
        else
          fabGate pc c l r (some (recD r)) srcs true
            (if okG then [glob, w1, w3] else [glob]) none
            (fun m rts s =>
              let a := rts.getD 1 (.bad, 0)
              let b := rts.getD 2 (.bad, 0)
              actPermx pc c l r srcs g xm m a.1 b.1 (a.2 ||| b.2) s) s) s

end Sys2Proof.Machine
end

