-- ==== Sys2Proof/Machine/Load.lean ====
section
/-! DEFINITION. Loading a carillon image (R201 to R219): CRC-32C, the checks of the header and the section table, the checks
of section content, the signature, the fit checks (R234, R235), the fetches of the two passes and the failures of R217. -/

namespace Sys2Proof.Machine

/-! ### CRC-32C (R215) -/

/-- One bit of the reflected CRC-32C. -/
def crcBit (c : Nat) : Nat := if c % 2 = 1 then (c / 2) ^^^ 0x82F63B78 else c / 2

/-- One byte of the reflected CRC-32C. -/
def crcByte (c : Nat) (b : Byte) : Nat :=
  crcBit (crcBit (crcBit (crcBit (crcBit (crcBit (crcBit (crcBit (c ^^^ b.toNat))))))))

/-- CRC-32C of a byte list. -/
def crc32c (b : List Byte) : Nat := (b.foldl crcByte 0xFFFFFFFF) ^^^ 0xFFFFFFFF

/-! ### Header and section table (R201 to R204, R401) -/

/-- The records of `n` bytes of a byte list, as numbers. -/
def recsOf (n : Nat) (b : List Byte) : List Nat := (pieces n b.length b).map leNat

/-- The section table of an image whose first bytes are `b`, with no data yet. -/
def tableOf (b : List Byte) : List Section :=
  (pieces 16 (leAt b 20 2) (b.drop 64)).map (fun e =>
    { ty := leAt e 0 2, inst := leAt e 2 2, off := leAt e 4 4, len := leAt e 8 4, scrc := leAt e 12 4, data := [] })

/-- Whether a type has sections of this number (R204); CORE_MAP and SLOT_PLAN have one for each map (DEDUCED, log entry 45). -/
def instOk (ty inst nvar : Nat) : Bool :=
  if ty = tyCoreMap ∨ ty = tySlotPlan then decide (inst ≤ nvar)
  else if ty = tyQueueOvr then decide (1 ≤ inst ∧ inst ≤ nvar)
  else if ty = tyRouteBody then decide (inst ≤ 255)
  else if ty = tyLists then decide (inst ≤ 1)
  else decide (inst = 0)

/-- The LENGTH that R204 gives a type; none for a type not in its table (DEDUCED, log entry 45). -/
def lenOk (ty len : Nat) : Option Bool :=
  if ty = tyGong then some (decide (len = 48))
  else if ty = tyCoreMap then some (decide (len = 68))
  else if ty = tySlotPlan then some (decide (len = 8256))
  else if ty = tyQueueOvr then some (decide (4 ≤ len ∧ len % 4 = 0))
  else if ty = tyPartitions then some (decide (len = 128))
  else if ty = tyQueues then some (decide (len = 16384))
  else if ty = tyPeals then some (decide (len = 2048))
  else if ty = tyChannels ∨ ty = tyPorts then some (decide (len = 512))
  else if ty = tyRings ∨ ty = tyHistory then some (decide (len = 1024))
  else if ty = tyOverflow then some (decide (len = 16))
  else if ty = tyPairs then some (decide (len = 4096))
  else if ty = tySync then some (decide (16 ≤ len ∧ (len - 16) % 12 = 0 ∧ len ≤ 16 + 12 * 4096))
  else if ty = tyPower then some (decide (len = 72))
  else if ty = tySafety then some (decide (len = 128))
  else if ty = tyRouteDir then some (decide (len = 32768))
  else if ty = tyRouteBody then some (decide (8 ≤ len ∧ len % 8 = 0))
  else if ty = tyLists then some (decide (8 ≤ len ∧ (len - 8) % 32 = 0))
  else if ty = tySignature then some (decide (len = 256))
  else none

/-- Whether a type is a bulk section (R204). -/
def isBulk (ty : Nat) : Bool := decide (ty = tyRouteBody) || decide (ty = tyLists)

/-- Whether no two of a list of ranges (start, length) share a point (DEDUCED, log entry 45). -/
def disjoint (rs : List (Nat × Nat)) : Bool :=
  let l := (rs.filter (fun r => decide (0 < r.2))).mergeSort (fun a b => decide (a.1 ≤ b.1))
  (l.zip (l.drop 1)).all (fun p => decide (p.1.1 + p.1.2 ≤ p.2.1))

/-- Whether the header and the section table pass step 1 of R217, CONFIG apart: `len` is CFG_IMG_LEN, `b` the first bytes
(DEDUCED, log entry 45). -/
def headerOk (len : Nat) (b : List Byte) : Bool :=
  let u (o n : Nat) : Nat := leAt b o n
  let nvar := u 18 1
  let signed := decide (u 19 1 % 2 = 1)
  let sig := u 24 4
  let t := tableOf b
  let has (ty i : Nat) : Bool := t.any (fun x => decide (x.ty = ty) && decide (x.inst = i))
  decide (64 ≤ len ∧ len ≤ 8388608) && decide (u 0 4 = 0x4E4C5243) && decide (u 4 2 = 1) && decide (u 6 2 = 64)
    && decide (u 8 4 = len) && decide (u 16 1 < 8) && decide (1 ≤ u 17 1 ∧ u 17 1 ≤ 16) && decide (nvar ≤ 7)
    && decide (u 19 1 < 2) && decide (1 ≤ u 20 2 ∧ u 20 2 ≤ 512) && decide (u 22 2 = 0) && decide (u 40 24 = 0)
    && decide (64 + 16 * u 20 2 ≤ len)
    && t.all (fun x => decide (x.off % 64 = 0) && decide (x.off + x.len ≤ len) && instOk x.ty x.inst nvar
        && decide (lenOk x.ty x.len = some true)
        && (decide (x.ty = tySignature) || decide (x.off + x.len ≤ sig)))
    && disjoint (t.map (fun x => (x.off, x.len)))
    && decide (t.map (fun x => (x.ty, x.inst))).Nodup
    && (if signed then t.any (fun x => decide (x.ty = tySignature) && decide (x.off = sig) && decide (x.off + x.len = len))
        else decide (sig = len) && !has tySignature 0)
    && [tyGong, tyPartitions, tyQueues, tyPower, tySafety, tyRouteDir].all (fun ty => has ty 0)
    && (List.range (nvar + 1)).all (fun v => has tyCoreMap v && has tySlotPlan v)

/-- The bit of CONFIG that names a configuration (R202). -/
def Size.configBit : Size → Nat
  | .mpx4 => 0 | .mpx8 => 1 | .mpx16 => 2

/-! ### Section content (R205 to R214) -/

/-- FIRST and COUNT of a bulk section (R213). -/
def Section.first (x : Section) : Nat := leAt x.data 0 4
def Section.count (x : Section) : Nat := leAt x.data 4 4

/-- The ranges (FIRST, COUNT) of the ROUTE_BODY sections, and of the LISTS section of a pair. -/
def Image.bodies (im : Image) : List (Nat × Nat) :=
  (im.sects.filter (fun x => decide (x.ty = tyRouteBody))).map (fun x => (x.first, x.count))
def Image.lists (im : Image) (pair : Nat) : List (Nat × Nat) :=
  (im.sects.filter (fun x => decide (x.ty = tyLists) && decide (x.inst = pair))).map (fun x => (x.first, x.count))

/-- The bytes of a section, none where it is absent. -/
def Image.bytes (im : Image) (ty inst : Nat) : List Byte :=
  match im.sect ty inst with
  | some x => x.data
  | none => []

/-- The records of `n` bytes of a section. -/
def Image.recs (im : Image) (ty inst n : Nat) : List Nat := recsOf n (im.bytes ty inst)

/-- R18. -/
def gongPairOk (period strokes : Nat) : Bool :=
  decide (62500 ≤ period) && decide (period ≤ 1000000) && decide (10000000 % period = 0) && decide (1 ≤ strokes)
    && decide (strokes ≤ 28)

/-- GONG (R205). -/
def Image.gongOk (im : Image) : Bool :=
  let u (o n : Nat) : Nat := im.u tyGong 0 o n
  gongPairOk (u 0 4) (u 4 1) && decide (u 5 1 < 8) && decide (u 6 1 < 64) && decide (u 7 1 < 64) && decide (u 10 6 = 0)

/-- CORE_MAP of map `v` (R206). -/
def Image.mapOk (im : Image) (v : Nat) : Bool :=
  let u (o n : Nat) : Nat := im.u tyCoreMap v o n
  let es := (List.range im.lcReq).map (fun n => im.mapEntry v n)
  let present := (List.range im.lcReq).filter (fun n => !im.mapAbsent v n)
  let named := (present.filterMap (fun n =>
    let x := fieldOf (im.mapEntry v n) 0 5
    if x = 0x1F then none else some x))
  decide (u 0 1 < 32) && decide (u 1 1 < 4) && decide (u 2 1 < 2) && decide (u 3 1 = 0)
    && es.all (fun e => decide (e < 128) && (decide (fieldOf e 0 5 < 18) || decide (fieldOf e 0 5 = 0x1F)))
    && (if v = 0 then decide (im.mapNpc 0 = im.lcReq) && decide (im.mapShed 0 = 0)
            && es.all (fun e => decide (fieldOf e 5 1 = 0))
        else decide (im.mapNpc v = present.length))
    && (im.mapDefault v || decide named.Nodup)

/-- SLOT_PLAN of map `v` (R207, R213). -/
def Image.planOk (im : Image) (v : Nat) : Bool :=
  let l := [im.lists 0, im.lists 1]
  decide (im.u tySlotPlan v 32 32 = 0)
    && (indexed 0 (recsOf 4 ((im.bytes tySlotPlan v).drop 64))).all (fun x =>
      let n := x.1 / 8 % 16
      decide (fieldOf x.2 23 9 = 0) &&
        (!peValid x.2 ||
          (!im.mapAbsent v n && (l.getD (n % 2) []).any (fun r => decide (r.1 ≤ peStart x.2) && decide (peStart x.2 < r.1 + r.2)))))

/-- QUEUE_OVR of map `v` (R208). -/
def Image.ovrOk (im : Image) (v : Nat) : Bool :=
  match im.sect tyQueueOvr v with
  | none => true
  | some x => decide (x.len = 4 + 4 * leAt x.data 0 4)
      && (recsOf 4 (x.data.drop 4)).all (fun e => decide (fieldOf e 11 5 = 0) && decide (fieldOf e 21 11 = 0))

/-- The partitions of an image: (BASE, SIZE, FLOOR, RESERVED). -/
def Image.partitions (im : Image) : List (Nat × Nat × Nat × Bool) :=
  (im.recs tyPartitions 0 8).map (fun r => (fieldOf r 0 16, fieldOf r 16 16, fieldOf r 32 16, fieldOf r 48 1 = 1))

/-- PARTITIONS (R167, R209). -/
def Image.partitionsOk (im : Image) : Bool :=
  (im.recs tyPartitions 0 8).all (fun r => decide (fieldOf r 0 16 < 4096) && decide (fieldOf r 32 16 < 8192) && decide (fieldOf r 49 15 = 0))
    && im.partitions.all (fun p => decide (p.1 + p.2.1 ≤ 4096))
    && disjoint (im.partitions.map (fun p => (p.1, p.2.1)))

/-- Whether an endpoint has a kind in use and no other bit set (R209). -/
def endpointOk (e : Nat) : Bool :=
  let w := match fieldOf e 12 4 with
    | 0 => some 0 | 1 => some 5 | 2 => some 2 | 3 => some 2 | 4 => some 4 | 5 => some 0 | 6 => some 6 | _ => none
  match w with
  | some n => decide (fieldOf e 0 12 < 2 ^ n)
  | none => false

/-- QUEUES (R175, R209). -/
def Image.queuesOk (im : Image) : Bool :=
  (im.recs tyQueues 0 16).all (fun r =>
    let depth := fieldOf r 0 16
    let init := fieldOf r 16 16
    decide (fieldOf r 35 5 = 0) && decide (fieldOf r 42 6 = 0) && decide (fieldOf r 54 10 = 0) && decide (fieldOf r 96 32 = 0)
      && endpointOk (fieldOf r 64 16) && endpointOk (fieldOf r 80 16)
      && decide (1 ≤ init ∧ init ≤ depth ∧ depth ≤ 256)
      && (decide (fieldOf r 40 1 = 1) || (decide (depth = 1) && decide (fieldOf r 64 32 = 0))))

/-- Ones in the low eight bits. -/
def ones8 (m : Nat) : Nat := ((List.range 8).filter (fun i => m.testBit i)).length

/-- R179. -/
def pealPairOk (rmask rcount : Nat) : Bool := decide (rcount = ones8 rmask) && decide (1 ≤ rcount ∧ rcount ≤ 8)

/-- PEALS (R179, R209). -/
def Image.pealsOk (im : Image) : Bool :=
  (im.recs tyPeals 0 32).all (fun r =>
    decide (fieldOf r 50 14 = 0) && decide (fieldOf r 192 64 = 0) && decide (fieldOf r 0 16 < 1024)
      && (List.range 8).all (fun k => decide (fieldOf r (64 + 16 * k) 16 < 1024))
      && decide (fieldOf r 32 16 ≤ 256)
      && (decide (fieldOf r 49 1 = 0) ||
          (pealPairOk (fieldOf r 16 8) (fieldOf r 24 8) && decide (1 ≤ fieldOf r 32 16))))

/-- Whether an image's partition `p` is RESERVED. -/
def Image.isReserved (im : Image) (p : Nat) : Bool := ((im.partitions.getD p (0, 0, 0, false)).2.2.2)

/-- CHANNELS (R209). -/
def Image.channelsOk (im : Image) : Bool :=
  (im.recs tyChannels 0 8).all (fun r =>
    decide (fieldOf r 9 3 = 0) && decide (fieldOf r 49 15 = 0)
      && (decide (fieldOf r 48 1 = 0) || (decide (1 ≤ fieldOf r 16 8) && im.isReserved (fieldOf r 12 4))))

/-- PORTS (R209). -/
def Image.portsOk (im : Image) : Bool :=
  (indexed 0 (im.recs tyPorts 0 64)).all (fun x =>
    let r := x.2
    decide (fieldOf r 20 108 = 0) && decide (fieldOf r 384 128 = 0)
      && (List.range 16).all (fun k => decide (fieldOf r (128 + 16 * k) 16 < 1024))
      && (decide (4 ≤ x.1) || !im.isReserved (fieldOf r 0 4)))

/-- RINGS (R184, R209). -/
def Image.ringsOk (im : Image) : Bool :=
  (im.recs tyRings 0 64).all (fun r =>
    decide (fieldOf r 57 7 = 0) && decide (fieldOf r 121 7 = 0) && decide (fieldOf r 185 7 = 0) && decide (fieldOf r 218 6 = 0)
      && decide (fieldOf r 257 255 = 0)
      && (decide (fieldOf r 256 1 = 0) ||
          (decide (1 ≤ fieldOf r 205 13 ∧ fieldOf r 205 13 ≤ 4096) && decide (2 ≤ fieldOf r 234 16))))

/-- OVERFLOW (R209). -/
def Image.overflowOk (im : Image) : Bool :=
  (im.recs tyOverflow 0 16).all (fun r =>
    decide (fieldOf r 0 12 = 0) && decide (fieldOf r 57 7 = 0) && decide (fieldOf r 76 13 ≤ 4096) && decide (fieldOf r 95 33 = 0))

/-- PAIRS (R209). -/
def Image.pairsOk (im : Image) : Bool :=
  (im.recs tyPairs 0 16).all (fun r =>
    decide (fieldOf r 3 29 = 0) && decide (fieldOf r 121 7 = 0)
      && (!prValid r ||
        (decide (prSpace r < 3) && decide (prHalf r % 4096 = 0)
          && (decide (prSpace r ≠ 0) || decide (prBase r + 2 * prHalf r ≤ 0xFC000))
          && (decide (prSpace r ≠ 1) || im.partitions.any (fun p =>
                p.2.2.2 && decide (4096 * p.1 ≤ prBase r) && decide (prBase r + 2 * prHalf r ≤ 4096 * (p.1 + p.2.1)))))))

/-- SYNC (R210). -/
def Image.syncOk (im : Image) : Bool :=
  match im.sect tySync 0 with
  | none => true
  | some x => decide (x.len = 16 + 12 * leAt x.data 0 4) && decide (leAt x.data 4 12 = 0)
      && (recsOf 12 (x.data.drop 16)).all (fun e => decide (fieldOf e 16 16 = 0))

/-- HISTORY (R209). -/
def Image.historyOk (im : Image) : Bool :=
  (im.recs tyHistory 0 4).all (fun r => decide (fieldOf r 7 1 = 0) && decide (fieldOf r 17 15 = 0))

/-- The 2:1 limit between two clocks (R228, R312). -/
def ratioOk (a b : Nat) : Bool := decide (a ≤ 2 * b) && decide (b ≤ 2 * a)

/-- POWER (R211, R228, R312): each entry's own limits of clock and voltage; the limits of R228 against other core regions
and the rail are not tested here (DEDUCED, log entry 45). -/
def Image.powerOk (p : Params) (im : Image) : Bool :=
  let rs := (List.range p.ncg)
  let spine := im.rgnMhz 6
  let top := (rs.map (fun g => im.rgnMhz g)).foldl max 0
  let ramp := im.u tyPower 0 2 2
  (rs ++ [6, 7]).all (fun g => decide (im.deepest g ≤ 4) && decide (im.u tyPower 0 (8 + 8 * g + 5) 1 < 2)
      && decide (im.u tyPower 0 (8 + 8 * g + 6) 2 = 0))
    && decide (im.u tyPower 0 4 4 = 0)
    && rs.all (fun g => decide (400 ≤ im.rgnMhz g ∧ im.rgnMhz g ≤ 2200) && ratioOk (im.rgnMhz g) spine
        && decide (im.rgnMv g % 5 = 0) && decide (floorMv (im.rgnMhz g) ≤ im.rgnMv g) && decide (im.rgnMv g < 1024))
    && (decide (spine = 1600) || decide (spine = 800)) && decide (im.rgnMv 6 = 0)
    && decide (im.rgnMhz 7 = 0) && decide (im.rgnMv 7 = 0)
    && decide (1 ≤ ramp ∧ ramp ≤ 20) && decide (chargeOf 15 top ≤ im.u tyPower 0 0 2)

/-- The reactions each detector requires, in the bits of R212. -/
def requiredReactions : List Nat := [1, 5, 5, 3, 3, 9, 3, 3, 3, 1, 3, 19, 5, 19, 1, 7]

/-- The range of a detector's parameter, where it has one. -/
def paramRange (d : Nat) : Option (Nat × Nat) :=
  if d = 5 then some (5, 30) else if d = 13 then some (1, 15) else if d = 14 then some (1, 16) else none

/-- SAFETY (R212). -/
def Image.safetyOk (im : Image) : Bool :=
  (indexed 0 (im.recs tySafety 0 4)).all (fun x =>
    if 16 ≤ x.1 then decide (x.2 = 0)
    else
      let need := requiredReactions.getD x.1 0
      decide (fieldOf x.2 5 3 = 0) && decide (fieldOf x.2 12 4 = 0) && decide (x.2 % 32 &&& need = need)
        && (match paramRange x.1 with
            | some (lo, hi) => decide (lo ≤ fieldOf x.2 16 16 ∧ fieldOf x.2 16 16 ≤ hi)
            | none => true))

/-- What is wrong with a directory entry against a header, as the reasons of R75 but 6; 0 for nothing. -/
def dirReason (id : Nat) (d : DWord) (h : Option DWord) : Nat :=
  let hd := h.getD 0
  if 524288 < deBase d + deLen d then 1
  else if deBase d % 8 ≠ 0 then 2
  else if h.isNone ∨ deLen d = 0 ∨ rtLen hd ≠ deLen d ∨ (rtKind hd ≤ 7 ∧ rtMaskMode hd ≤ 2 ∧ deLen d ≠ routeLen (rtKind hd) (rtMaskMode hd)) then 3
  else if rtKind hd ≠ deKind d then 4
  else if rtTag hd ≠ id then 5
  else if dfld d 19 1 ≠ 0 ∨ dfld d 36 27 ≠ 0 ∨ dfld hd 26 6 ≠ 0 ∨ dfld hd 56 8 ≠ 0 ∨ 7 < rtKind hd ∨ 2 < rtWidth hd
      ∨ rtMaskMode hd = 3 ∨ (4 ≤ rtKind hd ∧ rtMaskMode hd ≠ 0) then 7
  else 0

/-- The groups of 8 entries that a range of entries touches, as (first, number). -/
def groupsOf (first count : Nat) : Nat × Nat :=
  if count = 0 then (first / 8, 0) else (first / 8, (first + count - 1) / 8 + 1 - first / 8)

/-- The route-table entry `i` as an image's ROUTE_BODY sections give it. -/
def Image.bodyEntry (im : Image) (i : Nat) : Option DWord :=
  (im.sects.find? (fun x => decide (x.ty = tyRouteBody) && decide (x.first ≤ i) && decide (i < x.first + x.count))).map
    (fun x => BitVec.ofNat 64 (leAt x.data (8 + 8 * (i - x.first)) 8))

/-- ROUTE_DIR and ROUTE_BODY (R75, R213). -/
def Image.routesOk (im : Image) : Bool :=
  let es := (indexed 0 (im.recs tyRouteDir 0 8)).map (fun x => (x.1, (BitVec.ofNat 64 x.2 : DWord)))
  let vs := es.filter (fun x => deValid x.2)
  es.all (fun x => decide (dfld x.2 19 1 = 0) && decide (dfld x.2 36 27 = 0))
    && vs.all (fun x => decide (dirReason x.1 x.2 (im.bodyEntry (deBase x.2)) = 0))
    && disjoint (vs.map (fun x => groupsOf (deBase x.2) (deLen x.2)))
    && (im.sects.filter (fun x => decide (x.ty = tyRouteBody))).all (fun x =>
        decide (x.len = 8 + 8 * x.count) && decide (x.first % 8 = 0) && decide (x.first + x.count ≤ 524288))
    && (im.sects.filter (fun x => decide (x.ty = tyLists))).all (fun x => decide (x.len = 8 + 32 * x.count))

/-- SIGNATURE (R216). -/
def Image.sigOk (im : Image) : Bool :=
  match im.sect tySignature 0 with
  | none => true
  | some x => decide (leAt x.data 97 7 = 0) && decide (leAt x.data 200 56 = 0)

/-- Every check of section content (R214). -/
def Image.contentOk (p : Params) (im : Image) : Bool :=
  im.gongOk
    && (List.range (im.nvar + 1)).all (fun v => im.mapOk v && im.planOk v && im.ovrOk v)
    && im.partitionsOk && im.queuesOk && im.pealsOk && im.channelsOk && im.portsOk && im.ringsOk && im.overflowOk
    && im.pairsOk && im.syncOk && im.historyOk && Image.powerOk p im && im.safetyOk && im.routesOk && im.sigOk

/-! ### Fit checks (R234, R235) -/

/-- The gong types of the pattern of an image. -/
def Image.patternTypes (im : Image) : List Nat :=
  (List.range (im.u tyGong 0 6 1 + 1)).map (fun i => fieldOf (im.u tyGong 0 (16 + i / 2) 1) (4 * (i % 2)) 4)

/-- The smallest SLACK over the pattern's types under a map. -/
def Image.minSlack (im : Image) (v : Nat) : Int :=
  (im.patternTypes.map (fun t => im.slack v t)).foldl min 0x7FFF

/-- Read tags that an image gives the channels of MP0 (R234). -/
def Image.tagsMp0 (im : Image) : Nat :=
  ((im.recs tyChannels 0 8).map (fun r =>
    if fieldOf r 48 1 = 1 ∧ fieldOf r 0 3 = 0 then 16 * fieldOf r 24 8 else 0)).foldl (· + ·) 0

/-- Whether an image passes the fit checks of code 0x0203. -/
def State.fitOk (s : State) (im : Image) : Bool :=
  match im.chooseMap s.healthy.length with
  | none => false
  | some v =>
    decide (im.lcReq ≤ s.par.nlc) && decide (im.hdr 36 4 ≤ 196608)
      && decide (((im.recs tyQueues 0 16).map (fun r => fieldOf r 0 16)).foldl (· + ·) 0 ≤ 208896)
      && (im.lists 0 ++ im.lists 1).all (fun r => decide (r.1 + r.2 ≤ 12288))
      && decide (im.tagsMp0 ≤ 1536) && decide (0 ≤ im.minSlack v)

/-- The figures of the fit check: those of the map of R230, none left where no map can be applied. -/
def State.marginOf (s : State) (im : Image) : Margin :=
  match im.chooseMap s.healthy.length with
  | none => { slack := 0, map := 0, spares := 0, healthy := s.healthy.length }
  | some v => { slack := im.minSlack v, map := v, spares := s.healthy.length - im.mapNpc v, healthy := s.healthy.length }

/-- Whether two ranges of entries share a group of 8. -/
def sameGroup (a b : Nat × Nat) : Bool :=
  let x := groupsOf a.1 a.2
  let y := groupsOf b.1 b.2
  decide (0 < x.2) && decide (0 < y.2) && decide (x.1 < y.1 + y.2) && decide (y.1 < x.1 + x.2)

/-- Whether two ranges meet. -/
def rangesMeet (a b : Nat × Nat) : Bool :=
  decide (0 < a.2) && decide (0 < b.2) && decide (a.1 < b.1 + b.2) && decide (b.1 < a.1 + a.2)

/-- The ranges of the live route-table entries (R74, R219): those of the active directory, and those of a load from step 5. -/
def State.liveRanges (s : State) : List (Nat × Nat) :=
  (s.routes.active.filter (fun e => deValid e.2 && !s.routes.cleared.contains e.1)).map (fun e => (deBase e.2, deLen e.2))
    ++ s.routes.extra

/-- Whether an image's bulk areas overlap those of R219. -/
def State.overlaps (s : State) (im : Image) : Bool :=
  let shadow := s.routes.dirty.filterMap (fun id =>
    let d := SMap.get s.routes.shadow 0 id
    if deValid d then some (deBase d, deLen d) else none)
  let own := match s.image with | some a => a.bodies | none => []
  im.bodies.any (fun b => (own ++ s.liveRanges ++ shadow).any (fun a => sameGroup a b))
    || [0, 1].any (fun q => (im.lists q).any (fun b =>
        (match s.image with | some a => a.lists q | none => []).any (fun a => rangesMeet a b)))

/-- Whether the block is idle (R219): gongs off, no list on any core, no route update armed. -/
def State.idle (s : State) : Bool :=
  !s.gong.en && !s.routes.armed && s.cores.all (fun e => e.2.fg.list.isNone && e.2.bg.list.isNone)

/-! ### Records and failures -/

/-- The figures a CFG_LOAD record shows (R238): those of the fit check from the end of it on, and nothing for a load that ended
before it (DEDUCED, log entry 47). -/
def CfgUnit.figures (u : CfgUnit) (code : Nat) : Margin :=
  let none_ : Margin := { slack := 0, map := 0, spares := 0, healthy := 0 }
  match u.state with
  | .empty | .loading | .failed => none_
  | .verify => if code = 0x0206 then none_ else u.margin
  | .writing | .staged | .armed => u.margin

/-- The warnings a load has raised once it passes its fit checks (R235): 0x0204 and 0x0205 (DEDUCED, log entry 47). -/
def CfgUnit.warnings (u : CfgUnit) : Bool × Bool :=
  match u.state with
  | .empty | .loading | .failed | .verify => (false, false)
  | .writing | .staged | .armed => (decide (u.margin.slack < 52), decide (u.margin.spares = 0))

/-- CFG_LOAD (R238). -/
def State.cfgLoadRec (s : State) (code id : Nat) (m : Margin) (w : Bool × Bool) : State :=
  s.evt 0x0080 0 [(0, 16, code), (16, 32, id), (48, 16, unsigned m.slack 16), (64, 5, m.spares), (69, 3, m.map), (72, 1, b2n w.1),
    (73, 1, b2n w.2)]

/-- The phase of a load: 0 none, 1 header and table, 2 pass 1, 3 pass 2; the pass number tells late responses apart. -/
def CfgUnit.phase (c : CfgUnit) : Nat := c.pass % 4

/-- The unit goes on to a phase: its requests not yet on the port are dropped, responses to the others will be discarded. -/
def State.cfgPhase (s : State) (ph : Nat) : State :=
  { s with
    cfg := { s.cfg with pass := 4 * (s.cfg.pass / 4 + 1) + ph, buf := [], err := none }
    mp := { s.mp with reqs := s.mp.reqs.filter (fun r =>
      r.onPort || !(match r.who with | .cfg _ => true | _ => false)) } }

/-- The identifier of the image in the staged half, 0 for none. -/
def CfgUnit.imageId (c : CfgUnit) : Nat := match c.staged with | some im => im.hdr 12 4 | none => 0

/-- A load ends with a code (R217, R220): the staged half is invalid, a latched request is discarded, a route area claimed
from step 5 is free again. -/
def State.loadFail (s : State) (code : Nat) : State :=
  let id := s.cfg.imageId
  let m := s.cfg.figures code
  let w := s.cfg.warnings
  let s := s.cfgPhase 0
  let s := { s with
    cfg := { s.cfg with state := .failed, code := code, staged := none, stagedId := 0, latched := false }
    routes := { s.routes with extra := [] } }
  s.cfgLoadRec code id m w

/-! ### Fetches (R218, R270) -/

/-- Bursts of at most 64 beats that do not cross a 4 KB boundary, for `beats` beats from `va`. -/
def burstsOf : Nat → Nat → Nat → List (Nat × Nat)
  | 0, _, _ => []
  | f + 1, va, beats =>
    if beats = 0 then []
    else
      let n := min beats (64 - va / 64 % 64)
      (va, n) :: burstsOf f (va + 64 * n) (beats - n)

/-- CFG_IMG_ADDR and CFG_IMG_LEN, which is at most 8,388,608 (R8). -/
def State.imgAddr (s : State) : Nat := (s.reg 0x40000).toNat + 2 ^ 32 * fld (s.reg 0x40004) 0 25
def State.imgLen (s : State) : Nat := min 8388608 (fld (s.reg 0x40008) 0 24)

/-- Requests for a range of the image. -/
def State.cfgFetch (s : State) (off len : Nat) : State :=
  let n := ceilDiv len 64
  (burstsOf n (s.imgAddr + off) n).foldl (fun s b => s.newReq (.cfg s.cfg.pass) 0 none b.1 b.2 false [] []) s

/-- The bytes fetched of a range of the image. -/
def State.cfgBytes (s : State) (off len : Nat) : List Byte :=
  let a := s.imgAddr + off
  ((s.cfg.buf.filter (fun e => decide (a ≤ e.1) && decide (e.1 < a + len))).flatMap (fun e => e.2)).take len

/-- Whether the unit waits for responses of its present pass. -/
def State.cfgWaits (s : State) : Bool := s.mp.reqs.any (fun r => decide (r.who = Requester.cfg s.cfg.pass))

/-! ### The steps of R217 -/

/-- Steps 3 and 4 (R216, R234, R235): the signature, the fit, the overlap; then step 5 begins. -/
def State.verifyAndFit (s : State) (im : Image) (sigOk : Bool) : State :=
  let s := { s with cfg := { s.cfg with state := .verify } }
  let s := if sigOk then { s with cfg := { s.cfg with margin := s.marginOf im } } else s
  if !sigOk then s.loadFail 0x0206
  else if !s.fitOk im then s.loadFail 0x0203
  else if s.overlaps im && !s.idle then s.loadFail 0x0208
  else
    let idle := s.idle
    let s := s.cfgPhase 3
    let s := { s with
      cfg := { s.cfg with state := .writing, staged := some im
                          activeValid := s.cfg.activeValid && !idle }
      routes := { s.routes with extra := im.bodies, cleared := if idle then s.routes.active.map (·.1) else s.routes.cleared } }
    (im.sects.filter (fun x => isBulk x.ty)).foldl (fun s x => s.cfgFetch x.off x.len) s

/-- Step 1: the header and the section table have arrived. -/
def State.headerRead (s : State) : State :=
  let b := s.cfgBytes 0 (min 8256 s.imgLen)
  let im : Image := { header := b.take 64, sects := tableOf b, crc := 0, signed := false }
  if !headerOk s.imgLen b then
    { s with cfg := { s.cfg with staged := some im } }.loadFail 0x0201
  else if fieldOf (leAt b 16 1) (Size.configBit s.par.size) 1 = 0 then
    { s with cfg := { s.cfg with staged := some im } }.loadFail 0x0209
  else
    let s := s.cfgPhase 2
    let s := { s with cfg := { s.cfg with staged := some im } }
    s.cfgFetch 0 s.imgLen

/-- Step 2: the whole image has streamed by (R215); then steps 3 and 4. -/
def State.imageRead (s : State) : State :=
  let all := s.cfgBytes 0 s.imgLen
  let h := all.take 64
  let sg := leAt h 24 4
  let full : Image := { header := h, crc := 0, signed := false,
                        sects := (tableOf all).map (fun x => { x with data := (all.drop x.off).take x.len }) }
  let crc := crc32c ((h.take 28) ++ [0, 0, 0, 0] ++ ((all.take sg).drop 32))
  let structBad := full.sects.any (fun x => !isBulk x.ty && decide (crc32c x.data ≠ x.scrc))
  let isSigned := decide (leAt h 19 1 % 2 = 1)
  let key := full.bytes tySignature 0
  let digest := (List.range 12).flatMap (fun i => leBytes 4 (s.reg (0x40080 + 4 * i)).toNat)
  let good := isSigned && decide (sha384 (key.take 97) = digest)
    && ecdsaVerify (key.take 97) (sha384 (all.take sg)) ((key.drop 104).take 48) ((key.drop 152).take 48)
  let sigOk := if isSigned then good else !bit (s.reg 0x4000C) 4
  if crc ≠ leAt h 28 4 ∨ structBad then s.loadFail 0x0202
  else if !Image.contentOk s.par full then s.loadFail 0x0207
  else
    let sects := full.sects.map (fun x => if isBulk x.ty then { x with data := x.data.take 8 } else x)
    let kept := (h ++ sects.flatMap (fun x => if isBulk x.ty then [] else x.data))
    let s := { s with cfg := { s.cfg with bad := s.cfg.bad.filter (fun w => decide (w / 6144 = b2n s.cfg.half)) } }
    s.verifyAndFit { header := h, sects := sects, crc := crc32c kept, signed := good } sigOk

/-- The unit goes on when the last response of its pass is in; an error fails the load at once (R218) (DESIGN CHOICE, log entry 46). -/
def State.cfgProgress (s : State) : State :=
  if s.cfg.resume || decide (s.cfg.phase = 0) then s
  else if s.cfg.err.isSome then s.loadFail 0x020B
  else if s.cfgWaits then s
  else if s.cfg.phase = 1 then
    let s := s.headerRead
    if s.cfg.err.isSome then s.loadFail 0x020B else s
  else if s.cfg.phase = 2 then
    let s := s.imageRead
    if s.cfg.err.isSome then s.loadFail 0x020B else s
  else s

/-- A staged image discarded (R217): its record carries 0x0210. -/
def State.discardStaged (s : State) : State :=
  let id := s.cfg.imageId
  let m := s.cfg.figures 0x0210
  let w := s.cfg.warnings
  let s := { s with
    cfg := { s.cfg with staged := none, stagedId := 0, state := .empty, code := 0x0210, latched := false, tries := 0 }
    routes := { s.routes with extra := [] } }
  s.cfgLoadRec 0x0210 id m w

/-- CFG_CTRL.LOAD (R201, R217) (DEDUCED, log entry 45) (DEDUCED, log entry 55). -/
def State.loadStart (s : State) : State :=
  let go (s : State) : State :=
    let s := s.cfgPhase 1
    let s := { s with cfg := { s.cfg with state := .loading, staged := none, stagedId := 0, tries := 0 } }
    if s.imgLen = 0 ∨ s.imgAddr % 64 ≠ 0 then s.loadFail 0x0201
    else
      let s := s.cfgFetch 0 (min 8256 s.imgLen)
      s.cfgProgress
  if s.cfg.resume then s
  else
  match s.cfg.state with
  | .empty | .failed => go s
  | .staged => go s.discardStaged
  | _ => s

/-- CFG_CTRL.ABORT (R217). -/
def State.loadAbort (s : State) : State :=
  match s.cfg.state with
  | .loading | .verify | .writing => s.loadFail 0x020A
  | _ => s

/-- CFG_CTRL.DROP (R217). -/
def State.loadDrop (s : State) : State :=
  match s.cfg.state with
  | .loading | .verify | .writing => { s with cfg := { s.cfg with latched := false } }
  | .staged | .armed => s.discardStaged
  | .empty | .failed => s

end Sys2Proof.Machine
end

