-- ==== Sys2Proof/Machine/Pairs.lean ====
section
/-! DEFINITION. Agreement pairs (R226 to R229): their latches, when their resource is idle, the check each makes, and their
application or rejection. -/

namespace Sys2Proof.Machine

/-- The latches of a pair. -/
def State.pair (s : State) : PairId → PairLatch
  | .gong => s.cfg.pairGong
  | .partition p => SMap.get s.cfg.pairPart .closed p
  | .queue q => SMap.get s.cfg.pairQueue .closed q
  | .peal g => SMap.get s.cfg.pairPeal .closed g
  | .region n => SMap.get s.cfg.pairRegion .closed n
  | .admission => s.cfg.pairAdmit

/-- The latches of a pair replaced. -/
def State.setPair (s : State) (i : PairId) (x : PairLatch) : State :=
  { s with cfg :=
      match i with
      | .gong => { s.cfg with pairGong := x }
      | .partition p => { s.cfg with pairPart := SMap.set s.cfg.pairPart .closed p x }
      | .queue q => { s.cfg with pairQueue := SMap.set s.cfg.pairQueue .closed q x }
      | .peal g => { s.cfg with pairPeal := SMap.set s.cfg.pairPeal .closed g x }
      | .region n => { s.cfg with pairRegion := SMap.set s.cfg.pairRegion .closed n x }
      | .admission => { s.cfg with pairAdmit := x } }

/-- Whether both halves of a pair are pending (R227). -/
def PairLatch.complete (x : PairLatch) : Bool := x.a.isSome && x.b.isSome

/-- Whether a pair is OPEN (R227). -/
def PairLatch.open_ (x : PairLatch) : Bool := x.a.isSome != x.b.isSome

/-- The RWP field that a half of a pair is: its width in bits, which stand at bit 0 of its register. -/
def pairWidth : PairId → Half → Nat
  | .gong, .a => 20 | .gong, .b => 5
  | .partition _, .a => 12 | .partition _, .b => 13
  | .queue _, _ => 9
  | .peal _, .a => 8 | .peal _, .b => 4
  | .region _, .a => 12 | .region _, .b => 10
  | .admission, .a => 16 | .admission, .b => 5

/-- The HCP offset of the register that holds a half of a pair. -/
def pairOff : PairId → Half → Nat
  | .gong, .a => 0x10408 | .gong, .b => 0x1040C
  | .partition p, .a => 0x61000 + 0x10 * p | .partition p, .b => 0x61004 + 0x10 * p
  | .queue q, .a => 0x64000 + 0x10 * q | .queue q, .b => 0x64004 + 0x10 * q
  | .peal g, .a => 0x62000 + 0x20 * g | .peal g, .b => 0x62004 + 0x20 * g
  | .region n, .a => 0x20100 + 0x10 * n | .region n, .b => 0x20104 + 0x10 * n
  | .admission, .a => 0x20300 | .admission, .b => 0x20304

/-- Kind and instance of a pair in CFG_PAIR (R238). -/
def pairCode : PairId → Nat × Nat
  | .gong => (0, 0)
  | .partition p => (1, p)
  | .queue q => (2, q)
  | .peal g => (3, g)
  | .region n => (4, n)
  | .admission => (5, 0)

/-- Whether a pool buffer is free. -/
def State.bufFree (s : State) (b : Nat) : Bool := decide ((s.buffer b).refs = 0)

/-- Buffers of a range. -/
def bufRange (base size : Nat) : List Nat := (List.range size).map (fun i => base + i)

/-- Whether the resource of a pair is idle (R226). -/
def State.pairIdle (s : State) : PairId → Bool
  | .gong => !s.gong.en
  | .partition p => (bufRange (s.part p).base (s.part p).size).all (fun b => s.bufFree b)
  | .queue q => (s.queue q).handles.isEmpty && decide ((s.queue q).reserved = 0)
  | .peal g => (List.range 8).all (fun k =>
      !(s.queue ((s.peal g).recvQueue k)).handles.any (fun e => decide (e.peal = some g)))
  | .region n => decide ((s.region n).state ≠ .run)
  | .admission => decide (s.pwr.admitted = 0) && s.pwr.fgQ.isEmpty && s.pwr.bgQ.isEmpty

/-- The depth a queue counts in the sum of R177: the larger of that in force and that pending. -/
def State.depthOf (s : State) (q : Nat) : Nat := max (s.queue q).depth ((s.pair (.queue q)).a.getD 0)

/-- The depth sum with a new depth for queue `q` (R177). -/
def State.depthSum (s : State) (q depth : Nat) : Nat :=
  (List.range 1024).foldl (fun a k => a + (if k = q then depth else s.depthOf k)) 0

/-- Whether queue values hold the handles of a queue (R175). -/
def Queue.fits (x : Queue) (depth init : Nat) : Bool :=
  decide (1 ≤ init) && decide (init ≤ depth) && decide (depth ≤ 256) && decide (x.handles.length + x.reserved ≤ init)

/-- The neighbours of a core region with their temperatures: the regions beside it and the spine (R315). -/
def State.neighbours (s : State) (n : Nat) : List Nat :=
  ((if 0 < n then [n - 1] else []) ++ [n + 1]).filter (fun k => decide (k < s.par.ncg)) ++ [6]

/-- Whether a force of R316 holds a clock down: a neighbour's temperature differs by more than 15 °C (DEDUCED, log entry 50). -/
def State.hot (s : State) (n : Nat) : Bool :=
  (s.neighbours n).any (fun k => decide (60 < ((s.region n).temp - (s.region k).temp).natAbs))

/-- R228, and R316 for a forced region (DEDUCED, log entry 50). -/
def State.regionPairOk (s : State) (n mhz mv : Nat) : Bool :=
  let near := (s.neighbours n).filter (fun k => decide (k < 6))
  decide (400 ≤ mhz ∧ mhz ≤ 2200) && decide (mv % 5 = 0) && decide (floorMv mhz ≤ mv) && decide (mv ≤ s.pwr.railMv)
    && decide (s.pwr.railMv ≤ mv + 120)
    && near.all (fun k => ratioOk mhz (s.region k).mhz && decide (((mv : Int) - (s.region k).mv).natAbs ≤ 120))
    && ratioOk mhz s.pwr.spineMhz
    && !((s.region n).force.isSome && decide ((s.region n).mhz < mhz) && s.hot n)

/-- The charge of class 15 at the highest clock in force among the core regions (R317). -/
def State.topCharge (s : State) : Nat :=
  chargeOf 15 (((List.range s.par.ncg).map (fun g => (s.region g).mhz)).foldl max 0)

/-- The check a pair makes at apply time (R226). -/
def State.pairOk (s : State) (i : PairId) (a b : Nat) : Bool :=
  match i with
  | .gong => gongPairOk a b
  | .partition p =>
    decide (a + b ≤ 4096)
      && (List.range 16).all (fun k => decide (k = p) || !rangesMeet (a, b) ((s.part k).base, (s.part k).size))
      && (bufRange (s.part p).base (s.part p).size).all (fun x => decide (a ≤ x ∧ x < a + b) || s.bufFree x)
  | .queue q => (s.queue q).fits a b && decide (s.depthSum q a ≤ 208896)
  | .peal _ => pealPairOk a b
  | .region n => s.regionPairOk n a b
  | .admission => decide (1 ≤ b ∧ b ≤ 20) && decide (s.topCharge ≤ a)

/-- The free list of a HANDLE partition after its range changes by a pair (R166, R167): leavers go, joiners that are free
join the tail in ascending order. -/
def State.partApply (s : State) (p base size : Nat) : State :=
  let x := s.part p
  let inOld (b : Nat) : Bool := decide (x.base ≤ b ∧ b < x.base + x.size)
  let inNew (b : Nat) : Bool := decide (base ≤ b ∧ b < base + size)
  let free := if x.reserved then [] else
    x.free.filter inNew ++ (bufRange base size).filter (fun b => !inOld b && s.bufFree b)
  s.setPart p { x with base := base, size := size, free := free }

/-- DEPTH and INIT of a queue put in force: the producer's credits follow (R175). -/
def Queue.apply (x : Queue) (depth init : Nat) : Queue :=
  { x with depth := depth, init := init, credits := init - x.handles.length }

/-- Clock and voltage of a core region put in force (R313): a region in RUN pauses for the change; a rise ends a force
(DEDUCED, log entry 49) (DESIGN CHOICE, log entry 89). -/
def State.applyRegion (s : State) (n mhz mv : Nat) : State :=
  let r := s.region n
  s.setRegion n { r with mhz := mhz, mv := mv, force := if r.mhz < mhz then none else r.force,
                         applying := r.applying || decide (r.state = .run) }

/-- Both values of a pair that passed take effect at once (R229). -/
def State.pairTake (s : State) (i : PairId) (a b : Nat) : State :=
  match i with
  | .gong =>
    { s with gong := { s.gong with period := a, strokes := b } }.evt 0x0024 0 [(0, 20, a), (20, 5, b)]
  | .partition p => s.partApply p a b
  | .queue q => s.setQueue q ((s.queue q).apply a b)
  | .peal g => s.setPeal g { s.peal g with rmask := BitVec.ofNat 8 a, rcount := b }
  | .region n => s.applyRegion n a b
  | .admission => { s with pwr := { s.pwr with budget := a, ramp := b } }

/-- A COMPLETE pair checked, then applied or rejected whole (R229). -/
def State.applyPair (s : State) (i : PairId) : State :=
  match (s.pair i).a, (s.pair i).b with
  | some a, some b =>
    let ok := s.pairOk i a b
    let s := s.setPair i .closed
    if ok then s.pairTake i a b
    else s.evt 0x0083 0 [(0, 16, 0x0211), (16, 3, (pairCode i).1), (19, 10, (pairCode i).2)]
  | _, _ => s

/-- The pairs that are not CLOSED, in the order of the rows of R226. -/
def State.openPairs (s : State) : List PairId :=
  (if s.cfg.pairGong = .closed then [] else [.gong])
    ++ s.cfg.pairPart.map (fun e => .partition e.1) ++ s.cfg.pairQueue.map (fun e => .queue e.1)
    ++ s.cfg.pairPeal.map (fun e => .peal e.1) ++ s.cfg.pairRegion.map (fun e => .region e.1)
    ++ (if s.cfg.pairAdmit = .closed then [] else [.admission])

/-- COMPLETE pairs at step 5 of a gong, one at a time in the order of R229; before READY they wait for the commit (R371). -/
def State.applyPairs (s : State) : State := if !s.boot.ready then s else s.openPairs.foldl (fun s i => s.applyPair i) s

/-- A write to a half of a pair (R227). -/
def State.pairWrite (s : State) (i : PairId) (h : Half) (v : Nat) : State :=
  let x := s.pair i
  let v := v % 2 ^ pairWidth i h
  let y : PairLatch := match h with
    | .a => { x with a := some v }
    | .b => { x with b := some v }
  -- whether the pair waits for a gong is settled when it becomes COMPLETE (R229)
  s.setPair i (if y.complete && !x.complete then { y with busy := !s.pairIdle i } else y)

/-- PAIR_APPLY (R15, R229): a COMPLETE pair applies outside a gong where its resource was idle, or, with gongs off, is idle.
Before READY it waits for the commit (R371). -/
def State.pairNow (s : State) (i : PairId) : State :=
  let x := s.pair i
  if s.boot.ready && x.complete && (!x.busy || (!s.gong.en && s.pairIdle i)) then s.applyPair i else s

/-- CFG_CTRL.PAIR_DROP: every OPEN pair discarded (R227). -/
def State.pairDrop (s : State) : State :=
  s.openPairs.foldl (fun s i => if (s.pair i).open_ then s.setPair i .closed else s) s

/-- Whether a pair's registers exist in the configuration (R3). -/
def State.hasPair (s : State) : PairId → Bool
  | .region n => decide (n < s.par.ncg)
  | _ => true

/-- PAIR_APPLY. -/
def execPairApply (i : PairId) (s : State) : Host.Outcome State Fault Refusal := .next (settle s (s.pairNow i))

end Sys2Proof.Machine
end

