-- ==== Sys2Proof/Machine/Knell.lean ====
section
/-! DEFINITION. Knell and return of a physical core (R335 to R341): the steps of a knell, fencing, the start of a spare
(R62, R92, R139), the change of a core's partition (R59, R61), and the return in step 5 of a gong. -/

namespace Sys2Proof.Machine

/-- A write of TRF_PART.PART (R59): a change waits for the core to drain; the present value has no effect. -/
def Core.partWrite (k : Core) (p : Bool) : Core :=
  if k.part = p then k else { k with partPend := some p, drain := if k.partPend.isSome then k.drain else 0 }

/-- A tile register of a started spare (R62): every word in poison form, kind FAULT, t = 0. -/
def poisonedTile (part : Bool) : Tile :=
  { words := [], bad := List.range (if part then 256 else 512), kinds := kFault, t := 0 }

/-- A spare started for a logical core (R62, R92, R139).  Its partition applies at once, with no TRF_PART record (DESIGN CHOICE,
log entry 98). -/
def Core.startSpare (k : Core) (part : Bool) : Core :=
  { k with part := part, partPend := none, partMap := false, drain := 0, slotOf := [], latches := [], slots := [], solveQ := []
           tiles := (List.range (if part then 28 else 14)).map (fun r => (r, poisonedTile part)) }

/-- PART of a logical core in the map in force (R61). -/
def State.mapPart (s : State) (lc : Nat) : Bool :=
  match s.image with
  | some im => im.mapPart s.cfg.map lc
  | none => false

/-- The lowest-numbered healthy core that the map leaves unmapped (R335 step 4). -/
def State.spare (s : State) : Option Nat := s.healthy.find? (fun pc => (s.lcOf pc).isNone)

/-- The drain window in µs (detector 14) (DEDUCED, log entry 51). -/
def State.drainUs (s : State) : Nat := clampRange (fld (SMap.get s.sm.detEntry 0 14) 16 16) 1 16

/-- Requests of a core at the memory ports when it is knelled (R293, R295): those not on a port are dropped as stale, with their
translations and page requests; reads on a port complete without effect, and write bursts there go on with strobes off. -/
def State.dropCoreReqs (s : State) (pc : Nat) : State :=
  let mine (r : PReq) : Bool := decide (r.who.core = some pc)
  let gone := s.mp.reqs.filter (fun r => mine r && !r.onPort)
  let kept := (s.mp.reqs.filter (fun r => !(mine r && !r.onPort))).map (fun r => if mine r then { r with dead := true } else r)
  let waits (x : XReq) (l : List PReq) : Bool := l.any (fun r => decide (r.st = .xlp x.id))
  let s := { s with mp := { s.mp with
      reqs := kept
      pageReqs := s.mp.pageReqs.filter (fun p => !gone.any (fun r => decide (r.id = p.req)))
      xreqs := s.mp.xreqs.map (fun x => if waits x gone && !waits x kept then { x with stale := true } else x) } }
  let s := s.strobesOff mine
  gone.foldl (fun s r => s.portGhost r 0) s

/-- The buffers a core filled in the present gong (R197): not yet free, their SIDE names the core, an incarnation and this gong. -/
def State.filledBy (s : State) (pc inc : Nat) : List Nat :=
  (s.st.bufs.filter (fun e =>
    decide (0 < e.2.refs) && decide (sidePc e.2.side = pc) && decide (sideInc e.2.side = inc)
      && decide (sideGsn e.2.side = s.gsn16))).map (fun e => e.1)

/-- Those buffers marked FAULT, every row (R197). -/
def State.markFilled (s : State) (pc inc : Nat) : State :=
  (s.filledBy pc inc).foldl (fun s b => s.markBuffer b kFault 0xFFFF) s

/-- Both contexts of a core stop and their state is lost (R136); its solver queue is discarded and its solved routes end (R77, R92)
(DEDUCED, log entry 51). -/
def State.stopCore (s : State) (pc : Nat) : State :=
  let clear (x : Context) : Context := { x with queue := [] }
  let s := s.onCore pc (fun k => { k with fg := clear k.fg, bg := clear k.bg })
  let s := (s.stopList pc .fg 0 4).stopList pc .bg 0 4
  s.onCore pc (fun k => { k with
    held := true, fg := Context.reset, bg := Context.reset, solveQ := [], partPend := none, partMap := false
    slots := k.slots.filter (fun e => !e.2.fetch && !e.2.solved && !e.2.bad) })

/-- A knell or fencing (R335, R339), asked for by detector `det` or, with 0xF, by KNELL_REQ; its record follows at the end of
the drain window (DEDUCED, log entry 51). -/
def State.knell (s : State) (pc det : Nat) : State :=
  if !s.hasCore pc || s.fenced pc then s
  else
    let lc := s.lcOf pc
    let old := s.incOf pc
    let new := (old + 1) % 16
    let s := s.stopCore pc
    let s := { s with sm := { s.sm with
      incs := SMap.set s.sm.incs 0 pc new
      fenced := s.sm.fenced ||| BitVec.ofNat 18 (2 ^ pc)
      diagOk := s.sm.diagOk &&& ~~~BitVec.ofNat 18 (2 ^ pc)
      -- a run that started before the knell counts for nothing (R341)
      diagBusy := s.sm.diagBusy && decide (s.sm.diagPc ≠ pc)
      knells := satAdd s.sm.knells 1 max16 } }
    let s := match lc with
      | some n => s.setLc n { s.lc n with pc := none }
      | none => s
    let spare := if lc.isSome then s.spare else none
    let s := match lc with
      | none => s
      | some n =>
        let s := s.setLc n { s.lc n with pc := spare, knelled := true, must := false, cutMust := false }
        let s := s.fillFor n [] kFault 3
        match spare with
        | some p => s.onCore p (fun k => k.startSpare (s.mapPart n))
        | none => { s with cfg := { s.cfg with noMap := s.cfg.activeValid } }
    let marked := (s.filledBy pc old).length
    let s := s.markFilled pc old
    let code := if lc.isNone then 0x0303 else if spare.isSome then 0x0301 else 0x0302
    let d : Drain := { pc := pc, lc := lc, oldInc := old, newInc := new, spare := spare, det := det, marked := marked,
                       ghosts := 0, code := code, at_ := s.tu.ltc + s.ticksOf (1000 * s.drainUs) }
    { s with sm := { s.sm with drains := s.sm.drains ++ [d] } }.dropCoreReqs pc

/-- KNELL (R357) (DEDUCED, log entry 51). -/
def State.knellRec (s : State) (d : Drain) : State :=
  s.evt 0x00C1 0 [(0, 16, d.code), (16, 5, d.pc), (21, 4, d.lc.getD 0xF), (25, 4, d.oldInc), (29, 4, d.newInc),
    (33, 5, d.spare.getD 0x1F), (38, 4, d.det), (42, 13, d.marked), (55, 16, d.ghosts)]

/-- The unknells that were asked for take effect (R341): each core leaves reset as a spare. -/
def State.unknellNow (s : State) : State :=
  let one (s : State) (pc : Nat) : State :=
    let s := s.setCore pc { Core.reset with inc := s.incOf pc }
    let s := { s with sm := { s.sm with fenced := s.sm.fenced &&& ~~~BitVec.ofNat 18 (2 ^ pc) } }
    s.evt 0x00C2 0 [(0, 16, 0x0304), (16, 5, pc), (21, 4, s.incOf pc), (25, 1, 1)]
  s.sm.unknell.foldl one { s with sm := { s.sm with unknell := [] } }

end Sys2Proof.Machine
end

