-- ==== Sys2Proof/Machine/Commit.lean ====
section
/-! DEFINITION. Starting and stopping gongs (R14, R15), core maps and variants (R206, R208, R230 to R233), and the commit of a
staged image (R220 to R224). -/

namespace Sys2Proof.Machine

/-! ### Starting and stopping gongs -/

/-- The slot count of the first boundary at which presented time is still to arrive. -/
def State.nextBoundary (s : State) : Int := s.slotCount + 1

/-- Gongs start (R14): in network mode at the next boundary, in free-run mode 1 µs of presented time later. -/
def State.gongStart (s : State) : State :=
  { s with gong := { s.gong with
      en := true, running := false, nextN := s.nextBoundary, freeAcc := 0, freeNext := 1000 * 2 ^ 64, freeN := 0 } }

/-- A list that gongs left behind before its deadline gong (R15) (DEDUCED, log entry 53). -/
def ListRef.release (l : ListRef) : ListRef := { l with free := true }

/-- The lists of a context left behind. -/
def Context.releaseLists (x : Context) : Context :=
  { x with list := x.list.map ListRef.release, queue := x.queue.map ListRef.release }

/-- Gongs stop (R15): no list already released is cut, the curfew ends, a MODE that waits takes effect (DEDUCED, log entry 59). -/
def State.gongStop (s : State) : State :=
  { s with
    gong := { s.gong with en := false, inCurfew := false, mode := s.gong.modePend }
    cores := s.cores.map (fun e => (e.1, { e.2 with fg := e.2.fg.releaseLists, bg := e.2.bg.releaseLists })) }

/-- GONG_CTRL.EN written. -/
def State.setGongEn (s : State) (en : Bool) : State :=
  if en = s.gong.en then s else if en then s.gongStart else s.gongStop

/-- GONG_CTRL.MODE written (R15): at once while EN is 0, after the next gong otherwise. -/
def State.setGongMode (s : State) (m : Bool) : State :=
  { s with gong := { s.gong with modePend := m, mode := if s.gong.en then s.gong.mode else m } }

/-- The gong to come after a mode has changed at the gong of time `t` (R15), in units of 2^−16 ns: one period after it in
free-run mode; in network mode the first boundary at least P / 2 after it. -/
def State.afterMode (s : State) (t : Int) : State :=
  let p : Int := s.gong.period * 65536
  let half : Int := (2 * (t - s.alignNs * 65536) + p + 2 * p - 1) / (2 * p)
  { s with gong := { s.gong with
      freeAcc := (s.now - t).toNat * 2 ^ 48, freeNext := s.gong.period * 2 ^ 64, nextN := half } }

/-! ### Maps -/

/-- Queue `q` with the endpoint of a side replaced: 0 producer, 1 consumer. -/
def Queue.setEnd (x : Queue) (side : Nat) (e : BitVec 16) : Queue :=
  if side = 0 then { x with producer := e } else { x with consumer := e }

/-- The endpoint of a side. -/
def Queue.getEnd (x : Queue) (side : Nat) : BitVec 16 := if side = 0 then x.producer else x.consumer

/-- The queue overrides of a variant (R208) replace those in force; `ovr` keeps the endpoints they replace. -/
def State.putOverrides (s : State) (im : Image) (v : Nat) : State :=
  let s := s.cfg.ovr.foldl (fun s o => s.setQueue o.1 ((s.queue o.1).setEnd o.2.1 o.2.2)) s
  let es := (recsOf 4 ((im.bytes tyQueueOvr v).drop 4)).map (fun e =>
    (fieldOf e 0 10, fieldOf e 10 1, ctxEndpoint (fieldOf e 16 4) (if fieldOf e 20 1 = 1 then .bg else .fg)))
  let es := if v = 0 then [] else es
  let kept := es.map (fun e => (e.1, e.2.1, (s.queue e.1).getEnd e.2.1))
  let s := es.foldl (fun s e => s.setQueue e.1 ((s.queue e.1).setEnd e.2.1 e.2.2)) s
  { s with cfg := { s.cfg with ovr := kept.reverse } }

/-- A map put in force (R61, R208, R230). -/
def State.putMap (s : State) (im : Image) (v : Nat) : State :=
  let m := im.applyMap v s.healthy
  let s := (List.range 16).foldl (fun s n =>
    s.onLc n (fun l => { l with pc := (m.find? (fun e => decide (e.1 = n))).map (fun e => e.2) })) s
  let s := m.foldl (fun s e => s.onCore e.2 (fun k =>
    let k := k.partWrite (im.mapPart v e.1)
    { k with partMap := k.partPend.isSome })) s
  let s := s.putOverrides im v
  { s with cfg := { s.cfg with map := v } }

/-- The logical cores of the block's map that have no physical core, as CFG_VARIANT gives them (R238). -/
def State.absentMask (s : State) (im : Image) : Nat :=
  ((List.range im.lcReq).filter (fun n => (s.lc n).pc.isNone)).foldl (fun a n => a + 2 ^ n) 0

/-- CFG_VARIANT (R238). -/
def State.variantRec (s : State) (code : Nat) : State :=
  let s := { s with cfg := { s.cfg with code := code } }
  let absent := match s.image with | some im => s.absentMask im | none => 0
  s.evt 0x0084 0 [(0, 16, code), (16, 3, s.cfg.map), (19, 5, s.healthy.length), (24, 16, absent)]

/-- What step 2 of a gong decides about the map (R231, R233): the code of the record and the map to apply, if any (DEDUCED, log entry 53). -/
def State.decideMaps (s : State) : List (Nat × Option Nat) :=
  let n := s.healthy.length
  let variant := if s.cfg.noMap then
      match s.image with
      | some im => match im.chooseMap n with
        | some v => [(0x020D, some v)]
        | none => [(0x020E, none)]
      | none => []
    else []
  let back := if s.cfg.restore then
      match s.image with
      | some im => if im.mapNpc 0 ≤ n then [(0x020F, some 0)] else [(0x020E, none)]
      | none => [(0x020E, none)]
    else []
  variant ++ back

/-- The logical cores whose physical core a decision changes (R231). -/
def State.movedBy (s : State) (ds : List (Nat × Option Nat)) : List Nat :=
  match s.image with
  | none => []
  | some im =>
    ds.flatMap (fun d =>
      match d.2 with
      | some v =>
        let m := im.applyMap v s.healthy
        (List.range 16).filter (fun n =>
          decide ((s.lc n).pc ≠ (m.find? (fun e => decide (e.1 = n))).map (fun e => e.2)))
      | none => [])

/-- Step 5 of a gong with no commit (R231, R233): the decisions of step 2 applied. -/
def State.applyMaps (s : State) (ds : List (Nat × Option Nat)) : State :=
  ds.foldl (fun s d =>
    let s := match d.2, s.image with
      | some v, some im => s.putMap im v
      | _, _ => s
    s.variantRec d.1) s

/-! ### Registers that an image defines (R223 step 3, R200) -/

/-- The GONG section (R205) written; `keepEn` leaves the start and stop of gongs to the caller (DEDUCED, log entry 48). -/
def State.putGong (s : State) (im : Image) : State :=
  let u (o n : Nat) : Nat := im.u tyGong 0 o n
  let ctrl := u 5 1
  let mode := decide (fieldOf ctrl 1 1 = 1)
  let pat := (List.range 8).foldl (fun m w => SMap.set m 0 w (BitVec.ofNat 32 (u (16 + 4 * w) 4))) ([] : SMap Word)
  let s := (s.setReg 0x10400 (pack [(8, 6, u 6 1), (16, 6, u 7 1)])).setReg 0x10410 (BitVec.ofNat 32 (u 8 2))
  let was := s.gong.mode
  let s := { s with gong := { s.gong with
    period := u 0 4, strokes := u 4 1, log := decide (fieldOf ctrl 2 1 = 1), lenM1 := u 6 1, phase := u 7 1
    curfew := u 8 2, pattern := pat, mode := mode, modePend := mode } }
  let s := if s.gong.en ∧ mode ≠ was then s.afterMode (s.gong.g * 65536) else s
  s.setGongEn (decide (fieldOf ctrl 0 1 = 1))

/-- PARTITIONS (R166): a free list is rebuilt where BASE or SIZE changes, or where the kind does. -/
def State.putPartitions (s : State) (im : Image) : State :=
  let put (s : State) (x : Nat × Nat × Nat × Nat × Bool) : State :=
    let (p, base, size, floor, res) := x
    let old := s.part p
    let free := if res then []
      else if old.base = base ∧ old.size = size ∧ old.reserved = res then old.free
      else (bufRange base size).filter (fun b => s.bufFree b)
    s.setPart p { base := base, size := size, reserved := res, floor := floor, free := free }
  (indexed 0 im.partitions).foldl (fun s e => put s (e.1, e.2)) s

/-- QUEUES (R175, R209): credits become INIT less the handles queued. -/
def State.putQueues (s : State) (im : Image) : State :=
  (indexed 0 (im.recs tyQueues 0 16)).foldl (fun s e =>
    let r := e.2
    let x := { s.queue e.1 with
      valid := decide (fieldOf r 40 1 = 1), entry := decide (fieldOf r 41 1 = 1), peal := fieldOf r 48 6
      producer := BitVec.ofNat 16 (fieldOf r 64 16), consumer := BitVec.ofNat 16 (fieldOf r 80 16) }
    let s := s.setQueue e.1 (x.apply (fieldOf r 0 16) (fieldOf r 16 16))
    let off := 0x64008 + 0x10 * e.1
    s.setReg off (BitVec.ofNat 32 (setField (s.reg off).toNat 0 3 (fieldOf r 32 3)))) s

/-- PEALS (R209): every field of every record, whatever its VALID bit (R223). -/
def State.putPeals (s : State) (im : Image) : State :=
  let rs := im.recs tyPeals 0 32
  (List.range 64).foldl (fun s g =>
    let r := rs.getD g 0
    let valid := decide (fieldOf r 49 1 = 1)
    let s := s.setPeal g { s.peal g with
      valid := valid, rmask := BitVec.ofNat 8 (fieldOf r 16 8), rcount := fieldOf r 24 8, entryQ := fieldOf r 0 16
      rq := (List.range 8).map (fun k => fieldOf r (64 + 16 * k) 16) }
    s.setReg (pealCfgOff g) (pack [(0, 9, fieldOf r 32 16), (9, 1, fieldOf r 48 1)])) s

/-- CHANNELS (R209): CH_CFG, FPOL and FLIMIT (DEDUCED, log entry 48). -/
def State.putChannels (s : State) (im : Image) : State :=
  let rs := im.recs tyChannels 0 8
  (List.range 64).foldl (fun s c =>
    let r := rs.getD c 0
    let cfg := BitVec.ofNat 32 (setField (fieldOf r 0 32) 8 1 0)
    let valid := decide (fieldOf r 48 1 = 1)
    let x := s.chan c
    let s := s.setChan c
      (if x.cfg = cfg ∧ x.valid = valid then x
       else { x with valid := valid, cfg := cfg, win := [], scan := 0, scanRow := 0, atStop := false, partRd := [] })
    if c < rs.length then
      (s.setReg (chOff c) (pack [(8, 1, fieldOf r 8 1)])).setReg (chOff c + 4) (BitVec.ofNat 32 (fieldOf r 32 16))
    else s) s

/-- PORTS (R209). -/
def State.putPorts (s : State) (im : Image) : State :=
  let rs := im.recs tyPorts 0 64
  (List.range 8).foldl (fun s k =>
    let r := rs.getD k 0
    s.setSport k { s.sport k with
      cfg := BitVec.ofNat 32 (fieldOf r 0 32), qlist := (List.range 16).map (fun i => fieldOf r (128 + 16 * i) 16 % 1024) }) s

/-- RINGS (R209): every register but PROD and CONS. -/
def State.putRings (s : State) (im : Image) : State :=
  let rs := im.recs tyRings 0 64
  (List.range 16).foldl (fun s k =>
    let r := rs.getD k 0
    let regs := (List.range 8).foldl (fun m i => SMap.set m 0 (4 * i) (BitVec.ofNat 32 (fieldOf r (32 * i) 32))) ([] : SMap Word)
    s.setRing k { s.ring k with valid := decide (fieldOf r 256 1 = 1), regs := regs }) s

/-- OVERFLOW (R209). -/
def State.putOverflow (s : State) (im : Image) : State :=
  let r := (im.recs tyOverflow 0 16).getD 0 0
  { s with st := { s.st with ovfLo := BitVec.ofNat 32 (fieldOf r 0 32), ovfHi := BitVec.ofNat 32 (fieldOf r 32 32)
                             ovfCfg := BitVec.ofNat 32 (fieldOf r 64 32) } }

/-- POWER (R211, R312, R313): the spine clock first, then the admission pair and the regions whose values change. -/
def State.putPower (s : State) (im : Image) : State :=
  let spine := im.rgnMhz 6
  let s := { s with pwr := { s.pwr with spineMhz := spine, budget := im.u tyPower 0 0 2, ramp := im.u tyPower 0 2 2 } }
  (List.range s.par.ncg).foldl (fun s g =>
    let r := s.region g
    if r.mhz = im.rgnMhz g ∧ r.mv = im.rgnMv g then s else s.applyRegion g (im.rgnMhz g) (im.rgnMv g)) s

/-- SAFETY (R212). -/
def State.putSafety (s : State) (im : Image) : State :=
  { s with sm := { s.sm with
      detEntry := (indexed 0 (im.recs tySafety 0 4)).foldl (fun (m : SMap Word) e => SMap.set m 0 e.1 (BitVec.ofNat 32 e.2)) [] } }

/-- HISTORY (R155, R399): the image's HIST_CFG is in force at once; a slot whose configuration changes is emptied (DEDUCED, log entry 48). -/
def State.putHistory (s : State) (im : Image) : State :=
  let rs := im.recs tyHistory 0 4
  (List.range 256).foldl (fun s i =>
    let v := if rs.isEmpty then 0x0000AA13 else rs.getD i 0
    let off := 0x41000 + 8 * i
    let changed := decide (fieldOf (s.reg off).toNat 0 17 ≠ v)
    let s := s.setReg off (BitVec.ofNat 32 v)
    s.onLc (i / 16) (fun l =>
      let h := SMap.get l.hist Hist.reset (i % 16)
      let h := { h with n := fieldOf v 0 4 + 1, head := fieldOf v 4 3 }
      { l with hist := SMap.set l.hist Hist.reset (i % 16) (if changed then { h with ring := [], acc := none } else h) })) s

/-- SYNC (R135, R210): count and LOG of the listed objects; a record for each whose LOG is 1. -/
def State.putSync (s : State) (im : Image) : State :=
  (recsOf 12 ((im.bytes tySync 0).drop 16)).foldl (fun s e =>
    let n := fieldOf e 0 15
    let s := s.setSync n { s.sync n with log := decide (fieldOf e 15 1 = 1), sigs := BitVec.ofNat 32 (fieldOf e 64 32) }
    let v := BitVec.ofNat 32 (fieldOf e 32 32)
    if (s.sync n).log then s.setCount n v 0x1F 0 true else s.setSync n { s.sync n with count := v }) s

/-- Objects that the image does not list have no declared signaller (R210). -/
def State.clearSignallers (s : State) : State :=
  { s with so := (s.so.map (fun (e : Nat × SyncObj) => (e.1, { e.2 with sigs := 0 }))).filter (fun e => decide (e.2 ≠ SyncObj.reset)) }

/-- ROUTE_UPDATE (R93) (DEDUCED, log entry 47). -/
def State.routeUpdateRec (s : State) (applied rejected : Nat) : State :=
  s.evt 0x0040 0 [(0, 13, applied), (13, 13, rejected), (26, 32, s.routes.gen)]

/-- ROUTE_DIR (R75, R93): the directory replaced, dirty shadow entries discarded, every stored route dropped from its slot. -/
def State.putRoutes (s : State) (im : Image) : State :=
  let dir := (indexed 0 (im.recs tyRouteDir 0 8)).filterMap (fun e =>
    if e.2 = 0 then none else some (e.1, (BitVec.ofNat 64 e.2 : DWord)))
  let gen := (s.routes.gen + 1) % 2 ^ 32
  let s := { s with
    routes := { s.routes with active := dir, shadow := dir, dirty := [], gen := gen, extra := [], cleared := [] }
    cores := s.cores.map (fun (e : Nat × Core) => (e.1, e.2.retag gen (fun _ => true))) }
  s.routeUpdateRec 0 0

/-! ### The commit -/

/-- READY (R370). -/
def State.setReady (s : State) : State :=
  if s.boot.ready then s
  else
    let us := s.ns10 (s.tu.ltc - s.boot.startAt) / 100
    let s := { s with boot := { s.boot with ready := true, code := if s.boot.warn then s.boot.code else 0x0101 } }
    s.evt 0x00D0 0 [(0, 16, 0x0101), (16, 2, s.boot.kind), (18, 2, s.boot.fsc), (20, 32, s.boot.fwVer.toNat), (52, 32, us)]

/-- SM_RESET, with code 0x0307 and then 0x0308, at the commit that ends the resumption after a block reset of the SM (R343,
R357). -/
def State.resetRecs (s : State) (resumed : Bool) : State :=
  match s.sm.resetAt with
  | some t =>
    if resumed then
      let us := s.ns10 (s.tu.ltc - t) / 100
      let put (s : State) (code : Nat) : State := s.evt 0x00C3 0 [(0, 16, code), (16, 4, s.sm.lastDet), (20, 32, us)]
      let s := put (put s 0x0307) 0x0308
      { s with sm := { s.sm with resetAt := none } }
    else s
  | none => s

/-- Steps 2 to 6 of R223 for an image that is now the active half (DEDUCED, log entry 47). -/
def State.commitImage (s : State) (im : Image) : State :=
  let v := (im.chooseMap s.healthy.length).getD 0
  let s := { s with
    cfg := { s.cfg with ovr := [], noMap := false }
    lcs := (s.lcs.map (fun (e : Nat × LogCore) => (e.1, { e.2 with roles := 0 }))).filter (fun e => decide (e.2 ≠ LogCore.reset)) }
  let s := if s.cfg.gongWritten then s else s.putGong im
  let s := (((((((s.putPartitions im).putQueues im).putPeals im).putChannels im).putPorts im).putRings im).putOverflow im).putPower im
  let s := (s.putMap im v).putSafety im
  let s := (((s.putHistory im).clearSignallers).putSync im).putRoutes im
  let id := im.hdr 12 4
  let held := s.cfg.heldNow
  let tries := s.cfg.tries
  let resumed := s.cfg.resume
  let s := { s with cfg := { s.cfg with
    activeValid := true, activeId := BitVec.ofNat 32 id, commitGsn := s.gong.gsn.truncate 32, gongWritten := false
    code := 0, tries := 0, heldNow := 0, resume := false } }
  let s := s.evt 0x0081 0 [(0, 32, id), (32, 3, v), (35, 4, tries), (39, 20, held)]
  (s.setReady).resetRecs resumed

/-- The staged half becomes the active half (R223 step 1), then the rest. -/
def State.commit (s : State) (im : Image) : State :=
  let s := { s with cfg := { s.cfg with
    active := some im, staged := none, stagedId := 0, state := .empty, latched := false, half := !s.cfg.half } }
  s.commitImage im

/-- What fails the commit check (R222): cause and number. -/
def State.commitCheck (s : State) (im : Image) : Option (Nat × Nat) :=
  let queues := (indexed 0 (im.recs tyQueues 0 16)).find? (fun e => !(s.queue e.1).fits (fieldOf e.2 0 16) (fieldOf e.2 16 16))
  let parts := (indexed 0 im.partitions).find? (fun e =>
    let x := s.part e.1
    (bufRange x.base x.size).any (fun b => !(decide (e.2.1 ≤ b ∧ b < e.2.1 + e.2.2.1)) && !s.bufFree b))
  match queues, parts with
  | some q, _ => some (1, q.1)
  | none, some p => some (2, p.1)
  | none, none => if (im.chooseMap s.healthy.length).isNone then some (3, 0) else none

/-- CFG_CTRL.TRIES in force (R222). -/
def State.triesMax (s : State) : Nat := clampLo (fld (s.reg 0x4000C) 8 4) 1

/-- One commit attempt of an armed image (R222) (DEDUCED, log entry 47). -/
def State.tryCommit (s : State) : State :=
  match s.cfg.staged with
  | none => s
  | some im =>
    match s.commitCheck im with
    | none => s.commit im
    | some (cause, n) =>
      let used := s.cfg.tries + 1
      let give := decide (s.triesMax ≤ used)
      let code := if give then 0x020C else if cause = 3 then 0x0203 else 0
      let s := { s with cfg := { s.cfg with
        tries := used, state := if give then .staged else .armed, code := if give then 0x020C else s.cfg.code } }
      s.evt 0x0082 0 [(0, 16, code), (16, 3, cause), (19, 10, n), (29, 4, used)]

/-- The point R220 gives for an image committed while GONG_CTRL.EN is 0: the whole commit at once where the image's EN is 0,
else its GONG section, which starts gongs. -/
def State.commitIdle (s : State) (im : Image) (now : State → State) : State :=
  if fieldOf (im.u tyGong 0 5 1) 0 1 = 0 then now s
  else
    let s := s.putGong im
    { s with cfg := { s.cfg with gongWritten := true } }

/-- A commit is armed (R220). -/
def State.arm (s : State) : State :=
  match s.cfg.staged with
  | none => s
  | some im =>
    let s := { s with cfg := { s.cfg with state := .armed, tries := 0, heldNow := 0, latched := false, gongWritten := false } }
    if s.gong.en then s else s.commitIdle im State.tryCommit

/-- Whether a CARRY list runs or waits in a background context (R221). -/
def State.carryRuns (s : State) : Bool :=
  s.cores.any (fun e => e.2.bg.list.isSome || !e.2.bg.queue.isEmpty)

/-- Step 5 of a gong for an armed image or a resumption (R221, R224). -/
def State.gongCommit (s : State) : State × Bool :=
  if s.cfg.resume && s.cfg.gongWritten then
    match s.cfg.active with
    | some im => (s.commitImage im, true)
    | none => (s, false)
  else
    match s.cfg.state with
    | .armed => if s.carryRuns then (s, false) else
        let s := s.tryCommit
        (s, match s.cfg.state with | .empty => true | _ => false)
    | _ => (s, false)

/-! ### The end of a load -/

/-- The bytes of a bulk section written to the route table, or to both list areas of its pair (R213). -/
def State.writeBulk (s : State) (x : Section) (b : List Byte) : State :=
  if x.ty = tyRouteBody then
    { s with routes := { s.routes with table := s.routes.table.write (8 * x.first) ((b.drop 8).take (8 * x.count)) } }
  else
    let put (s : State) (q : Nat) : State :=
      s.setSeq q ((s.seq q).write (listArea + 32 * x.first) ((b.drop 8).take (32 * x.count)))
    put (put s (2 * x.inst)) (2 * x.inst + 1)

/-- The bulk sections that pass 2 fetched, written in table order up to the first whose SCRC fails (R217 step 5); true when
all are good (DESIGN CHOICE, log entry 46). -/
def State.writeBulks (s : State) : List Section → State × Bool
  | [] => (s, true)
  | x :: t =>
    let b := s.cfgBytes x.off x.len
    let s := s.writeBulk x b
    if crc32c b = x.scrc then s.writeBulks t else (s, false)

/-- Step 6 of R217, once pass 2 has all its data (DESIGN CHOICE, log entry 46). -/
def State.loadDone (s : State) : State :=
  match s.cfg.state, s.cfg.staged with
  | .writing, some im =>
    if s.cfg.err.isSome then s.loadFail 0x020B
    else if s.cfgWaits then s
    else
      let (s, ok) := s.writeBulks (im.sects.filter (fun x => isBulk x.ty))
      if !ok then s.loadFail 0x0202
      else
        let w := s.cfg.warnings
        let code := if w.1 then 0x0204 else if w.2 then 0x0205 else 0
        let go := s.cfg.latched || bit (s.reg 0x4000C) 3
        let s := s.cfgPhase 0
        let s := { s with cfg := { s.cfg with
          state := .staged, code := code, stagedId := BitVec.ofNat 32 (im.hdr 12 4), tries := 0 } }
        let s := s.cfgLoadRec code (im.hdr 12 4) s.cfg.margin w
        if go then s.arm else s
  | _, _ => s

/-- CFG_CTRL.COMMIT (R220). -/
def State.commitReq (s : State) : State :=
  match s.cfg.state with
  | .staged => s.arm
  | .loading | .verify | .writing => { s with cfg := { s.cfg with latched := true } }
  | .empty | .failed | .armed => s

/-! ### Resumption (R224) -/

/-- The resumption of the active image begins: its bulk sections are fetched again; the map before the reset is kept apart. -/
def State.resumeStart (s : State) : State :=
  match s.cfg.active with
  | none => s
  | some im =>
    let s := s.cfgPhase 3
    let s := { s with cfg := { s.cfg with resume := true, staged := none, stagedId := 0 } }
    (im.sects.filter (fun x => isBulk x.ty)).foldl (fun s x => s.cfgFetch x.off x.len) s

/-- The resumption has its data (R224): the SCRC of each section, then the commit of steps 2 to 6 at the point of R220.  The
code of a failure, or nothing. -/
def State.resumeDone (s : State) : State × Option Nat :=
  match s.cfg.active with
  | none => (s, none)
  | some im =>
    if !s.cfg.resume || decide (s.cfg.phase ≠ 3) then (s, none)
    else
      let bad (s : State) (code : Nat) : State × Option Nat :=
        let s := s.cfgPhase 0
        ({ s with cfg := { s.cfg with resume := false, activeValid := false, code := code } }, some code)
      if s.cfg.err.isSome then bad s 0x020B
      else if s.cfgWaits then (s, none)
      else
        let (s, ok) := s.writeBulks (im.sects.filter (fun x => isBulk x.ty))
        if !ok then bad s 0x0202
        else
          let s := s.cfgPhase 0
          (s.commitIdle im (fun s => s.commitImage im), none)

end Sys2Proof.Machine
end

