-- ==== Sys2Proof/Machine/Control.lean ====
section
/-! DEFINITION. Control commands (R126 to R130, R133): HOLD, WAIT, SIG, HPOP, HPUSH, PDL, ADMIT, STAMP, FENCE and END. -/

namespace Sys2Proof.Machine

/-- CSIG at the completion of a command (R98, R103). -/
def State.csig (s : State) (pc : Nat) (r : List Word) : State :=
  if recCsig r then s.signal pc (recCso r) false (BitVec.ofInt 32 (recCinc r)) else s

/-- A control command has completed: its CSIG, and the context moves on. -/
def State.complete (s : State) (pc : Nat) (c : Ctx) (r : List Word) : State := (s.csig pc r).advance pc c

/-- Fields of words 3 and 4 (R126). -/
def ctSo (r : List Word) : Nat := fld (rw r 3) 0 15
def ctBit15 (r : List Word) : Bool := bit (rw r 3) 15
def ctCond (r : List Word) : Nat := fld (rw r 3) 16 2
def ctValue (r : List Word) : Word := rw r 4
def ctHq (r : List Word) : Nat := fld (rw r 3) 0 10
def ctH (r : List Word) : Nat := fld (rw r 3) 10 4
def ctRelease (r : List Word) : Bool := bit (rw r 3) 14
def ctPair (r : List Word) : Nat := fld (rw r 3) 0 4
def ctAtgong (r : List Word) : Bool := bit (rw r 3) 4
def ctRel (r : List Word) : Bool := bit (rw r 3) 0
def ctXctx (r : List Word) : Bool := bit (rw r 3) 1

/-! ### Waiting on a sync object -/

/-- HOLD (R126, R127): with COND_EN it waits for its condition; passing it, the scan of R185 goes on (DEDUCED, log entry 41). -/
def bodyHold (pc : Nat) (c : Ctx) (_l : ListRef) (r : List Word) (s : State) : State :=
  judge pc c r [(decide (2 ≤ ctCond r), 8)] []
    (fun s =>
      if ctBit15 r ∧ !condHolds (ctCond r) (s.sync (ctSo r)).count (ctValue r) then s.hold pc c 11 (ctSo r)
      else s.advance pc c) s

/-- WAIT (R126, R127) (DEDUCED, log entry 41). -/
def bodyWait (pc : Nat) (c : Ctx) (_l : ListRef) (r : List Word) (s : State) : State :=
  judge pc c r [(decide (2 ≤ ctCond r), 8)] []
    (fun s =>
      if condHolds (ctCond r) (s.sync (ctSo r)).count (ctValue r) then s.advance pc c
      else s.hold pc c 4 (ctSo r)) s

/-- SIG (R126, R127, R133). -/
def bodySig (pc : Nat) (c : Ctx) (_l : ListRef) (r : List Word) (s : State) : State :=
  if s.ctxDone pc c then (s.signal pc (ctSo r) (ctBit15 r) (ctValue r)).advance pc c
  else s.hold pc c 15 0

/-! ### Handles -/

/-- HPOP (R126 to R128, R174). -/
def bodyHpop (pc : Nat) (c : Ctx) (l : ListRef) (r : List Word) (s : State) : State :=
  judge pc c r
    [ ((((s.core pc).ctx c).hreg (ctH r)).isSome, 5), (!s.consumer (ctHq r) l.lc c, 6) ] []
    (fun s =>
      match s.pop (ctHq r) true with
      | (s, .handle h side) =>
        let v : HReg := { handle := h, side := side, input := true, bound := none, reserved := [] }
        (s.onCtx pc c (fun x => x.setHreg (ctH r) (some v))).complete pc c r
      | (s, .wait w) => s.hold pc c w (ctHq r)) s

/-- Whether an instruction in flight moves rows through a handle register (R127). -/
def movesThrough (p : Bool) (h : Nat) (f : InFlight) : Bool :=
  let o := recOpc f.words
  decide (o = 0x01 ∨ o = 0x02) && decide (mvSpace f.words = 1) &&
    (hregsOf f.words (movedRows p (if o = 0x01 then descD p f.words else descS p f.words))).contains h

/-- The credits that a handle register holds given back (R176). -/
def State.unbind (s : State) (y : HReg) : State := s.unreserve y.reserved

/-- The reserved credits that a push to queue `q` uses: those of a handle bound to it (R176). -/
def HReg.heldFor (y : HReg) (q : Nat) : List Nat := if y.bound = some q then y.reserved else []

/-- A handle released from a register (R126): its reserved credit and its buffer go back. -/
def State.giveBack (s : State) (pc : Nat) (c : Ctx) (lc h : Nat) (y : HReg) : State :=
  ((s.giveUp pc c h y).unbind y).releaseHandle y.handle pc lc (y.bound.getD 0)

/-- A push by a context (R126, R134, R170, R174, R176) that nothing stands in the way of. -/
def State.pushFrom (s : State) (pc : Nat) (c : Ctx) (lc q h : Nat) (y : HReg) : State :=
  let s := s.giveUp pc c h y
  if s.stale pc then (s.unbind y).ghost pc
  else
    match s.staleCode y.handle with
    | some e => (s.unbind y).staleFault e pc lc q y.handle
    | none =>
      let s := if y.bound = some q then s else s.unbind y
      s.push q y.handle y.side (y.heldFor q)

/-- HPUSH (R126 to R128) (DEDUCED, log entry 87). -/
def bodyHpush (pc : Nat) (c : Ctx) (l : ListRef) (r : List Word) (s : State) : State :=
  let x := (s.core pc).ctx c
  judge pc c r
    [ ((x.hreg (ctH r)).isNone, 5), (!ctRelease r && !s.producer (ctHq r) l.lc c, 6) ] []
    (fun s =>
      match x.hreg (ctH r) with
      | none => s
      | some y =>
        if ((s.core pc).inFlight c).any (movesThrough (s.core pc).part (ctH r)) then s.hold pc c 15 0
        else if ctRelease r then (s.giveBack pc c l.lc (ctH r) y).complete pc c r
        else
          let blocked := if (s.staleCode y.handle).isSome then none else s.pushWait (ctHq r) (y.heldFor (ctHq r))
          match blocked with
          | some w => s.hold pc c w (ctHq r)
          | none => (s.pushFrom pc c l.lc (ctHq r) (ctH r) y).complete pc c r) s

/-! ### Pairs (R129, R188) -/

/-- A role bit inverted. -/
def State.invertRole (s : State) (lc k : Nat) : State :=
  s.onLc lc (fun n => { n with roles := n.roles ^^^ BitVec.ofNat 16 (2 ^ k) })

/-- Whether a channel has a fetch in flight into a pair: a row of its window that is to come to a place in the pair (R188). -/
def State.fetchingInto (s : State) (pr : Nat) : Bool :=
  decide (prSpace pr = 1) && s.st.chans.any (fun e => e.2.win.any (fun w =>
    !w.ready && decide (prBase pr ≤ w.place) && decide (w.place < prBase pr + 2 * prHalf pr)))

/-- PDL (R129): with ATGONG the inversion alone waits for the gong (DEDUCED, log entry 39). -/
def bodyPdl (pc : Nat) (c : Ctx) (l : ListRef) (r : List Word) (s : State) : State :=
  let pr := s.pairRec l.lc (ctPair r)
  judge pc c r [(!prValid pr, 6)] []
    (fun s =>
      let busy := ((s.core pc).inFlight c).any (fun f =>
        decide (recOpc f.words = 0x01 ∨ recOpc f.words = 0x02) && decide (mvSpace f.words = 3)
          && decide (mvPair f.words = ctPair r))
      if busy || s.fetchingInto pr then s.hold pc c 15 0
      else if ctAtgong r then
        (s.onLc l.lc (fun n => { n with swaps := n.swaps ++ [ctPair r] })).complete pc c r
      else (s.invertRole l.lc (ctPair r)).complete pc c r) s

/-! ### Mallets, records, fences -/

/-- ADMIT (R25, R130) (DEDUCED, log entry 87). -/
def bodyAdmit (pc : Nat) (c : Ctx) (l : ListRef) (r : List Word) (s : State) : State :=
  let x := (s.core pc).ctx c
  let s := (s.releaseMallet x.held).onCtx pc c (fun x => { x with held := none })
  if ctRel r then s.complete pc c r
  else
    match x.granted with
    | some m => (s.onCtx pc c (fun x => { x with held := some m, granted := none, requested := false })).complete pc c r
    | none =>
      if s.curfewHolds l then s.hold pc c 10 0
      else (if x.requested then s else s.askMallet pc c (wclass r) true).hold pc c 3 0

/-- STAMP (R126, R137). -/
def bodyStamp (pc : Nat) (c : Ctx) (l : ListRef) (r : List Word) (s : State) : State :=
  (s.evt 0x0053 pc [(0, 5, pc), (5, 4, l.lc), (9, 1, b2n (decide (c = .bg))), (10, 14, ((s.core pc).ctx c).index),
    (24, 32, (rw r 3).toNat)]).complete pc c r

/-- The other context. -/
def otherCtx : Ctx → Ctx
  | .fg => .bg
  | .bg => .fg

/-- Whether commands of a context numbered below `n` are still to complete (DEDUCED, log entry 40). -/
def State.olderThan (s : State) (pc : Nat) (c : Ctx) (n : Nat) : Bool :=
  ((s.core pc).inFlight c).any (fun f => decide (f.id < n))

/-- FENCE (R126, R127): a TST to HOST completes on its write responses (R133), so MEM asks for nothing more (DEDUCED, log entry 40). -/
def bodyFence (pc : Nat) (c : Ctx) (_l : ListRef) (r : List Word) (s : State) : State :=
  let n := (((s.core pc).ctx c).fence).getD (s.core pc).nextId
  let s := s.onCtx pc c (fun x => { x with fence := some n })
  if !s.ctxDone pc c then s.hold pc c 15 0
  else if ctXctx r && s.olderThan pc (otherCtx c) n then s.hold pc c 15 0
  else s.complete pc c r

/-! ### END -/

/-- END (R96, R126, R127, R137): held mallets and handles go back, LIST_END, and the context starts its next list. -/
def bodyEnd (pc : Nat) (c : Ctx) (l : ListRef) (r : List Word) (s : State) : State :=
  if !s.ctxDone pc c then s.hold pc c 15 0
  else
    let x := (s.core pc).ctx c
    let s := (s.releaseMallet x.held).releaseMallet x.granted
    let s := s.withdraw (fun q => decide (q.pc = pc) && decide (q.ctx = c))
    let s := x.hregs.foldl (fun s e => s.giveBack pc c l.lc e.1 e.2) s
    let s := s.csig pc r
    let s := s.evt 0x0051 pc [(0, 5, pc), (5, 4, l.lc), (9, 1, b2n (decide (c = .bg))), (10, 3, l.entry),
      (13, 14, x.index + 1), (27, 5, min x.hregs.length 31)]
    let s := if c = .fg then s.onLc l.lc (fun n => { n with mustDone := s.nowNs }) else s
    let s := s.stopPrefetch l.lc c
    (s.unhold pc c).onCtx pc c (fun x => x.next)

end Sys2Proof.Machine
end

