-- ==== Sys2Proof/Machine/Clock.lean ====
section
/-! DEFINITION. The stall causes that hold the contexts of a core (R189), and the passing of time: the LTC (R239, R262), the
free-run clock (R253), ramp tokens (R318), stall counters, the trace port (R389), and a pending rate (R250). -/

namespace Sys2Proof.Machine

/-! ### Stall causes (R189) -/

/-- The allocation that a context waits for, if any: partition, buffers, queue (R176). -/
def State.allocWait (s : State) (pc : Nat) (c : Ctx) : Option (Nat × Nat × Nat) :=
  match s.issuePoint pc c with
  | some (_, r, _) =>
    if recOpc r = 0x02 ∧ mvSpace r = 1 ∧ mvAlloc r ∧ (((s.core pc).ctx c).wait = some 1 ∨ ((s.core pc).ctx c).wait = some 13) then
      some (mvPart r, allocCount r (movedRows (s.core pc).part (descS (s.core pc).part r)), recChq r)
    else none
  | none => none

/-- Whether a spill is freeing buffers of a partition. -/
def State.spillsFrom (s : State) (p : Nat) : Bool :=
  s.mp.reqs.any (fun q => match q.who with | .spill _ _ b => decide (s.partOf b = some p) | _ => false)

/-- The cause that holds the issue point of a context: an allocation that waits while a spill frees buffers of its partition
counts SPILL. -/
def State.ctxCause (s : State) (pc : Nat) (c : Ctx) : List Nat :=
  match ((s.core pc).ctx c).wait with
  | none => []
  | some w =>
    match s.allocWait pc c with
    | some (p, _, _) => [if s.spillsFrom p then 13 else 1]
    | none => [w]

/-- What holds a TST whose rows are stored at the pushes of its CPUSH (R98, R174, R180). -/
def State.pushHeld (s : State) (pc : Nat) (f : InFlight) : Option Nat :=
  if recCpush f.words && decide (f.phase = .writes) && !s.tstPending pc f.id then
    ((List.range (recCn f.words)).map (fun i => recCh f.words + i)).findSome? (fun h =>
      match ((s.core pc).ctx f.ctx).hreg h with
      | some y => if (s.staleCode y.handle).isSome then none else s.pushWait (recChq f.words) (y.heldFor (recChq f.words))
      | none => none)
  else none

/-- The causes that hold an instruction in flight (R50, R52, R86, R174, R180, R185). -/
def State.flightCauses (s : State) (pc : Nat) (f : InFlight) : List Nat :=
  match f.phase with
  | .restart false _ => [8]
  | .restart true _ => if recOpc f.words = 0x01 ∧ (s.core pc).freeSlots.isEmpty then [6] else []
  | .xcx _ => [7]
  | .rows need =>
    if need.any (fun x => match s.rowLoc pc f.ctx f.list.lc f.words x.2 with
      | .host va ch => (match (s.chan ch).row va with | some w => !w.ready | none => false)
      | _ => false) then [0] else []
  | .writes => (s.pushHeld pc f).toList
  | .done => []

/-- The core that a request of a command or of its prefetch channel serves. -/
def State.reqCore (s : State) (r : PReq) : Option Nat :=
  match r.who with
  | .row pc _ | .tst pc _ | .spilled pc _ => some pc
  | .chan c _ _ => (s.lc (s.chan c).lc).pc
  | _ => none

/-- The causes that hold a request of a core at its port (R187, R274, R278, R281, R282). -/
def State.reqCauses (s : State) (r : PReq) : List Nat :=
  match r.st with
  | .queued => if s.mp.quiesce || s.mp.rstq then [9] else if r.wait.isSome then [8] else [2]
  | .xlp _ => if r.wait.isSome then [8] else []
  | .faulted _ => [8]
  | .retry _ => [9]
  | .issued _ => []

/-- The causes that hold the contexts of a core now, each once (R189, R59); a pause of its region counts as OTHER (R313). -/
def State.causes (s : State) (pc : Nat) : List Nat :=
  let k := s.core pc
  let pause := (s.region (regionOfCore pc)).applying
  (s.ctxCause pc .fg ++ s.ctxCause pc .bg
    ++ (if k.partPend.isSome || (pause && (k.fg.list.isSome || k.bg.list.isSome)) then [15] else [])
    ++ k.flight.flatMap (fun f => s.flightCauses pc f)
    ++ (s.mp.reqs.filter (fun r => decide (s.reqCore r = some pc))).flatMap (fun r => s.reqCauses r)).dedup

/-- Let `n` reference ticks pass for the stall counters of a core whose clock runs at `mhz`, held by the causes `cs`. -/
def Core.elapse (k : Core) (mhz : Nat) (cs : List Nat) (n : Nat) : Core :=
  match cs with
  | [] => k
  | cs =>
    let acc := k.stallRem + mhz * 10 * n
    let cyc := acc / 384
    let k' := cs.foldl (fun k c => k.addStall c cyc) { k with stallRem := acc % 384 }
    { k' with drain := if k.partPend.isSome then k.drain + cyc else k.drain }

/-! ### The passing of time -/

/-- The LTC, or the slow counter while AON runs on SLOWCLK (R239, R262). -/
def TimeUnit.elapse (t : TimeUnit) (n : Nat) : TimeUnit :=
  if t.onSlow then
    let acc := t.slowRem + 8 * n
    { t with slowTicks := t.slowTicks + acc / 9375, slowRem := acc % 9375 }
  else { t with ltc := (t.ltc + n) % 2 ^ 64, pllC := if n = 0 then t.pllC else Config.pllPhase ((t.ltc + n) % 2 ^ 64) }

/-- `n` reference ticks pass: LTC, free-run clock (R253), ramp tokens (R318), stall counters (R189), trace port (R389)
(DESIGN CHOICE, log entry 10). -/
def State.tick (s : State) (n : Nat) : State :=
  let tok := s.pwr.tokens + 10 * s.pwr.ramp * n
  let tt := s.ev.traceT + 1250 * n
  let out := min (tt / 960) s.ev.trace.length
  { s with
    tu := s.tu.elapse n
    gong := { s.gong with freeAcc :=
      if s.gong.en && !s.tu.onSlow then s.gong.freeAcc + n * 2 ^ 16 * s.tu.rate else s.gong.freeAcc }
    cores := s.cores.map (fun e =>
      let g := s.region (regionOfCore e.1)
      (e.1, if g.state = .run then e.2.elapse g.mhz (s.causes e.1) n else e.2))
    pwr := { s.pwr with tokens := min tok (100 * tokenScale) }
    ev := { s.ev with trace := s.ev.trace.drop out, traceT := if out < s.ev.trace.length then tt - 960 * out else 0 } }

/-- A pending RATE_NOM applies at the next reference tick while the time port is off (R250). -/
def State.applyRate (s : State) : State :=
  if s.tu.ratePend && !bit (s.reg 0x10064) 16 then
    let s := s.setRate (servoRate s.rateNom s.tu.servoY)
    { s with tu := { s.tu with ratePend := false } }
  else s

/-- `n` reference ticks pass; nothing passes while AON is off (R299) (DESIGN CHOICE, log entry 10). -/
def State.elapse (s : State) (n : Nat) : State :=
  if s.pwr.blockOff ∨ n = 0 then s
  else if s.tu.ratePend then ((s.tick 1).applyRate).tick (n - 1)
  else s.tick n

/-- Time passes until the LTC reads `at_`, or would read it if it ran on over SLOWCLK; a reading already passed lets no time pass
(DESIGN CHOICE, log entry 10). -/
def State.elapseTo (s : State) (at_ : Nat) : State :=
  s.elapse (at_ - (s.tu.ltc + if s.tu.onSlow then s.tu.slowRef else 0))

end Sys2Proof.Machine
end

