-- ==== Sys2Proof/Machine/Staged.lean ====
section
/-! DEFINITION. The staging-sourced commands ILV, DIL, REMAP and WIN (R121 to R124). -/

namespace Sys2Proof.Machine

/-- SRC and OFS. -/
def stSrc (r : List Word) : Nat := fld (rw r 3) 0 20
def stOfs (r : List Word) : Nat := fld (rw r 5) 0 20

/-- The staging byte of a source index; for PW4 the byte that holds its nibble (log entry 26). -/
def stByte (ty src i : Nat) : Nat := if ty = tyPW4 then src + i / 2 else src + i * tySize ty

/-- Bytes of one source element. -/
def stWidth (ty : Nat) : Nat := if ty = tyPW4 then 1 else tySize ty

/-- Whether a generated address lies outside 0x0_0000 to 0xF_BFFF (R121). -/
def stOut (ty src i : Nat) : Bool := decide (0xFC000 < stByte ty src i + stWidth ty)

/-- The fill value of DIL (R122). -/
def fillValue (ty : Nat) (big : Bool) : Nat :=
  if !big then 0
  else if ty = tyI8 ∨ ty = tyPW8 then 0x7F
  else if ty = tyI16 then 0x7FFF
  else if ty = tyI32 then 0x7FFFFFFF
  else if ty = tyC16 then 0x7FFF7FFF
  else if ty = tyFP16 then 0x7BFF
  else if ty = tyFP32 then 0x7F7FFFFF
  else 7

/-- The element that a source gives: its code and whether its staging word is poisoned (DEDUCED, log entry 26). -/
def stElem (m : Memory) (ty src fill : Nat) (x : Src) : Nat × Bool :=
  match x with
  | .none => (0, false)
  | .fill => (fill, false)
  | .elem i =>
    let b := stByte ty src i
    let bad := (wordsOf b (stWidth ty)).any (fun w => m.isBad w)
    let v := leNat (m.read b (stWidth ty))
    (if bad then 0 else if ty = tyPW4 then fieldOf v (4 * (i % 2)) 4 else v, bad)

/-- The 4 KB staging regions that sources lie in (R132) (DEDUCED, log entry 26). -/
def stRegions (ty src : Nat) (xs : List Src) : Regions :=
  (xs.filterMap (fun x => match x with | .elem i => some (0, stByte ty src i / 4096) | _ => none)).dedup

/-- Core cycles beyond one per destination slice, for the sources of D's elements in linear order (R121). -/
def stExtra (d : Desc) (src : Nat) (xs : List Src) : Nat :=
  ((pieces (4 * d.cols) (slicesOf d) xs).map (fun sl =>
    let rows := (sl.filterMap (fun x => match x with | .elem i => some (stByte d.ty src i / 256) | _ => none)).dedup
    max 1 (ceilDiv rows.length 4) - 1)).foldl (· + ·) 0

/-- A staging-sourced command: `gen` gives the source of each element of D, `fill` the fill value, `extra` the kinds of the
pattern source (R121); its extra staging cycles count where it is launched (DEDUCED, log entry 88). -/
def stagedCommand (pc : Nat) (c : Ctx) (l : ListRef) (r : List Word) (errs : List (Bool × Nat)) (shapes : List (Bool × Nat × Nat))
    (srcs : List Nat) (wants : List Want) (fill : Nat) (gen : State → List Src) (s : State) : State :=
  let p := (s.core pc).part
  let d := descD p r
  let regs := stRegions d.ty (stSrc r) (if shapeOk p d then gen s else [])
  let w := if (s.core pc).regionBusy c regs [] then some 0 else s.tileWait pc c (some (recD r)) srcs
  judgeTile w pc c r ((decide (d.ty ≠ tyPW4 ∧ stSrc r % tySize d.ty ≠ 0), 8) :: errs) ((badOperand p (recD r) d, 0, d.ty) :: shapes)
    (fun s =>
      if (s.core pc).regionBusy c regs [] then s.hold pc c 0 0
      else
        fabGate pc c l r (some (recD r)) srcs false wants none (fun m _ s =>
          let xs := gen s
          if xs.any (fun x => match x with | .elem i => stOut d.ty (stSrc r) i | _ => false) then s.cmdError pc c r 7
          else
            let k := s.core pc
            let es := xs.map (fun x => stElem k.staging d.ty (stSrc r) fill x)
            let ks := (srcs.map (fun g => (k.tile g).kinds)).foldl (· ||| ·) (if es.any (fun e => e.2) then kEcc else 0)
            let t := buildTile p d (es.map (fun e => e.1)) [] (es.map (fun e => e.2)) ks 0
            let (t, fs) := t.checked p d k.injLane
            let s := s.fabDone pc (slicesOf d) [] fs
            -- stall cause STAGING_BANK (R121, R189)
            let s := s.setCore pc ((s.core pc).addStall 14 (stExtra d (stSrc r) xs))
            s.launch pc c l r (some (recD r)) srcs regs [] m t CvtStats.zero .done) s) s

/-! ### ILV and DIL (R122) -/

def ilF0 (r : List Word) : Nat := fld (rw r 2) 0 20
def ilNf (r : List Word) : Nat := fld (rw r 2) 20 12
def ilCperm (r : List Word) : Nat := fld (rw r 3) 20 12
def ilNc (r : List Word) : Nat := fld (rw r 4) 0 16 + 1
def ilNr (r : List Word) : Nat := fld (rw r 4) 16 8 + 1
def ilNd (r : List Word) : Nat := fld (rw r 4) 24 8

/-- The column order of CPERM. -/
def State.columnOrder (s : State) (r : List Word) : Option (List Nat) :=
  if recCmod0 r then
    some ((List.range (ilNc r)).map (fun j => dfld (ent (s.tableRoute (ilCperm r)) (1 + j / 4)) (16 * (j % 4)) 12))
  else none

/-- Whether a column order is a permutation of the columns. -/
def orderOk (nc : Nat) (o : Option (List Nat)) : Bool :=
  match o with
  | none => true
  | some l => decide (nc ≤ 256) && (List.range nc).all (fun i => l.contains i)

/-- The sequence of ILV and DIL. -/
def State.ilSeq (s : State) (r : List Word) : List Nat :=
  ilvSequence (ilNr r) (ilNc r) (ilNd r) (ilF0 r) (ilNf r) (s.columnOrder r)

/-- The INDEX route of CPERM, where one is named. -/
def ilWants (r : List Word) : List Want :=
  if recCmod0 r then [{ ref := { id := ilCperm r, bySlot := false, slot := 0 }, kinds := [4], width := none }] else []

/-- Command errors of the column order. -/
def State.ilErrs (s : State) (pc : Nat) (r : List Word) : List (Bool × Nat) :=
  let ok := (s.firstRouteErr pc (ilWants r)).isNone
  [(recCmod0 r && decide (256 < ilNc r), 8), (ok && !orderOk (ilNc r) (s.columnOrder r), 8)]

/-- ILV. -/
def bodyIlv (pc : Nat) (c : Ctx) (l : ListRef) (r : List Word) (s : State) : State :=
  let d := descD (s.core pc).part r
  stagedCommand pc c l r (s.ilErrs pc r) [] [] (ilWants r) 0 (fun s =>
    let q := (s.ilSeq r).toArray
    (List.range (elems d)).map (fun k => ilvSource q (stOfs r + k))) s

/-- DIL. -/
def bodyDil (pc : Nat) (c : Ctx) (l : ListRef) (r : List Word) (s : State) : State :=
  let d := descD (s.core pc).part r
  stagedCommand pc c l r ((recCmod1 r && decide (d.ty = tyPB16), 8) :: s.ilErrs pc r) [] [] (ilWants r)
    (fillValue d.ty (recCmod1 r)) (fun s =>
      let q := s.ilSeq r
      (List.range (elems d)).map (fun k => dilSource q (ilF0 r) (ilNf r) (stOfs r + k))) s

/-! ### REMAP (R123) -/

/-- The pattern of symbol t: row t of SB as a little-endian number (DEDUCED, log entry 30). -/
def patternRow (l : Lanes) (t : Nat) : Nat :=
  ((List.range 64).map (fun i => (lane l (64 * t + i)).1.toNat * 2 ^ (32 * i))).foldl (· + ·) 0

/-- REMAP (DEDUCED, log entry 30). -/
def bodyRemap (pc : Nat) (c : Ctx) (l : ListRef) (r : List Word) (s : State) : State :=
  let p := (s.core pc).part
  let d := descD p r
  let plen := fld (rw r 2) 0 8 + 1
  let phase := fld (rw r 2) 8 8
  let nsym := fld (rw r 2) 16 4 + 1
  let nsc := fld (rw r 4) 0 16 + 1
  let sb := recSbRemap r
  stagedCommand pc c l r [(decide (plen ≤ phase), 8)] [(decide (regCount p ≤ sb), 6, 0)] [sb] [] 0 (fun s =>
    let x := ((s.core pc).tile sb).lanes p
    let rows := ((List.range nsym).map (fun t => patternRow x t)).toArray
    let q := (remapSequence nsym nsc plen phase (fld (rw r 4) 16 16) (fun t => rows.getD t 0) (bit (rw r 5) 20)
      (bit (rw r 5) 21)).toArray
    (List.range (elems d)).map (fun k => ilvSource q (stOfs r + k))) s

/-! ### WIN (R124) -/

/-- WIN. -/
def bodyWin (pc : Nat) (c : Ctx) (l : ListRef) (r : List Word) (s : State) : State :=
  let d := descD (s.core pc).part r
  let h := fld (rw r 2) 0 12 + 1
  let w := fld (rw r 2) 12 12 + 1
  let nch := fld (rw r 2) 24 8 + 1
  let kh := fld (rw r 3) 20 4 + 1
  let kw := fld (rw r 3) 24 4 + 1
  let sy := fld (rw r 4) 0 3 + 1
  let sx := fld (rw r 4) 3 3 + 1
  let py := fld (rw r 4) 6 4
  let px := fld (rw r 4) 10 4
  let ow := (w + 2 * px - kw) / sx + 1
  let oh := (h + 2 * py - kh) / sy + 1
  stagedCommand pc c l r [(decide (w + 2 * px < kw ∨ h + 2 * py < kh), 8)] [] [] [] 0 (fun _ =>
    (List.range (elems d)).map (fun k => winSource (stOfs r + k) h w nch kh kw sy sx py px (fld (rw r 4) 14 18) oh ow)) s

end Sys2Proof.Machine
end

