-- ==== Sys2Proof/Machine/Complete.lean ====
section
/-! DEFINITION. What comes back to a core: rows (R55), the completion of tile instructions with rescales, reruns and renames
(R50, R110, R156 to R161), restarts (R53, R54), routes and solves (R69, R77, R78), contributions to the exchange (R86, R87). -/

namespace Sys2Proof.Machine

/-! ### Rows -/

/-- The space and address of a row in the row cache. -/
def Loc.key : Loc → Option (Nat × Nat)
  | .staging a => some (spStaging, a)
  | .pool a => some (spPool, a)
  | .host va _ => some (spHost, va)
  | .dead _ => none

/-- A row that a TLD waits for arrives, passing through the row cache (R55): its register row, its memory row. -/
def State.rowReturn (s : State) (pc id row : Nat) : State :=
  match (s.core pc).fly id with
  | none => s
  | some f =>
    match f.phase with
    | .rows need =>
      match need.find? (fun x => decide (x.2 = row)) with
      | none => s
      | some (reg, _) =>
        let p := (s.core pc).part
        let loc := s.rowLoc pc f.ctx f.list.lc f.words row
        match s.rowAt pc loc with
        | none => s.requestRows pc id
        | some x =>
          let s := match loc.key with
            | some (sp, a) =>
              if ((s.core pc).line sp a).isSome then s
              else s.cachePut pc { space := sp, addr := a, bytes := x.bytes, bad := x.bad, kinds := x.kinds }
            | none => s
          let x := s.rowUnder pc f.ctx f.words row x.whole
          let left := need.filter (fun y => decide (y.2 ≠ row))
          let t := f.result.putRow p reg x
          let s := s.onFlight pc id (fun f => { f with
            result := if left.isEmpty then finishLoad p (descD p f.words) t else t
            phase := if left.isEmpty then .done else .rows left })
          s.requestRows pc id
    | _ => s

/-! ### Conversions at completion (R156 to R161) -/

/-- Whether a command takes its output scale from a history slot (R150, R157). -/
def usesHist (p : Bool) (r : List Word) : Bool :=
  recHist r && (decide (recOpc r = 0x22) || (fixedWidth (descD p r).ty).isSome)

/-- The scale that a history slot gives a command now: t, or the exponent of the level-2 scale (R150, R157). -/
def State.scaleNow (s : State) (p : Bool) (lc : Nat) (r : List Word) : Int :=
  if recOpc r = 0x22 then (s.quantScale lc r).getD 0 else s.outScale lc r (descD p r).ty

/-- Whether saturations exceed the threshold of the history slot in force (R159, R164): SAT_LOG2 of 0 never triggers
(DEDUCED, log entry 43). -/
def State.rescales (s : State) (lc : Nat) (r : List Word) (st : CvtStats) : Bool :=
  let k := (s.histOf lc (recHslot r)).satl
  decide (k ≠ 0) && decide (st.comps < st.sat * 2 ^ k) && st.tmax.isSome

/-- A history slot filled with the exponent of the present tensor (R159). -/
def Hist.refill (h : Hist) (e : Int) : Hist :=
  { h with ring := List.replicate h.n e, acc := some e, adapt := false }

/-- RESCALE at the completion of a run (R159, R160): the state, and whether the run is made again (DEDUCED, log entry 43). -/
def State.rescale (s : State) (pc : Nat) (f : InFlight) : State × Bool :=
  let p := (s.core pc).part
  let lc := f.list.lc
  let r := f.words
  let h := recHslot r
  let before := if recOpc r = 0x22 then s.scaleNow p lc r else f.result.t
  let s := s.setHist lc h ((s.histOf lc h).refill (f.stats.tmax.getD 0))
  let again := recRetry r && !s.curfewHolds f.list
  let s := s.onCnt pc (fun k => { k with rescale := satAdd k.rescale 1 max32 })
  (s.evt 0x0060 pc [(0, 5, pc), (5, 4, lc), (9, 1, b2n (decide (f.ctx = .bg))), (12, 8, recOpc r), (20, 4, h),
    (24, 8, unsigned before 8), (32, 8, unsigned (s.scaleNow p lc r) 8), (40, 1, b2n again), (41, 1, b2n (recRetry r && !again)),
    (42, 32, f.stats.sat), (74, 14, f.index)], again)

/-- The rerun of a conversion from its retained sources, into the same commit slot (R160). -/
def State.rerun (s : State) (pc : Nat) (f : InFlight) : State :=
  let m := s.remake pc f.list.lc f.words f.kept
  let s := s.onCore pc (fun k =>
    { k with lfsr := m.lfsr, cnt := { k.cnt with rerun := satAdd k.cnt.rerun 1 max32 } })
  s.onFlight pc f.id (fun f => { f with result := m.tile, stats := m.stats, rerun := true })

/-- A command whose tensor is under range (R161), judged once, at the end of its first run and against the ring that gave its
scale (DEDUCED, log entry 43). -/
def State.underRange (s : State) (pc : Nat) (f : InFlight) : State :=
  let lc := f.list.lc
  let r := f.words
  let h := recHslot r
  let x := s.histOf lc h
  let u := x.under
  match x.big, f.stats.tmax with
  | some b, some e =>
    if u ≠ 0 ∧ e < b + x.head - (u : Int) then
      let s := s.setHist lc h { x with adapt := true, latch := if x.adapt then max x.latch e else e }
      let s := s.onCnt pc (fun k => { k with under := satAdd k.under 1 max32 })
      s.evt 0x0061 pc [(0, 5, pc), (5, 4, lc), (9, 1, b2n (decide (f.ctx = .bg))), (12, 8, recOpc r), (20, 4, h),
        (24, 8, unsigned (b + x.head) 8), (32, 8, unsigned e 8), (40, 14, f.index)]
    else s
  | _, _ => s

/-- The counters of a conversion and its entry into the accumulator (R140, R142, R149, R151, R158). -/
def State.countConv (s : State) (pc : Nat) (f : InFlight) : State :=
  let st := f.stats
  let s := s.onCore pc (fun k =>
    { k with
      cnt := { k.cnt with cvtSat := satAdd k.cnt.cvtSat st.sat max32, cvtNan := satAdd k.cnt.cvtNan st.nan max32,
                          cvtMiss := satAdd k.cnt.cvtMiss st.missing max32 }
      gongNan := satAdd k.gongNan st.nan max32, gongInf := satAdd k.gongInf st.inf max32 })
  match st.tmax with
  | some e =>
    if recHupd f.words then
      let h := s.histOf f.list.lc (recHslot f.words)
      s.setHist f.list.lc (recHslot f.words) { h with acc := some (match h.acc with | some a => max a e | none => e) }
    else s
  | none => s

/-! ### Completion (R50, R110) -/

/-- The commit slot of an instruction renamed to its destination (R50, R131); the slot it displaces becomes a commit slot, whose
latches are invalid (R49). -/
def State.rename (s : State) (pc : Nat) (f : InFlight) : State :=
  match f.dest, f.slot with
  | some d, some x =>
    s.onCore pc (fun k => ({ k.setTile d f.result with slotOf := SMap.set k.slotOf d d x }).unlatch (k.slotOfReg d))
  | _, _ => s

/-- What a completed TST leaves with the handle register `h` it stored through (R110, R139, R172, R196): the end of its
highest row there, and the SIDE word of the buffer. -/
def State.stampHandle (s : State) (pc : Nat) (f : InFlight) (rows : List (Nat × Nat)) (h : Nat) : State :=
  match ((s.core pc).ctx f.ctx).hreg h with
  | none => s
  | some y =>
    if isPlaceholder y.handle ∨ (s.staleCode y.handle).isSome then s
    else
      let r := f.words
      let own := rows.filter (fun x => decide (mvH r + rowOff r x.2 / 4096 = h))
      let fill := (own.map (fun x => (rowOff r x.2 % 4096 + 256) / 16)).foldl max 0 % 256
      let marks := own.foldl (fun (a : Nat) x =>
        (f.result.rowOut x.1).bad.foldl (fun a k => a ||| 2 ^ ((rowOff r x.2 % 4096 + 32 * k) / 256)) a) 0
      let b := hBuf y.handle
      let old := (s.buffer b).side
      let side := sideAdd (mkSide s.stamp f.result.t (sideKinds old) (sidePmap old) pc (s.core pc).inc s.gsn16)
        f.result.kinds marks
      let s := s.setBuffer b { s.buffer b with side := side }
      let s := s.onCtx pc f.ctx (fun x => x.setHreg h (some { y with handle := hWithFill y.handle fill }))
      s.syncFlags b

/-- The pushes of CPUSH in ascending order (R98, R134, R174); none where one must wait. -/
def State.cpush (s : State) (pc : Nat) (f : InFlight) : Option State :=
  if !recCpush f.words then some s
  else
    ((List.range (recCn f.words)).map (fun i => recCh f.words + i)).foldl (fun (a : Option State) h =>
      match a with
      | none => none
      | some s =>
        match ((s.core pc).ctx f.ctx).hreg h with
        | none => some s
        | some y =>
          let q := recChq f.words
          if (s.staleCode y.handle).isNone && (s.pushWait q (y.heldFor q)).isSome then none
          else some (s.pushFrom pc f.ctx f.list.lc q h y)) (some s)

/-- A tile instruction leaves: its mallet, its place in flight. -/
def State.retire (s : State) (pc : Nat) (f : InFlight) : State :=
  (s.releaseMallet f.mallet).onCore pc (fun k => { k with flight := k.flight.filter (fun x => decide (x.id ≠ f.id)) })

/-- The end of a tile instruction that wrote a register: counts, rename, CSIG (DESIGN CHOICE, log entry 16). -/
def State.finishTile (s : State) (pc : Nat) (f : InFlight) : State :=
  let s := (s.countConv pc f).rename pc f
  (s.retire pc f).csig pc f.words

/-- The end of a TST: fill fields and SIDE words, pushes, CSIG; it stays while a push must wait (DEDUCED, log entry 17). -/
def State.finishTst (s : State) (pc : Nat) (f : InFlight) : State :=
  let p := (s.core pc).part
  let rows := movedRows p (descS p f.words)
  let s' := if mvSpace f.words = 1 then (hregsOf f.words rows).foldl (fun s h => s.stampHandle pc f rows h) s else s
  match s'.cpush pc f with
  | none => s
  | some s' => (s'.retire pc f).csig pc f.words

/-- Whether an earlier instruction of the context still writes the same register (R131). -/
def Core.renamesFirst (k : Core) (f : InFlight) : Bool :=
  (k.inFlight f.ctx).any (fun x => decide (x.id < f.id) && decide (x.dest = f.dest) && x.dest.isSome)

/-- A tile instruction completes (R50, R54, R159 to R161): a run above its saturation threshold is rescaled, and made again
where RETRYABLE allows it (DESIGN CHOICE, log entry 16). -/
def State.tileComplete (s : State) (pc id : Nat) : State :=
  match (s.core pc).fly id with
  | none => s
  | some f =>
    match f.phase with
    | .done =>
      if (s.core pc).renamesFirst f then s
      else if usesHist (s.core pc).part f.words && !f.rerun then
        let hot := s.rescales f.list.lc f.words f.stats
        let s := s.underRange pc f
        if hot then
          let (s, again) := s.rescale pc f
          if again then s.rerun pc f else s.finishTile pc f
        else s.finishTile pc f
      else s.finishTile pc f
    | .writes => if s.tstPending pc id then s else s.finishTst pc f
    | _ => s

/-- An abandoned TLD or TST reissues from row 0, but not while a partition change is pending, and under the partition then in
force (R52 to R54, R59, R278). -/
def State.tileRestart (s : State) (pc id : Nat) : State :=
  match (s.core pc).fly id with
  | none => s
  | some f =>
    match f.phase with
    | .restart true late =>
      let k := s.core pc
      let p := k.part
      let r := f.words
      let d := if recOpc r = 0x01 then descD p r else descS p r
      let (o, g) := if recOpc r = 0x01 then (0, recD r) else (1, recSa r)
      if k.partPend.isSome then s
      else if badOperand p g d then
        -- a new partition that the operand does not fit (R41, R59)
        s.shapeError pc f.ctx r o d.ty
      else if recOpc r = 0x01 then
        match k.freeSlots.head? with
        | none => s
        | some x =>
          let rows := movedRows p (descD p r)
          let (ks, t) := if mvSpace r = 1 then s.sideOf pc f.ctx r (hregsOf r rows) else (0, 0)
          let s := s.onCore pc (fun k => k.unlatch x)
          let s := s.onFlight pc id (fun f => { f with
            slot := some x, phase := .rows rows, late := late, noted := late
            result := { Tile.reset with kinds := ks, t := if tyScaled (descD p r).ty then t else 0 } })
          s.requestRows pc id
      else
        let rows := movedRows p (descS p r)
        let t := k.tile (recSa r)
        let s := s.onFlight pc id (fun f => { f with phase := .writes, late := late, noted := late, result := t,
                                                     srcs := [k.slotOfReg (recSa r)] })
        s.storeAll pc f.ctx f.list.lc id r t rows
    | _ => s

/-! ### Solves (R76 to R78) -/

/-- Whether a solve takes both solvers (R76, R77). -/
def Solve.gathers (q : Solve) : Bool :=
  match solveResult q.scatter (q.index, q.kinds) with
  | (.lanes _ _ g, _) => g
  | _ => false

/-- The solves that run: the head, and the next one where neither takes both solvers. -/
def Core.running (k : Core) : List Solve :=
  match k.solveQ with
  | a :: b :: _ => if a.gathers || b.gathers then [a] else [a, b]
  | l => l

/-- A list without its first element equal to `x`. -/
def dropFirst {α : Type} [DecidableEq α] (x : α) : List α → List α
  | [] => []
  | a :: t => if a = x then t else a :: dropFirst x t

/-- A running solve into slot `n` ends: the route, or a BAD slot with SOLVE_ERR (R77, R78) (DESIGN CHOICE, log entry 19). -/
def State.solveComplete (s : State) (pc n : Nat) : State :=
  match (s.core pc).running.find? (fun q => decide (q.slot = n)) with
  | none => s
  | some q =>
    let (rt, ks) := solveResult q.scatter (q.index, q.kinds)
    let fault := solveFault q.scatter [] 0 q.index
    let s := s.onCore pc (fun k =>
      let k := { k with solveQ := dropFirst q k.solveQ, cnt := { k.cnt with solves := satAdd k.cnt.solves 1 max32 } }
      let slot : RSlot := match fault with
        | some _ => { RSlot.reset with bad := true, badK := ks }
        | none => { RSlot.reset with route := some rt, solved := true }
      (k.setSlot n slot).touch n)
    match fault with
    | some (i, cause) =>
      let s := s.onCore pc (fun k => { k with errSlot := n, errCause := cause, errIndex := i })
      s.evt 0x0044 pc [(0, 5, pc), (5, 4, (s.lcOf pc).getD 0), (9, 3, n), (12, 2, cause), (14, 8, i)]
    | none => s

/-! ### The exchange (R85 to R87) -/

/-- A slice of a participant reaches the XCX, which drops one of a stale incarnation as ghost traffic, whether or not its
collective is still open (R85, R337). -/
def State.xcxArrive (s : State) (lc i slice : Nat) : State :=
  match s.routes.flying.find? (fun y => decide (y.coll = i) && decide (y.lc = lc) && y.left.contains slice) with
  | none => s
  | some y =>
    let rest := s.routes.flying.map (fun z => if z = y then { z with left := z.left.filter (fun n => decide (n ≠ slice)) } else z)
    let s := { s with routes := { s.routes with flying := rest.filter (fun z => !z.left.isEmpty) } }
    if y.inc ≠ s.incOf y.pc then s.ghost y.pc
    else
      match s.coll i with
      | none => s
      | some c =>
        if c.filled.any (fun f => decide (f.1 = lc)) then s
        else (s.setColl i { c with got := c.got ++ [(lc, slice)] }).finishColl i

/-- The wait limit of a collective passes: what has not arrived is filled with MISSING (R87). -/
def State.xcxExpire (s : State) (i : Nat) : State :=
  match s.coll i with
  | none => s
  | some c =>
    if s.xcxLimit ≠ 0 ∧ !c.closed ∧ !c.ready ∧ 10 * s.xcxLimit ≤ s.ns10 (s.tu.ltc - c.opened) then
      s.fillColl i none kMissing 1
    else s

/-! ### The rows -/

/-- ROW_RETURN (R55). -/
def execRowReturn (pc id row : Nat) (s : State) : Host.Outcome State Fault Refusal :=
  .next (settle s (if s.canRun pc then s.rowReturn pc id row else s))

/-- TILE_COMPLETE (R50). -/
def execTileComplete (pc id : Nat) (s : State) : Host.Outcome State Fault Refusal :=
  .next (if s.canRun pc then settle s (s.tileComplete pc id) else s)

/-- TILE_RESTART (R53). -/
def execTileRestart (pc id : Nat) (s : State) : Host.Outcome State Fault Refusal :=
  .next (settle s (if s.canRun pc then s.tileRestart pc id else s))

/-- ROUTE_FETCH_COMPLETE (R69). -/
def execRouteFetchComplete (pc slot : Nat) (s : State) : Host.Outcome State Fault Refusal :=
  .next (settle s (s.fetched pc slot))

/-- SOLVE_COMPLETE (R77). -/
def execSolveComplete (pc slot : Nat) (s : State) : Host.Outcome State Fault Refusal :=
  .next (if s.canRun pc then settle s (s.solveComplete pc slot) else s)

/-- XCX_CONTRIBUTION (R86). -/
def execXcxContribution (lc coll slice : Nat) (s : State) : Host.Outcome State Fault Refusal :=
  .next (settle s (s.xcxArrive lc coll slice))

/-- XCX_WAIT_LIMIT_EXPIRY (R87). -/
def execXcxWaitLimitExpiry (coll at_ : Nat) (s : State) : Host.Outcome State Fault Refusal :=
  let s := s.elapseTo at_
  .next (settle s (s.xcxExpire coll))

end Sys2Proof.Machine
end

