-- ==== Sys2Proof/Machine/Gong.lean ====
section
/-! DEFINITION. The gong sequence of R27, strokes (R16, R19), the curfew (R25), margins (R31), the conservation audit (R193,
R194), the route update (R75), what else happens at a gong (R58, R89, R129, R140, R158, R181, R399), and release (R22). -/

namespace Sys2Proof.Machine

/-- Every logical core changed by `f`. -/
def State.onLcs (s : State) (f : LogCore → LogCore) : State :=
  { s with lcs := (s.lcs.map (fun (e : Nat × LogCore) => (e.1, f e.2))).filter (fun e => decide (e.2 ≠ LogCore.reset)) }

/-! ### The conservation audit (R193) -/

/-- Whether a handle refers to a buffer as it stands, or to a stale one. -/
def handleIs (h : Word) (b : Nat) (gen : Nat) : Bool := !isPlaceholder h && refersTo h b gen

/-- The handles in the handle registers of every core, in the stream ports and in the ring copies (HELD, R193). -/
def State.heldHandles (s : State) : List Word :=
  s.cores.flatMap (fun e => (e.2.fg.hregs ++ e.2.bg.hregs).map (fun h => h.2.handle))
    ++ s.st.ports.flatMap (fun e =>
      (match e.2.recv with | some r => [mkHandle r.buf (s.buffer r.buf).gen 0 0 false false] | none => [])
        ++ (match e.2.out with | some o => [o.handle] | none => []))
    ++ s.st.rings.flatMap (fun e => match e.2.out with | some o => [o.handle] | none => [])

/-- The handles in every queue. -/
def State.queuedHandles (s : State) : List Word := s.st.queues.flatMap (fun e => e.2.handles.map (fun q => q.handle))

/-- The smallest number whose difference is not 0, with the difference. -/
def firstDiff (ds : List (Nat × Int)) : Option (Nat × Int) := ds.find? (fun d => decide (d.2 ≠ 0))

/-- Buffers of HANDLE partitions that are free, queued, held or in spill, less all of them (R193). -/
def State.bufferDiff (s : State) : Int :=
  let ps := (List.range 16).filter (fun p => !(s.part p).reserved)
  let refs := s.queuedHandles ++ s.heldHandles
  (ps.map (fun p =>
    let x := s.part p
    let busy := ((bufRange x.base x.size).filter (fun b => refs.any (fun h => handleIs h b (s.buffer b).gen))).length
    ((x.free.length + busy : Nat) : Int) - x.size)).foldl (· + ·) 0

/-- The snapshot of step 4 of R27: the first check that fails, with its number and difference (R193, R199) (DEDUCED, log entry 54). -/
def State.audit (s : State) : Option (Nat × Nat × Int) :=
  let refs := s.queuedHandles ++ s.heldHandles
  let tag (k : Nat) (o : Option (Nat × Int)) : Option (Nat × Nat × Int) := o.map (fun x => (k, x.1, x.2))
  let c1 := firstDiff [(0, s.bufferDiff)]
  let c2 := (firstDiff (s.st.bufs.map (fun e =>
      (0, (((refs.filter (fun h => handleIs h e.1 e.2.gen)).length : Nat) : Int) - e.2.refs))))
  let c3 := firstDiff (s.st.queues.map (fun e =>
      (e.1, if e.2.entry then 0 else ((e.2.credits + e.2.handles.length : Nat) : Int) - e.2.init)))
  let c4 := if s.pins.strUp then firstDiff ((List.range 8).map (fun k =>
    let p := s.sport k
    (k, if k < 4 then ((p.credits + p.fifo.length : Nat) : Int) - 64
        else (p.given : Int) - ((p.beats + p.credits : Nat) : Int)))) else none
  let spilled := (refs.filter (fun h => hSpilled h && !isPlaceholder h)).length
  let spilling := (s.st.queues.map (fun e => (e.2.handles.filter (fun q => q.spilling.isSome)).length)).foldl (· + ·) 0
  let c5 := firstDiff [(0, (s.st.ovfUsed.length : Int) - ((spilled + spilling : Nat) : Int))]
  let c6 := firstDiff (s.st.rings.map (fun e =>
      let held := (e.2.prod - e.2.cons).toNat
      (e.1, if e.2.valid && decide (e.2.nslot < held) then (held : Int) - e.2.nslot else 0)))
  [tag 1 c1, tag 2 c2, tag 3 c3, tag 4 c4, tag 5 c5, tag 6 c6].findSome? id

/-! ### Lists at their deadline (R27 steps 2 and 3, R32) -/

/-- Commands of a list from record `i` to its END, at most `f` (DEDUCED, log entry 53). -/
def State.listRest (s : State) (l : ListRef) : Nat → Nat → Nat
  | 0, _ => 0
  | f + 1, i => if recOpc (s.record l.lc l.start i).1 = 0x3F then 1 else 1 + s.listRest l f (i + 1)

/-- Records of a list area (R213). -/
def listRecords : Nat := 12288

/-- What a GONG_CUT record gives of a cut list. -/
structure Cut where
  list : ListRef
  pc   : Nat
  done : Nat
  rest : Nat
  late : Nat
  deriving DecidableEq, Repr

/-- The running list of a context cut, with its record's figures. -/
def State.cutRunning (s : State) (pc : Nat) (c : Ctx) (l : ListRef) : State × Cut :=
  let x := (s.core pc).ctx c
  let open_ := ((s.core pc).inFlight c).length
  let done := x.run - open_
  let late := (x.hregs.filter (fun h => !h.2.input)).length
  let total := x.index + s.listRest l (listRecords - l.start - x.index) x.index
  (s.stopList pc c kLate 3, { list := l, pc := pc, done := done, rest := total - done, late := late })

/-- The lists of a context that `due` names cut: those that wait, then the one that runs. -/
def State.cutCtx (s : State) (due : ListRef → Bool) (pc : Nat) (c : Ctx) : State × List Cut :=
  let x := (s.core pc).ctx c
  let waiting := (x.queue.filter due).map (fun l =>
    ({ list := l, pc := pc, done := 0, rest := s.listRest l (listRecords - l.start) 0, late := 0 } : Cut))
  let s := if waiting.isEmpty then s else s.onCtx pc c (fun x => { x with queue := x.queue.filter (fun l => !due l) })
  match x.list with
  | some l =>
    if due l then
      let (s, k) := s.cutRunning pc c l
      (s, waiting ++ [k])
    else (s, waiting)
  | none => (s, waiting)

/-- Every list that `due` names cut on every core (R27 steps 2 and 3). -/
def State.cutAll (s : State) (due : ListRef → Bool) : State × List Cut :=
  (s.cores.map (fun e => e.1)).foldl (fun a pc =>
    let (s, x) := a.1.cutCtx due pc .fg
    let (s, y) := s.cutCtx due pc .bg
    (s, a.2 ++ x ++ y)) (s, [])

/-- The counts of R32 for the lists cut. -/
def State.countCuts (s : State) (cs : List Cut) : State :=
  let s := cs.foldl (fun s (k : Cut) => s.onLc k.list.lc (fun l =>
    { l with cuts := satAdd l.cuts 1 max16, cutMust := l.cutMust || !k.list.carry })) s
  { s with gong := { s.gong with
      overrun := if cs.isEmpty then s.gong.overrun else satAdd s.gong.overrun 1 max32
      lateCnt := satAdd s.gong.lateCnt ((cs.map (fun k => k.late)).foldl (· + ·) 0) max32 } }

/-- GONG_CUT for each list cut (R27 step 8, R33) (DEDUCED, log entry 53). -/
def State.cutRecords (s : State) (cs : List Cut) : State :=
  cs.foldl (fun s (k : Cut) => s.evt 0x0021 0 [(0, 4, k.list.lc), (4, 5, k.pc), (9, 1, b2n k.list.carry), (10, 3, k.list.entry),
    (13, 16, k.done), (29, 16, k.rest), (45, 16, k.late)]) s

/-! ### Margins (R31) -/

/-- A word as a signed number. -/
def sword (w : Word) : Int := signed w.toNat 32

/-- A signed number of ns as a word, at the ends of the range where it lies outside. -/
def marginWord (v : Int) : Word := BitVec.ofInt 32 (max (-(2 ^ 31)) (min (2 ^ 31 - 1) v))

/-- The margin of a logical core at a gong; `busy` that a MUST list of it still runs on past a stop of gongs (R15, R31)
(DEDUCED, log entry 52). -/
def LogCore.margin (l : LogCore) (now : Int) (busy : Bool) : LogCore :=
  let v := if l.cutMust then 0x80000000
    else if l.must && !busy && !l.knelled then marginWord (now - l.mustDone)
    else l.marginLast
  { l with marginLast := v, marginMin := if sword v < sword l.marginMin then v else l.marginMin, must := false, cutMust := false }

/-- Margins of every logical core of the configuration at a gong of time `t` (DEDUCED, log entry 52). -/
def State.margins (s : State) (t : Int) : State :=
  let now := t / 65536
  (List.range s.par.nlc).foldl (fun s n =>
    let busy := s.cores.any (fun e => match e.2.fg.list with | some l => decide (l.lc = n) | none => false)
    s.onLc n (fun l => l.margin now busy)) s

/-! ### The route update (R75) -/

/-- Dirty entries that pass of a target directory: those whose range shares a group with another valid entry leave. -/
def State.overlapPass (s : State) (ok : List Nat) : List Nat :=
  let target (id : Nat) : DWord := if ok.contains id then SMap.get s.routes.shadow 0 id else SMap.get s.routes.active 0 id
  let ids := (s.routes.active.map (fun e => e.1)) ++ ok.filter (fun i => !s.routes.active.any (fun e => decide (e.1 = i)))
  ok.filter (fun id =>
    let d := target id
    !(deValid d && ids.any (fun j => decide (j ≠ id) && deValid (target j)
        && sameGroup (deBase d, deLen d) (deBase (target j), deLen (target j)))))

/-- Passes repeated until one rejects nothing; each but the last rejects at least one of `n` entries. -/
def State.overlapFix (s : State) : Nat → List Nat → List Nat
  | 0, ok => ok
  | n + 1, ok =>
    let ok' := s.overlapPass ok
    if ok'.length = ok.length then ok else s.overlapFix n ok'

/-- An armed update applied in step 5 (R75). -/
def State.routeUpdate (s : State) : State :=
  if !s.routes.armed then s
  else
    let reason (id : Nat) : Nat :=
      let d := SMap.get s.routes.shadow 0 id
      if deValid d then dirReason id d (if deBase d < 524288 then some (s.routes.table.entry (deBase d)) else none) else 0
    let first := s.routes.dirty.filter (fun id => decide (reason id = 0))
    let ok := s.overlapFix (first.length + 1) first
    let s := (s.routes.dirty.filter (fun id => !ok.contains id)).foldl (fun s id =>
      s.evt 0x0041 0 [(0, 12, id), (12, 3, if reason id = 0 then 6 else reason id)]) s
    let rejected := s.routes.dirty.length - ok.length
    let gen := (s.routes.gen + 1) % 2 ^ 32
    let active := ok.foldl (fun (m : SMap DWord) id => SMap.set m 0 id (SMap.get s.routes.shadow 0 id)) s.routes.active
    let s := { s with
      routes := { s.routes with active := active, dirty := [], armed := false, gen := gen
                                cleared := s.routes.cleared.filter (fun id => !ok.contains id) }
      cores := s.cores.map (fun (e : Nat × Core) => (e.1, e.2.retag gen (fun id => ok.contains id))) }
    s.routeUpdateRec ok.length rejected

/-- Route fetches in flight complete first (R75). -/
def State.finishFetches (s : State) : State :=
  (s.cores.flatMap (fun e => (e.2.slots.filter (fun x => x.2.fetch)).map (fun x => (e.1, x.1)))).foldl
    (fun s p => s.fetched p.1 p.2) s

/-! ### What else happens at a gong -/

/-- Inversions that waited for the gong, in order of issue, whatever became of their lists (R129, R136) (DEDUCED, log entry 39). -/
def State.swapRoles (s : State) : State :=
  (List.range 16).foldl (fun s n =>
    let ws := (s.lc n).swaps
    let s := ws.foldl (fun s k => s.invertRole n k) s
    if ws.isEmpty then s else s.onLc n (fun l => { l with swaps := [] })) s

/-- Shed receivers rejoin (R181). -/
def State.rejoin (s : State) : State :=
  s.st.peals.foldl (fun s e =>
    let g := e.2
    if g.shed = 0 then s
    else
      let s := ((List.range 8).filter (fun k => g.shed.getLsbD k)).foldl (fun s k =>
        let q := g.recvQueue k
        let x := s.queue q
        let s := s.setQueue q { x with owed := [], delivered := 0 }
        s.evt 0x0071 0 [(0, 6, e.1), (6, 3, k), (9, 16, x.owed.length), (25, 16, x.delivered)]) s
      s.setPeal e.1 { s.peal e.1 with shed := 0 }) s

/-- One history slot at a gong (R158), HIST_CFG applied first (R164, R399) (DEDUCED, log entry 59). -/
def Hist.gong (h : Hist) (cfg : Nat) : Hist :=
  let n := fieldOf cfg 0 4 + 1
  let h := { h with
    n := n, head := fieldOf cfg 4 3, satl := fieldOf cfg 8 4, under := fieldOf cfg 12 5, ring := h.ring.take n }
  let h := if h.clr then { h with ring := [], acc := none, clr := false } else h
  let h := if h.adapt then { h with ring := List.replicate n h.latch, adapt := false } else h
  match h.acc with
  | some e => { h with ring := (e :: h.ring).take n, acc := none }
  | none => h

/-- History slots act in order (R158); an adaptation is recorded. -/
def State.histories (s : State) : State :=
  (List.range 256).foldl (fun s i =>
    let h := SMap.get (s.lc (i / 16)).hist Hist.reset (i % 16)
    let cfg := (s.reg (0x41000 + 8 * i)).toNat
    let h' := h.gong cfg
    let s := if h' = h then s else s.onLc (i / 16) (fun l => { l with hist := SMap.set l.hist Hist.reset (i % 16) h' })
    if h.adapt then s.evt 0x0063 0 [(0, 4, i / 16), (4, 4, i % 16), (8, 8, unsigned h.latch 8)] else s) s

/-- The records that a core makes once per gong (R89, R140), ghost traffic after its knell (R265), and its row cache invalidated (R58) (DEDUCED, log entry 54). -/
def State.coreGong (s : State) (pc : Nat) : State :=
  let k := s.core pc
  let lc := (s.lcOf pc).getD 0xF
  let s := if k.gongFab = 0 then s
    else if s.stale pc then s.coreGhost pc
    else s.evt 0x0045 pc [(0, 5, pc), (5, 8, k.gongPort), (13, 3, k.gongPlace), (16, 32, k.gongFab)]
  let s := if k.gongNan = 0 ∧ k.gongInf = 0 then s
    else if s.stale pc then s.coreGhost pc
    else s.evt 0x0062 pc [(0, 5, pc), (5, 4, lc), (16, 32, k.gongNan), (48, 32, k.gongInf)]
  s.onCore pc (fun k => { k with partMap := false, gongNan := 0, gongInf := 0, gongFab := 0, gongPort := 0, gongPlace := 0, cache := [] })

/-! ### Release (R22, R207) -/

/-- A list joins the context of its attribute (R23). -/
def Context.take_ (x : Context) (l : ListRef) : Context :=
  match x.list with
  | none => { Context.reset with list := some l, queue := x.queue }
  | some _ => { x with queue := x.queue ++ [l] }

/-- A pair of numbers put at the end of a list that does not hold it yet. -/
def insPair (l : List (Nat × Nat)) (p : Nat × Nat) : List (Nat × Nat) := if l.contains p then l else l ++ [p]

/-- The entries released at a point of the present type to one logical core (R22, R221, R231, R396). -/
def State.releaseTo (s : State) (point n : Nat) : State :=
  match (s.lc n).pc with
  | none => s
  | some pc =>
    if (s.lc n).knelled then s
    else
      (s.released s.gong.type n point).foldl (fun s e =>
        let carry := peCarry e.2
        let hold := match s.cfg.state with | .armed => carry | _ => false
        if s.sm.pairReset.getLsbD (n % 2) then
          { s with sm := { s.sm with lateRel := insPair s.sm.lateRel (n, point) } }
        else if hold then
          { s with cfg := { s.cfg with carryHeld := satAdd s.cfg.carryHeld 1 max32, heldNow := s.cfg.heldNow + 1 } }
        else
          let l : ListRef := { lc := n, entry := e.1, start := peStart e.2, carry := carry, gsn := s.gong.gsn.toNat,
                               free := !s.gong.en, after := decide (point = 0) && (s.core pc).partMap }
          let s := s.onCtx pc (if carry then .bg else .fg) (fun x => x.take_ l)
          if carry then s else s.onLc n (fun x => { x with must := true })) s

/-- The entries released at a point to every logical core. -/
def State.releaseAt (s : State) (point : Nat) : State := (List.range 16).foldl (fun s n => s.releaseTo point n) s

/-! ### The gong (R27) -/

/-- Whether a gong is due: in free-run mode the period has passed, in network mode a boundary has been reached (R14). -/
def State.gongDue (s : State) : Bool :=
  s.gongsFire && (if s.gong.mode then decide (s.gong.freeNext ≤ s.gong.freeAcc) else decide (s.gong.nextN ≤ s.slotCount))

/-- How far the present time lies past the due gong, in units of 2^−16 ns (DEDUCED, log entry 36). -/
def State.gongLag (s : State) : Int :=
  if s.gong.mode then (((s.gong.freeAcc : Int) - s.gong.freeNext) / 2 ^ 48) else s.now - s.boundary s.gong.nextN * 65536

/-- The presented time at which a due gong fires, in units of 2^−16 ns: with the TU in RUN its own time where it fell
within the last reference tick (R251, log entry 36), else the present time. -/
def State.gongAt (s : State) : Int :=
  if (s.region 7).state = .run ∧ 0 ≤ s.gongLag ∧ s.gongLag ≤ s.tu.rate / 2 ^ 32 + 1 then s.now - s.gongLag else s.now

/-- Step 1: the GSN increments, boundaries passed over are counted (R17, R30), latched fields come into force (R399).
`t` is the time of the gong in units of 2^−16 ns (DEDUCED, log entry 36). -/
def State.fire (s : State) (t : Int) : State :=
  let n : Int := if s.gong.mode then s.gong.freeN else s.slotCount
  let skipped : Nat := if s.gong.mode ∨ !s.gong.running then 0 else (n - s.gong.nextN).toNat
  let ctrl := (s.reg 0x10400).toNat
  let s := { s with gong := { s.gong with
    gsn := s.gong.gsn + 1, lastN := n, g := (t / 65536).toNat, stroke := 0, running := true, inCurfew := false
    skipCnt := satAdd s.gong.skipCnt skipped max32, lenM1 := fieldOf ctrl 8 6, phase := fieldOf ctrl 16 6
    curfew := fld (s.reg 0x10410) 0 16 } }
  if skipped = 0 then s else s.evt 0x0022 0 [(0, 32, skipped), (32, 32, unsigned n 32)]

/-- Step 6: the gong type (R20), under the rules now in force. -/
def State.selectType (s : State) (t : Int) : State :=
  let n : Int := if s.gong.mode then s.gong.freeN else s.gong.lastN
  let idx := ((n + s.gong.phase) % ((s.gong.lenM1 + 1 : Nat) : Int)).toNat
  let pat := s.patternType idx
  let used := s.gong.arm
  let ty := if used then fld (s.reg 0x10420) 0 4 else pat
  let s := { s with gong := { s.gong with type := ty, pidx := idx, arm := false } }
  let s := if used then s.evt 0x0023 0 [(0, 4, ty), (4, 4, pat)] else s
  if s.gong.log then s.emitAt (BitVec.ofInt 56 (t / 4096)) evCapacity 0x0020 0 0
      (payload [(0, 64, s.gong.gsn.toNat), (64, 4, ty), (68, 6, idx), (74, 1, b2n used)]) else s

/-- The time of the gong to come (R14, R15, R18, R251, R253). -/
def State.nextGong (s : State) (t : Int) (wasMode : Bool) : State :=
  let s := { s with gong := { s.gong with
    freeN := s.gong.freeN + 1, freeNext := s.gong.freeNext + s.gong.period * 2 ^ 64, nextN := s.nextBoundary } }
  if s.gong.modePend ≠ wasMode then
    let s := { s with gong := { s.gong with mode := s.gong.modePend } }
    s.afterMode t
  else s

/-- The sequence of R27 for a gong at time `t` (DEDUCED, log entry 53). -/
def State.gongSeq (s : State) (t : Int) : State :=
  let wasMode := s.gong.mode
  let s := s.fire t
  let s := s.finishFetches
  -- step 2, 3
  let ds := s.decideMaps
  let moved := s.movedBy ds
  let gsn := s.gong.gsn.toNat
  let (s, cuts) := s.cutAll (fun l => l.due gsn || (l.carry && moved.contains l.lc))
  let s := (s.countCuts cuts).margins t
  let s := (s.cores.map (fun e => e.1)).foldl (fun s pc => s.coreGong pc) s
  -- step 4
  let s := { s with st := { s.st with snap := some { fail := s.audit } } }
  -- step 5
  let s := { s with sm := { s.sm with lateRel := [] } }
  let s := { s with cfg := { s.cfg with restore := false, noMap := s.cfg.noMap && !s.cfg.activeValid } }
  let (s, done) := s.gongCommit
  let s := if done then s else s.applyMaps ds
  let s := (s.applyPairs).routeUpdate
  let s := ((s.swapRoles).histories).rejoin
  let s := s.unknellNow
  let s := s.onLcs (fun l => { l with knelled := false })
  -- step 6, 7
  let s := s.selectType t
  let s := s.releaseAt 0
  let s := s.nextGong t wasMode
  -- step 8; the control vote of the sequence has cleared (R301), so that the region chooses its state again (R303)
  (s.cutRecords cuts).fall 7

/-- GONG. -/
def execGong (at_ : Nat) (s : State) : Host.Outcome State Fault Refusal :=
  let s := s.elapseTo at_
  .next (settle s (if s.gongDue then s.gongSeq s.gongAt else s))

/-! ### Strokes and the curfew -/

/-- Strokes of the slot that have not fired and whose time is reached fire, in ascending order (R16) (DEDUCED, log entry 65). -/
def State.strokesDue (s : State) : State :=
  if !s.gong.en || !s.gong.running then s
  else
    ((List.range s.gong.strokes).filter (fun k => decide (s.gong.stroke < k) &&
        decide ((s.gong.g : Int) + ((k * s.gong.period / (max 1 s.gong.strokes) : Nat) : Int) ≤ s.nowNs))).foldl (fun s k =>
      let s := { s with gong := { s.gong with stroke := k } }
      s.releaseAt k) s

/-- STROKE. -/
def execStroke (at_ : Nat) (s : State) : Host.Outcome State Fault Refusal :=
  let s := s.elapseTo at_
  .next (settle s (if s.gongDue then s else s.strokesDue))

/-- C of R25. -/
def State.curfewLead (s : State) : Nat := min s.gong.curfew (s.gong.period / 2)

/-- Whether presented time stands between the curfew and the gong to come. -/
def State.curfewDue (s : State) : Bool :=
  s.gongsFire && decide (s.untilPoint 0 0 ≤ s.curfewLead)

/-- The waiting mallet requests of the lists that the curfew holds are withdrawn; their wait goes on as CURFEW (R25). -/
def State.curfewStart (s : State) : State :=
  let s := { s with gong := { s.gong with inCurfew := true } }
  let due (x : Context) : Bool := match x.list with | some l => s.curfewHolds l && x.requested && x.granted.isNone | none => false
  let held : List (Nat × Ctx) := s.cores.flatMap (fun e =>
    (if due e.2.fg then [(e.1, Ctx.fg)] else []) ++ (if due e.2.bg then [(e.1, Ctx.bg)] else []))
  let s := s.withdraw (fun r => held.contains (r.pc, r.ctx))
  held.foldl (fun s p => s.onCtx p.1 p.2 (fun x =>
    { x with requested := false, wait := if x.wait = some 3 then some 10 else x.wait })) s

/-- CURFEW. -/
def execCurfew (at_ : Nat) (s : State) : Host.Outcome State Fault Refusal :=
  let s := s.elapseTo at_
  .next (settle s (if s.curfewDue && !s.gong.inCurfew then s.curfewStart else s))

/-! ### The end of an audit (R194, R345) -/

/-- RESET of detector 13 acts at this many failed audits in a row. -/
def State.auditLimit (s : State) : Nat := clampRange (fld (SMap.get s.sm.detEntry 0 13) 16 16) 1 15

/-- The audit of the snapshot ends (R194) (DEDUCED, log entry 54). -/
def State.auditEnd (s : State) : State :=
  match s.st.snap with
  | none => s
  | some x =>
    match x.fail with
    | none => { s with st := { s.st with snap := none, auditOk := true, badRun := 0 } }
    | some (check, n, d) =>
      let s := { s with st := { s.st with
        snap := none, auditOk := false, auditBad := true, auditGsn := s.gong.gsn.truncate 32, badRun := s.st.badRun + 1 } }
      let s := s.evt 0x0074 0 [(0, 16, 0x0509), (16, 4, check), (20, 10, n), (30, 14, unsigned d 14)]
      s.report (mkReport 13 .smOrSpineTarget (unsigned d 32))

/-- AUDIT_COMPLETE. -/
def execAuditComplete (at_ : Nat) (s : State) : Host.Outcome State Fault Refusal :=
  let s := s.elapseTo at_
  .next (settle s s.auditEnd)

/-! ### Commands on the gong registers -/

/-- GONG_ENABLE: GONG_CTRL.EN set (R14). -/
def State.gongOn (s : State) : State := s.setGongEn true

/-- GONG_DISABLE: GONG_CTRL.EN cleared (R15). -/
def State.gongOff (s : State) : State := s.setGongEn false

/-- GONG_TYPE_OVR: TYPE written with ARM (R20). -/
def State.overrideArm (s : State) (ty : Nat) : State :=
  let s := s.setReg 0x10420 (BitVec.ofNat 32 ty)
  { s with gong := { s.gong with arm := true } }

/-- GONG_CNT_CLR.CLR_CNT (R32). -/
def State.clrCnt (s : State) : State :=
  { s with gong := { s.gong with skipCnt := 0, overrun := 0, lateCnt := 0 } }.onLcs (fun l => { l with cuts := 0 })

/-- GONG_CNT_CLR.CLR_MIN (R31). -/
def State.clrMin (s : State) : State := s.onLcs (fun l => { l with marginMin := 0x7FFFFFFF })

end Sys2Proof.Machine
end

