-- ==== Sys2Proof/Machine/Effects.lean ====
section
/-! DEFINITION. What writes to registers and windows do beyond their RW fields: counter clears (R7), the TRF partition (R59,
R60), the route table and directories (R74, R75), sync objects (R135), CVT_LFSR (R162), HIST_CFG.CLR (R158), the pool
window (R168), the key lock (R216) and the check of the carillon store (R225). -/

namespace Sys2Proof.Machine

/-! ### Counters -/

/-- TRF_CNT_CLR (03). -/
def State.trfCntClr (s : State) (pc : Nat) : State :=
  s.onCnt pc (fun c => { c with latchHit := 0, latchMiss := 0, restart := 0 })

/-- FAB_CNT_CLR (04). -/
def State.fabCntClr (s : State) (pc : Nat) : State :=
  s.onCnt pc (fun c => { c with fabPass := 0, fabCheck := 0, solves := 0, redpSat := 0, routeMiss := 0 })

/-- CVT_CNT_CLR (06). -/
def State.cvtCntClr (s : State) (pc : Nat) : State :=
  s.onCnt pc (fun c => { c with cvtSat := 0, cvtNan := 0, cvtMiss := 0, rescale := 0, under := 0, rerun := 0 })

/-- STALL_CNT_CLR (07). -/
def State.stallCntClr (s : State) (pc : Nat) : State := s.onCore pc (fun k => { k with stall := [] })

/-- STREAM_CNT_CLR (07). -/
def State.streamCntClr (s : State) : State :=
  { s with st := { s.st with dlCnt := 0, spillCnt := 0, abortCnt := 0, genErr := 0 } }

/-! ### Cores -/

/-- TRF_PART.PART written (R59). -/
def State.partWrite (s : State) (pc : Nat) (p : Bool) : State := s.onCore pc (fun k => k.partWrite p)

/-- Whether a pending partition can apply: every tile instruction in flight has completed or is abandoned (R59). -/
def Core.drained (k : Core) : Bool :=
  k.partPend.isSome && k.flight.all (fun f => match f.phase with | .restart _ _ => true | _ => false)

/-- A new partition applies while the core's region runs (R60, R62, R63) (DEDUCED, log entry 56). -/
def State.trfApply (s : State) (pc : Nat) : State :=
  let k := s.core pc
  if k.drained && decide ((s.region (regionOfCore pc)).state = .run) then
    let p := k.partPend.getD k.part
    let s := s.onCore pc (fun k =>
      { k with part := p, partPend := none, partMap := false, drain := 0, tiles := [], slotOf := [], latches := [] })
    s.evt 0x0032 pc [(0, 5, pc), (5, 4, (s.lcOf pc).getD 0xF), (9, 1, b2n p), (10, 32, min k.drain max32)]
  else s

/-- CVT_LFSR written (R162). -/
def State.lfsrWrite (s : State) (pc : Nat) (v : Word) : State :=
  s.onCore pc (fun k => { k with lfsr := if v = 0 then 1 else v })

/-- HIST_CFG.CLR set (R158). -/
def State.histClr (s : State) (lc h : Nat) : State := s.setHist lc h { s.histOf lc h with clr := true }

/-! ### Strobed writes -/

/-- The strobed bytes of a beat, with their offsets in it. -/
def strobed (bs : List Byte) (strb : Nat) : List (Nat × Byte) := (indexed 0 bs).filter (fun e => strb.testBit e.1)

/-- The strobed bytes stored; poison form stays as it is (DEDUCED, log entry 58). -/
def Memory.putStrobed (m : Memory) (a : Nat) (bs : List Byte) (strb : Nat) : Memory :=
  (strobed bs strb).foldl (fun m e => m.put (a + e.1) [e.2]) m

/-- A 64-bit value with the strobed bytes of `v` in. -/
def mergeBytes (old v : DWord) (strb : BitVec 8) : DWord :=
  BitVec.ofNat 64 (leNat ((List.range 8).map (fun i =>
    if strb.getLsbD i then BitVec.ofNat 8 (v.toNat / 2 ^ (8 * i)) else BitVec.ofNat 8 (old.toNat / 2 ^ (8 * i)))))

/-! ### Routes (R74, R75) -/

/-- Whether the group of a route-table entry is live (R74, R219). -/
def State.groupLive (s : State) (i : Nat) : Bool := s.liveRanges.any (fun r => sameGroup r (i, 1))

/-- The route that owns the group of an entry, 0 for a group of an image that is being loaded (DEDUCED, log entry 55). -/
def State.groupOwner (s : State) (i : Nat) : Nat :=
  match s.routes.active.find? (fun e => deValid e.2 && sameGroup (deBase e.2, deLen e.2) (i, 1)) with
  | some e => e.1
  | none => 0

/-- A write to entry `i` of the route table through the window (R74). -/
def State.tableWrite (s : State) (i : Nat) (v : DWord) (strb : BitVec 8) : State × Resp :=
  if s.groupLive i then
    let s := { s with routes := { s.routes with wrErr := satAdd s.routes.wrErr 1 max16 } }
    (s.evt 0x0042 0 [(0, 19, i), (19, 12, s.groupOwner i)], .dataErr)
  else
    ({ s with routes := { s.routes with table := s.routes.table.putStrobed (8 * i) (leBytes 8 v.toNat) strb.toNat } }, .ok)

/-- A write to entry `i` of the shadow directory (R75). -/
def State.shadowWrite (s : State) (i : Nat) (v : DWord) (strb : BitVec 8) : State :=
  let old := SMap.get s.routes.shadow 0 i
  { s with routes := { s.routes with
      shadow := SMap.set s.routes.shadow 0 i (mergeBytes old v strb), dirty := insNat i s.routes.dirty } }

/-- ROUTE_UPD.ARM (R75). -/
def State.updArm (s : State) : State := { s with routes := { s.routes with armed := true } }

/-- ROUTE_UPD.DROP (R75): ignored while an update is pending. -/
def State.updDrop (s : State) : State :=
  if s.routes.armed then s else { s with routes := { s.routes with shadow := s.routes.active, dirty := [] } }

/-! ### Sync objects (R135) -/

/-- A window write to SO_COUNT (`add` false) or SO_ADD: all four strobes, or no effect. -/
def State.soWrite (s : State) (n : Nat) (add : Bool) (v : Word) (strb : BitVec 4) : State × Resp :=
  if strb = 0xF then (s.setCount n (if add then (s.sync n).count + v else v) 0x1F 0 (!add), .ok)
  else (s, if strb = 0 then .ok else .dataErr)

/-- A window write to SO_CTRL, on the strobed bytes. -/
def State.soCtrl (s : State) (n : Nat) (v : Word) (strb : BitVec 4) : State :=
  if strb.getLsbD 0 then s.setSync n { s.sync n with log := bit v 0 } else s

/-! ### The pool window (R168) -/

/-- The strobes of a burst, one for each byte from its first. -/
def burstStrobes (bs : List HcpBeat) : List Bool := bs.flatMap (fun b => (List.range 8).map (fun i => b.strb.getLsbD i))

/-- The words that a burst from `a` writes entirely, with no POISON on any of their beats. -/
def burstWhole (a : Nat) (bs : List HcpBeat) : List Nat :=
  let st := burstStrobes bs
  (wordsOf a (8 * bs.length)).filter (fun w =>
    decide (a ≤ 32 * w) && ((st.drop (32 * w - a)).take 32).length == 32 && ((st.drop (32 * w - a)).take 32).all id)

/-- The words that a burst from `a` writes in poison form: those of a beat with POISON that strobes a byte. -/
def burstBad (a : Nat) (bs : List HcpBeat) : List Nat :=
  (indexed 0 bs).filterMap (fun e => if e.2.poison && decide (e.2.strb ≠ 0) then some ((a + 8 * e.1) / 32) else none)

/-- A write burst through the pool window (DEDUCED, log entry 58). -/
def State.poolWrite (s : State) (a : Nat) (bs : List HcpBeat) : State :=
  let m := s.st.pool.putStrobed a (bs.flatMap (fun b => leBytes 8 b.data.toNat)) 
    (((indexed 0 (burstStrobes bs)).filter (fun e => e.2)).foldl (fun n e => n + 2 ^ e.1) 0)
  { s with st := { s.st with pool := (m.mark (burstWhole a bs) false).mark (burstBad a bs) true } }

/-- A read burst of `n` beats through the pool window: data, and POISON for the beats of words in poison form. -/
def State.poolRead (s : State) (a n : Nat) : State :=
  let as := (List.range n).map (fun i => a + 8 * i)
  { s with hcp := { s.hcp with
      resp := .ok, data := as.map (fun x => BitVec.ofNat 64 (leNat (s.st.pool.read x 8)))
      poison := as.map (fun x => s.st.pool.isBad (x / 32)) } }

/-! ### Sequencer memory (R286) -/

/-- A write of the strobed bytes of a word to sequencer memory `q` at offset `a`. -/
def State.seqWrite (s : State) (q a : Nat) (v : Word) (strb : BitVec 4) : State :=
  s.setSeq q ((s.seq q).putStrobed a (leBytes 4 v.toNat) strb.toNat)

/-! ### The configuration unit -/

/-- CFG_KEY_LOCK (R216). -/
def State.lockKey (s : State) : State := { s with cfg := { s.cfg with keyLock := true } }

/-- CFG_CTRL.RESTORE (R233). -/
def State.restoreReq (s : State) : State := { s with cfg := { s.cfg with restore := true } }

/-- Words of one half of the carillon store. -/
def storeHalf : Nat := 6144

/-- Whether a half of the carillon store holds a word in poison form. -/
def CfgUnit.halfBad (c : CfgUnit) (h : Bool) : Bool :=
  c.bad.any (fun w => decide (w / storeHalf = b2n h))

/-- The bytes of an image that the carillon store keeps: the header and the structural sections. -/
def Image.stored (im : Image) : List Byte :=
  im.header ++ im.sects.flatMap (fun x => if isBulk x.ty then [] else x.data)

/-- Whether a stored image fails its check (R225). -/
def State.storeFails (s : State) (im : Image) (h : Bool) : Bool :=
  s.cfg.halfBad h || decide (crc32c im.stored ≠ im.crc)

/-- CFG_CHECK (R238). -/
def State.cfgCheckRec (s : State) (h : Bool) (id : Nat) : State :=
  s.evt 0x0085 0 [(0, 16, 0x0212), (16, 1, b2n h), (17, 32, id)]

/-- The check of the active half. -/
def State.checkActive (s : State) : State :=
  match s.cfg.active with
  | some im =>
    if s.cfg.activeValid && s.storeFails im s.cfg.half then
      (s.cfgCheckRec false (im.hdr 12 4)).report (mkReport 11 .smOrSpineTarget 0)
    else s
  | none => s

/-- The check of the staged half; its discard makes the record of every discard too (R238) (DEDUCED, log entry 55). -/
def State.checkStaged (s : State) : State :=
  match s.cfg.state, s.cfg.staged with
  | .staged, some im | .armed, some im =>
    if s.storeFails im !s.cfg.half then
      (s.cfgCheckRec true (im.hdr 12 4)).discardStaged
    else s
  | _, _ => s

/-! ### Rows -/

/-- TRF_PART_APPLY (R60). -/
def execTrfPartApply (pc : Nat) (s : State) : Host.Outcome State Fault Refusal := .next (settle s (s.trfApply pc))

/-- LOAD_STAGED (R217). -/
def execLoadStaged (s : State) : Host.Outcome State Fault Refusal := .next (settle s s.loadDone)

/-- CFG_CRC_CHECK (R225). -/
def execCfgCrcCheck (at_ : Nat) (s : State) : Host.Outcome State Fault Refusal :=
  let s := s.elapseTo at_
  .next (settle s (if (s.region 7).state = .run then (s.checkActive).checkStaged else s))

end Sys2Proof.Machine
end

