-- ==== Sys2Proof/Machine/Spine.lean ====
section
/-! DEFINITION. The stream rows: SIN and SOUT frames and credits (R182, R183), external rings (R184), partial bursts (R186),
the wait-for graph with its spills and aborts (R190 to R192). -/

namespace Sys2Proof.Machine

/-! ### SIN frames (R182, R183) -/

/-- A beat arrives on SIN port `k`: without a credit it is dropped with its fault; otherwise it takes a credit and a place
in the receive FIFO (R183) (DEDUCED, log entry 61). -/
def State.sinArrive (s : State) (k : Nat) (b : List Byte) (last : Bool) : State :=
  let p := s.sport k
  if p.credits = 0 then s.streamFault 0x0503 0x1F 0 0 0
  else (s.setSport k { p with credits := p.credits - 1, fifo := p.fifo ++ [(padTo 128 0 b, last)] }).sinPump

/-- The beats of a frame with their LAST bits: LAST comes with the final beat. -/
def frameBeats (f : SinFrame) : List (List Byte × Bool) :=
  let bs := f.header :: f.beats
  (indexed 0 bs).map (fun e => (e.2, decide (e.1 + 1 = bs.length)))

/-- A frame on a SIN port (R182): its beats arrive in order while the stream links are up (R384) (DEDUCED, log entry 61). -/
def State.sinFrame (s : State) (k : Nat) (f : SinFrame) : State :=
  if k < 4 ∧ s.pins.strUp then
    let s := if bit (s.reg 0x20014) 4 then s.wake 6 true [6] else s
    (frameBeats f).foldl (fun s b => s.sinArrive k b.1 b.2) s
  else s

/-! ### SOUT frames (R183) -/

/-- Queues of a SOUT port that hold a handle, in the round after `rr`: their selectors. -/
def State.soutReady (s : State) (p : SPort) : List Nat :=
  let sels := (List.range 16).map (fun i => (p.rr + i) % 16)
  sels.filter (fun i =>
    match p.selQueue i with
    | some q => !(s.queue q).handles.isEmpty || !(s.queue q).owed.isEmpty
    | none => false)

/-- The rows of an external buffer asked for by SOUT port `k`. -/
def State.soutFetch (s : State) (k : Nat) (o : OutFrame) : State :=
  let e := hIndex o.handle
  let c := s.extChan e
  (burstsOf 64 (s.extAddr e) (ceilDiv o.len 64)).foldl
    (fun s b => s.newReq (.sout k) (s.chan c).port (some c) b.1 b.2 false [] []) s

/-- A SOUT port takes its next handle (R183): a placeholder stands for 4,096 zero bytes (DEDUCED, log entry 61). -/
def State.soutTake (s : State) (k : Nat) : State :=
  let p := s.sport k
  match s.soutReady p with
  | [] => s
  | sel :: _ =>
    let q := (p.selQueue sel).getD 0
    match s.pop q false with
    | (s, .wait _) => s
    | (s, .handle h side) =>
      match (if isPlaceholder h then none else s.staleCode h) with
      | some c => s.staleFault c 0x1F 0 q h
      | none =>
        let o : OutFrame := { handle := h, side := side, sel := sel, len := hBytes h, rows := [], sent := [] }
        let s := s.setSport k { s.sport k with out := some o, rr := (sel + 1) % 16 }
        if hExternal h then s.soutFetch k o else s

/-- The bytes of the frame that a SOUT port sends, once all are there: an external buffer's come from host memory. -/
def State.soutData (s : State) (o : OutFrame) : Option (List Byte) :=
  if isPlaceholder o.handle then some (List.replicate 4096 0)
  else if hExternal o.handle then
    let d := (o.rows.flatMap (fun r => r.2)).take o.len
    if d.length = o.len then some d else none
  else some (s.st.pool.read (4096 * hIndex o.handle) o.len)

/-- The header beat of a SOUT frame, in the format of R182. -/
def soutHeader (o : OutFrame) : List Byte :=
  padTo 128 0 (leBytes 16 o.side.toNat ++ [BitVec.ofNat 8 o.sel, 0] ++ leBytes 2 (o.len - 1))

/-- A SOUT port sends as many beats as it holds credits for; after the last it releases the buffer (R183) (DEDUCED, log entry 61). -/
def State.soutSend (s : State) (k : Nat) : State :=
  let p := s.sport k
  match p.out with
  | none => s
  | some o =>
    match s.soutData o with
    | none => s
    | some d =>
      let beats := soutHeader o :: (pieces 128 d.length d).map (padTo 128 0)
      let n := min p.credits (beats.length - o.sent.length)
      let sent := beats.take (o.sent.length + n)
      if sent.length = beats.length then
        let s := s.setSport k { p with
          credits := p.credits - n, beats := p.beats + n, frames := satAdd p.frames 1 max32, out := none, lastOut := sent }
        s.releaseHandle o.handle 0x1F 0 ((p.selQueue o.sel).getD 0)
      else s.setSport k { p with credits := p.credits - n, beats := p.beats + n, out := some { o with sent := sent } }

/-- The next frame of SOUT port `k`, or more of the present one (R183). -/
def State.soutFrame (s : State) (k : Nat) : State :=
  if 4 ≤ k ∧ k < 8 ∧ s.pins.strUp ∧ (s.region 6).state = .run then
    let s := if (s.sport k).out.isNone then s.soutTake k else s
    s.soutSend k
  else s

/-- Credits from the receiving engine (R183, R384). -/
def State.soutCredit (s : State) (k n : Nat) : State :=
  if 4 ≤ k ∧ k < 8 ∧ s.pins.strUp then
    let s := s.setSport k { s.sport k with credits := (s.sport k).credits + n, given := (s.sport k).given + n }
    if (s.region 6).state = .run then s.soutSend k else s
  else s

/-! ### External rings (R184) -/

/-- A descriptor of an external ring (R184). -/
structure RingDesc where
  fill : Nat
  len  : Nat
  side : BitVec 128
  deriving DecidableEq, Repr

/-- The descriptor in its 32 bytes (R184). -/
def ringDescOf (b : List Byte) : RingDesc :=
  { fill := leAt b 0 4, len := leAt b 4 4, side := BitVec.ofNat 128 (leAt b 8 16) }

/-- The descriptor of an outbound slot (R184). -/
def ringDescBytes (h : Word) (side : BitVec 128) : List Byte :=
  leBytes 4 (hFill h) ++ leBytes 4 (hBytes h) ++ leBytes 16 side.toNat ++ leBytes 8 0

/-- The address of a ring's producer index, or of its consumer index 4 bytes on. -/
def Ring.idx (r : Ring) (cons : Bool) : Nat := (r.reg 0x10).toNat + 2 ^ 32 * fld (r.reg 0x14) 0 25 + (if cons then 4 else 0)

/-- The slot that index `i` of a ring names. -/
def Ring.slot (r : Ring) (i : Word) : Nat := i.toNat % max 1 r.nslot

/-- A read of the line of 64 bytes that holds address `a`, or a write of `data` at `a` within it, for ring `r` (R184, R274). -/
def State.ringAccess (s : State) (who : Requester) (r a n : Nat) (write : Bool) (data : List Byte) : State :=
  let c := (s.ring r).chan
  s.newReqAt who (s.chan c).port (some c) (a / 64 * 64) 1 write
    (if write then padTo 64 0 (List.replicate (a % 64) 0 ++ data) else []) [] (a % 64) (a % 64 + n)

/-- Whether a request of this requester is still on its way. -/
def State.asking (s : State) (who : Requester) : Bool := s.mp.reqs.any (fun q => decide (q.who = who))

/-- A slot that the block treats as a placeholder: the handle moves on and the slot is released at once (R184)
(DESIGN CHOICE, log entry 63). -/
def State.ringBad (s : State) (r : Nat) (k q : Nat) : State :=
  let x := s.ring r
  let s := s.setRing r { x with prod := x.prod + 1 }
  let s := s.streamFault 0x0505 0x1F 0 q 0
  let s := s.push q (placeholderHandle (x.first + k)) s.placeholderSide []
  s.ringRelease r k

/-- A new slot of an inbound ring pushed as a space-1 handle (R184). -/
def State.ringSlot (s : State) (r : Nat) (k q : Nat) (d : RingDesc) : State :=
  let x := s.ring r
  if 4096 < d.len then s.ringBad r k q
  else
    let b := 4096 + x.first + k
    let h := mkHandle (x.first + k) (s.buffer b).gen (d.fill % 256) (sideKinds d.side) false true
    let s := s.setRing r { x with prod := x.prod + 1 }
    let s := s.setBuffer b { s.buffer b with refs := 1, side := d.side }
    s.push q h d.side []

/-- Whether the next slot of an inbound ring can be taken: it is free, and its handle can be pushed. -/
def State.ringRoom (s : State) (r : Nat) : Bool :=
  let x := s.ring r
  decide ((x.prod - x.cons).toNat < x.nslot) && (s.pushWait x.queue []).isNone

/-- The new slots of an inbound ring whose descriptors have come, up to one that must wait (DESIGN CHOICE, log entry 63). -/
def State.ringSlots (r : Nat) : Nat → State → State
  | 0, s => s
  | n + 1, s =>
    let x := s.ring r
    let k := x.slot x.prod
    if x.prod = x.asked ∨ !s.ringRoom r then s
    else
      let a := x.desc + 32 * k
      match SMap.get x.lines (some []) (a / 64 * 64) with
      | some [] => s
      | some l => State.ringSlots r n (s.ringSlot r k x.queue (ringDescOf (l.drop (a % 64))))
      | none => State.ringSlots r n (s.ringBad r k x.queue)

/-- The descriptors of new slots asked for, line by line, up to the end of the array (R184); lines that come again are
forgotten first (DESIGN CHOICE, log entry 63). -/
def State.ringAsk (s : State) (r : Nat) : State :=
  let x := s.ring r
  let k := x.slot x.asked
  let n := min (min (x.seen - x.asked).toNat (x.nslot - (x.asked - x.prod).toNat)) (x.nslot - k)
  if n = 0 then s
  else
    let lo := (x.desc + 32 * k) / 64 * 64
    let hi := x.desc + 32 * (k + n)
    let s := s.setRing r { x with
      asked := x.asked + BitVec.ofNat 32 n, lines := x.lines.filter (fun e => decide (e.1 < lo ∨ hi ≤ e.1)) }
    let lines := ceilDiv (hi - lo) 64
    (burstsOf lines lo lines).foldl
      (fun s b => s.newReq (.ringDesc r) (s.chan x.chan).port (some x.chan) b.1 b.2 false [] []) s

/-- The engine's index word acted on (R184): new slots of an inbound ring, slots that the engine has read of an outbound one; a
move by more than the ring can hold is an error, whose slot is a placeholder where one can be taken
(DESIGN CHOICE, log entry 63). -/
def State.ringIndex (s : State) (r : Nat) (w : Word) : State :=
  let x := s.ring r
  let s := s.setRing r { x with index := none }
  if x.outbound then
    if (w - x.cons).toNat ≤ (x.prod - x.cons).toNat then s.setRing r { s.ring r with cons := w }
    else s.streamFault 0x0505 0x1F 0 x.queue 0
  else if x.nslot < (w - x.seen).toNat then
    if s.ringRoom r then
      let s := s.ringBad r (x.slot x.prod) x.queue
      s.setRing r { s.ring r with seen := w, asked := (s.ring r).prod }
    else (s.setRing r { s.ring r with seen := w }).streamFault 0x0505 0x1F 0 x.queue 0
  else s.setRing r { s.ring r with seen := w }

/-- The buffer of an outbound slot written (R184): the pool buffer's contents, an external buffer's rows, or zeros for a
placeholder, with the poisoned words as they are stored (R196, R271). -/
def State.ringBuffer (s : State) (r : Nat) : State :=
  let x := s.ring r
  match x.out with
  | none => s
  | some o =>
    let b := hIndex o.handle
    let (data, bad) :=
      if isPlaceholder o.handle then (List.replicate 4096 (0 : Byte), [])
      else if hExternal o.handle then (padTo 4096 0 (o.rows.flatMap (fun e => e.2)), o.bad)
      else (s.st.pool.read (4096 * b) 4096,
        (s.st.pool.poison.filter (fun w => decide (128 * b ≤ w) && decide (w < 128 * b + 128))).map (fun w => w - 128 * b))
    let a := x.bufs + 4096 * x.slot x.prod
    let s := s.setRing r { x with out := some { o with phase := .buffer } }
    (burstsOf 64 a 64).foldl (fun s e =>
      let i := (e.1 - a) / 64
      s.newReq (.ringOut r) (s.chan x.chan).port (some x.chan) e.1 e.2 true ((data.drop (64 * i)).take (64 * e.2))
        ((bad.filter (fun w => decide (2 * i ≤ w) && decide (w < 2 * i + 2 * e.2))).map (fun w => w - 2 * i))) s

/-- The copy of an outbound ring goes a step on, once the requests of its step have ended: the buffer, the descriptor, then the
producer index, and the handle is released (R184). -/
def State.ringStep (s : State) (r : Nat) : State :=
  let x := s.ring r
  match x.out with
  | none => s
  | some o =>
    match o.phase with
    | .reading => if s.asking (.ringRead r) then s else s.ringBuffer r
    | .buffer =>
      if s.asking (.ringOut r) then s
      else
        let s := s.setRing r { x with out := some { o with phase := .descriptor } }
        s.ringAccess (.ringOut r) r (x.desc + 32 * x.slot x.prod) 32 true
          (ringDescBytes o.handle (sideAdd o.side o.kinds o.lost))
    | .descriptor =>
      if s.asking (.ringOut r) then s
      else
        let s := s.setRing r { x with
          prod := x.prod + 1, out := none, lastDesc := ringDescBytes o.handle (sideAdd o.side o.kinds o.lost) }
        let s := s.ringAccess (.ringProd r) r (x.idx false) 4 true (leBytes 4 (x.prod + 1).toNat)
        s.releaseHandle o.handle 0x1F 0 x.queue

/-- What a ring can do now: act on an index word, ask for descriptors, take new slots, go on with a copy (R184). -/
def State.ringGo (s : State) (r : Nat) : State :=
  if !(s.ring r).valid then s
  else
    let s := match (s.ring r).index with | some w => s.ringIndex r w | none => s
    if (s.ring r).outbound then s.ringStep r
    else State.ringSlots r (s.ring r).nslot (s.ringAsk r)

/-- Every ring goes on, while the spine runs. -/
def State.ringsGo (s : State) : State :=
  if (s.region 6).state ≠ .run then s else (s.st.rings.map (fun e => e.1)).foldl (fun s r => s.ringGo r) s

/-- Whether ring `r` polls now (R184, R197, R282): it is valid, its spine runs, no quiesce holds, no poll of it is under way, and the
time between polls has passed on presented time. -/
def State.pollReady (s : State) (r : Nat) : Bool :=
  let x := s.ring r
  x.valid && decide ((s.region 6).state = .run) && !s.mp.quiesce && !s.mp.rstq && !s.asking (.ringIdx r)
    && decide (x.lastPoll + (100 * max 2 x.poll : Nat) ≤ s.nowNs)

/-- A poll (R184): the engine's index word is read, and the consumer index of an inbound ring, where it has moved, written
(DESIGN CHOICE, log entry 63). -/
def State.ringPoll (s : State) (r : Nat) : State :=
  let x := s.ring r
  let s := s.setRing r { x with lastPoll := s.nowNs, told := if x.outbound then x.told else x.cons }
  let s := if !x.outbound ∧ x.cons ≠ x.told then s.ringAccess (.ringTell r) r (x.idx true) 4 true (leBytes 4 x.cons.toNat) else s
  (s.ringAccess (.ringIdx r) r (x.idx x.outbound) 4 false []).ringGo r

/-- An outbound ring takes its next handle and begins its copy (R184) (DESIGN CHOICE, log entry 63). -/
def State.ringCopy (s : State) (r : Nat) : State :=
  let x := s.ring r
  if !x.valid || !x.outbound || x.out.isSome || decide ((s.region 6).state ≠ .run) || s.mp.quiesce || s.mp.rstq
      || decide (x.nslot ≤ (x.prod - x.cons).toNat) || ((s.queue x.queue).handles.isEmpty && (s.queue x.queue).owed.isEmpty) then s
  else
    match s.pop x.queue false with
    | (s, .wait _) => s
    | (s, .handle h side) =>
      match s.staleCode h with
      | some c => s.staleFault c 0x1F 0 x.queue h
      | none =>
        let o : RingOut := { handle := h, side := side, phase := .reading, rows := [], bad := [], lost := 0, kinds := 0 }
        let s := s.setRing r { s.ring r with out := some o }
        if hExternal h && !isPlaceholder h then
          let e := hIndex h
          let c := s.extChan e
          (burstsOf 64 (s.extAddr e) 64).foldl (fun s b =>
            s.newReq (.ringRead r) (s.chan c).port (some c) b.1 b.2 false [] []) s
        else s.ringBuffer r

/-! ### Partial bursts (R186) -/

/-- The partial merged bursts of a channel are sent (R186). -/
def State.burstFlush (s : State) (c : Nat) : State :=
  let x := s.chan c
  if (s.region 6).state ≠ .run then s
  else
    let s := s.setChan c { x with partRd := [], partWr := [] }
    let s := x.partRd.foldl (fun s b => s.sendRead c b) s
    x.partWr.foldl (fun s w => s.sendWrite w.2.2.2.1 w.2.2.2.2 c (w.1, w.2.1, w.2.2.1)) s

/-! ### The wait-for graph (R190) -/

/-- Nodes of the graph: a context, a queue, a sync object.  A HANDLE partition stands between a context that waits to allocate
and those that hold its buffers; its edges are drawn straight from the one to the others (R190) (DEDUCED, log entry 62). -/
inductive DNode where
  | ctx (pc : Nat) (c : Ctx)
  | popQ (q : Nat)
  | queue (q : Nat)
  | so (n : Nat)
  deriving DecidableEq, Repr

/-- Whether a context waits at its issue point. -/
def State.ctxWaits (s : State) (pc : Nat) (c : Ctx) : Bool := (((s.core pc).ctx c).wait).isSome

/-- The context that a queue's endpoint names, where it waits (R190). -/
def State.waitingEnd (s : State) (e : BitVec 16) : List DNode :=
  match endpointCtx e with
  | some (lc, c) =>
    match (s.lc lc).pc with
    | some pc => if s.ctxWaits pc c then [.ctx pc c] else []
    | none => []
  | none => []

/-- Queues without a free credit among those that `n` credits for a push to `q` are wanted in; `held` are those that hold one
already. -/
def State.dryQueues (s : State) (q n : Nat) (held : List Nat) : List Nat :=
  (s.creditQueues q).filter (fun k => !held.contains k && decide ((s.queue k).spare < n))

/-- Whether a handle is to a pool buffer of partition `p`. -/
def State.inPart (s : State) (p : Nat) (h : Word) : Bool :=
  !isPlaceholder h && !hExternal h && decide (s.partOf (hIndex h) = some p)

/-- The queues and the waiting contexts that hold a buffer of a partition (R190). -/
def State.holders (s : State) (p : Nat) : List DNode :=
  ((s.st.queues.filter (fun e => e.2.handles.any (fun h => s.inPart p h.handle))).map (fun e => DNode.queue e.1))
    ++ (s.st.waitSeq.filter (fun w => ((s.core w.1).ctx w.2).hregs.any (fun h => s.inPart p h.2.handle))).map
      (fun w => DNode.ctx w.1 w.2)

/-- What a context waits for (R190): a pop, a credit (a wait under PEAL_LAG is none), an allocation, a sync object, or the credit
of a CPUSH (DEDUCED, log entry 62). -/
def State.waitEdges (s : State) (pc : Nat) (c : Ctx) : List DNode :=
  match s.issuePoint pc c with
  | none => []
  | some (_, r, _) =>
    let x := (s.core pc).ctx c
    let w := x.wait
    let own :=
      if recOpc r = 0x33 then (if w = some 0 then [DNode.popQ (ctHq r)] else [])
      else if recOpc r = 0x34 then
        (if w = some 1 then
          (s.dryQueues (ctHq r) 1 (match x.hreg (ctH r) with | some y => y.heldFor (ctHq r) | none => [])).map DNode.queue
         else [])
      else if recOpc r = 0x30 ∨ recOpc r = 0x31 then
        (if w = some 4 ∨ w = some 11 then [DNode.so (ctSo r)] else [])
      else
        match s.allocWait pc c with
        | some (p, n, q) =>
          (if (s.part p).free.length < n then s.holders p else []) ++ (s.dryQueues q n []).map DNode.queue
        | none => []
    own ++ (((s.core pc).inFlight c).filter (fun f => s.pushHeld pc f = some 1)).flatMap (fun f =>
      (s.dryQueues (recChq f.words) 1 []).map DNode.queue)

/-- Edges of a node (R190). -/
def State.edges (s : State) (n : DNode) : List DNode :=
  match n with
  | .ctx pc c => s.waitEdges pc c
  | .popQ q => s.waitingEnd (s.queue q).producer
  | .queue q => s.waitingEnd (s.queue q).consumer
  | .so k =>
    match s.image with
    | some im =>
      let m := im.signallers k
      ((List.range 32).filter (fun i => m.testBit i)).flatMap (fun i => s.waitingEnd (ctxEndpoint (i / 2) (if i % 2 = 1 then .bg else .fg)))
    | none => []

/-- The nodes reached along the edges from a work list, each met once. -/
def State.reach (s : State) : Nat → List DNode → List DNode → List DNode
  | 0, seen, _ => seen
  | _ + 1, seen, [] => seen
  | f + 1, seen, n :: work =>
    if seen.contains n then s.reach f seen work else s.reach f (seen ++ [n]) (s.edges n ++ work)

/-- More steps than a search of the graph can take. -/
def reachFuel : Nat := 40000

/-- The cycles that meet at a context: all nodes on a closed path through it, none where it is on no such path. -/
def State.cycleAt (s : State) (n : DNode) : List DNode :=
  let out := s.reach reachFuel [] (s.edges n)
  if out.contains n then out.filter (fun m => decide (m = n) || (s.reach reachFuel [] (s.edges m)).contains n) else []

/-- The first cycle found from the waiting contexts, the longest wait first (R190); cycles that share a node count as one, as in
the example of R192 (DEDUCED, log entry 62). -/
def State.cycle (s : State) : Option (List DNode) :=
  s.st.waitSeq.findSome? (fun w => match s.cycleAt (.ctx w.1 w.2) with | [] => none | l => some l)

/-! ### Breaking a cycle (R191, R192) -/

/-- The queues of a cycle. -/
def cycleQueues (cy : List DNode) : List Nat :=
  (cy.filterMap (fun n => match n with | .popQ q | .queue q => some q | _ => none)).dedup

/-- The contexts of a cycle, in the order their waits began. -/
def State.cycleCtxs (s : State) (cy : List DNode) : List (Nat × Ctx) :=
  s.st.waitSeq.filter (fun w => cy.contains (.ctx w.1 w.2))

/-- HQ_CFG.PRIO. -/
def State.prio (s : State) (q : Nat) : Nat := fld (s.reg (0x64008 + 0x10 * q)) 0 3

/-- Whether a queued handle is to a pool buffer and no copy of it is in progress. -/
def QEnt.poolHandle (e : QEnt) : Bool := !isPlaceholder e.handle && !hExternal e.handle && e.spilling.isNone

/-- The queue with the lowest PRIO, and among those the highest number (R191). -/
def State.lowestPrio (s : State) (qs : List Nat) : Option Nat :=
  qs.foldl (fun (a : Option Nat) q =>
    match a with
    | none => some q
    | some b => if s.prio q < s.prio b ∨ (s.prio q = s.prio b ∧ b < q) then some q else a) none

/-- Entry `i` of a queue changed by `f`. -/
def State.onEntry (s : State) (q i : Nat) (f : QEnt → QEnt) : State :=
  let x := s.queue q
  s.setQueue q { x with handles := (indexed 0 x.handles).map (fun e => if e.1 = i then f e.2 else e.2) }

/-- One list of a cycle aborted (R192): it ends as by a command error, with STREAM_FAULT in place of CMD_ERR (DEDUCED, log entry 62). -/
def State.abortOne (s : State) (cy : List DNode) (dq : Option Nat) (code : Nat) : State :=
  let cs := s.cycleCtxs cy
  let at_ (e : Nat → BitVec 16) : Option (Nat × Ctx) :=
    match dq with
    | some q =>
      match endpointCtx (e q) with
      | some (lc, c) => match (s.lc lc).pc with | some pc => if cs.contains (pc, c) then some (pc, c) else none | none => none
      | none => none
    | none => none
  let victim := match at_ (fun q => (s.queue q).consumer) with
    | some v => some v
    | none => match at_ (fun q => (s.queue q).producer) with
      | some v => some v
      | none => cs.getLast?
  match victim with
  | none => s
  | some (pc, c) =>
    let lc := ((s.core pc).ctx c).lc
    let s := { s with st := { s.st with abortCnt := satAdd s.st.abortCnt 1 max16 } }
    (s.streamFault code pc lc (dq.getD 0) 0).stopList pc c kFault 5

/-- The deciding queue of a cycle (R192 step 1). -/
def State.deciding (s : State) (cy : List DNode) : Option Nat :=
  let qs := cycleQueues cy
  match s.lowestPrio (qs.filter (fun q => (s.queue q).handles.any QEnt.poolHandle)) with
  | some q => some q
  | none => s.lowestPrio qs

/-- A spill of entry `i` of queue `q` begins: a free overflow slot, and the copy (R191 steps 1 and 2); none where no slot is
free (DESIGN CHOICE, log entry 8). -/
def State.spillStart (s : State) (q i : Nat) (h : Word) : Option State :=
  match (List.range s.ovfCount).find? (fun k => !s.st.ovfUsed.contains k) with
  | none => none
  | some k =>
    let b := hIndex h
    let s := s.onEntry q i (fun e => { e with spilling := some k })
    let s := { s with st := { s.st with ovfUsed := s.st.ovfUsed ++ [k] } }
    let bad := (s.st.pool.poison.filter (fun w => decide (128 * b ≤ w) && decide (w < 128 * b + 128))).map (fun w => w - 128 * b)
    some (s.newReq (.spill q k b) (s.chan s.ovfChan).port (some s.ovfChan) (s.extAddr (s.ovfFirst + k)) 64 true
      (s.st.pool.read (4096 * b) 4096) bad)

/-- Spills of the oldest pool handles of queue `q`, until `want` buffers of partition `p` come free or 16 are on their way;
answers whether a free overflow slot was missing (DEDUCED, log entry 62). -/
def State.spills (q : Nat) (p : Option Nat) : List (Nat × QEnt) → Nat → Nat → State → State × Bool
  | [], _, _, s => (s, false)
  | (i, e) :: es, want, left, s =>
    if want = 0 ∨ left = 0 then (s, false)
    else if !e.poolHandle then State.spills q p es want left s
    else
      match s.spillStart q i e.handle with
      | none => (s, true)
      | some s =>
        let helps := match p with | some p => decide (s.partOf (hIndex e.handle) = some p) | none => false
        State.spills q p es (if helps then want - 1 else want) (left - 1) s

/-- Whether a spill from a queue of the cycle is in progress. -/
def State.spilling (s : State) (cy : List DNode) : Bool :=
  (cycleQueues cy).any (fun q => (s.queue q).handles.any (fun e => e.spilling.isSome))

/-- A cycle detected (R190): its count and record, then spills or an abort (R191, R192) (DEDUCED, log entry 62). -/
def State.breakCycle (s : State) (cy : List DNode) : State :=
  let dq := s.deciding cy
  let alloc := (s.cycleCtxs cy).findSome? (fun w => (s.allocWait w.1 w.2).map (fun a => (w, a)))
  let s := { s with st := { s.st with dlCnt := satAdd s.st.dlCnt 1 max32 } }
  let (wq, wlc) := match alloc with
    | some (w, _, _, q) => (q, ((s.core w.1).ctx w.2).lc)
    | none => (0, 0)
  let s := s.evt 0x0072 0 [(0, 10, dq.getD 0), (10, 10, wq), (20, 4, wlc), (24, 4, min 15 cy.length)]
  match dq with
  | none => s.abortOne cy none 0x0508
  | some q =>
    if !(s.queue q).handles.any QEnt.poolHandle then s.abortOne cy dq 0x0508
    else
      let (p, want) := match alloc with
        | some (_, p, n, _) => (some p, n - (s.part p).free.length)
        | none => (none, 16)
      let (s, full) := State.spills q p (indexed 0 (s.queue q).handles) (if want = 0 then 16 else want) 16 s
      if full then s.abortOne cy dq 0x0507 else s

/-- Detection (R190): a cycle whose spills are under way is left to them, and spill copies hold during a quiesce (R282). -/
def State.detect (s : State) : State :=
  if (s.region 6).state ≠ .run then s
  else
    match s.cycle with
    | none => s
    | some cy =>
      let spills := match s.deciding cy with | some q => (s.queue q).handles.any QEnt.poolHandle | none => false
      if s.spilling cy || (spills && (s.mp.quiesce || s.mp.rstq)) then s else s.breakCycle cy

/-- A spill ends (R191 steps 3 and 4, R192): after the OK response the handle names the overflow slot and the pool buffer is
freed; a failed write leaves the handle unchanged, and one list of the cycle is aborted (DEDUCED, log entry 62). -/
def State.spillEnd (s : State) (q k : Nat) : State :=
  match (indexed 0 (s.queue q).handles).find? (fun e => decide (e.2.spilling = some k)) with
  | none => s
  | some (i, e) =>
    match s.mp.reqs.find? (fun r => match r.who with | .spill a b _ => decide (a = q ∧ b = k) | _ => false) with
    | some r =>
      if r.dead ∧ r.err.isSome then
        let s := (s.dropReq r.id).onEntry q i (fun e => { e with spilling := none })
        let s := { s with st := { s.st with ovfUsed := s.st.ovfUsed.filter (fun x => decide (x ≠ k)) } }
        match s.cycle with
        | some cy => s.abortOne cy (s.deciding cy) 0x0507
        | none => s
      else s
    | none =>
      let b := hIndex e.handle
      let x := 4096 + s.ovfFirst + k
      let side := (s.buffer b).side
      let h := mkHandle (s.ovfFirst + k) (s.buffer x).gen (hFill e.handle) (sideKinds side) true true
      let s := s.setBuffer x { s.buffer x with refs := 1, side := side }
      let s := s.onEntry q i (fun e => { e with spilling := none, handle := h })
      let s := s.dropRef b
      let s := { s with st := { s.st with spillCnt := satAdd s.st.spillCnt 1 max32 } }
      s.evt 0x0073 0 [(0, 16, 0x0506), (16, 10, q), (26, 12, b), (38, 12, k)]

/-! ### The rows -/

/-- SIN_FRAME (R182). -/
def execSinFrame (k : Nat) (f : SinFrame) (s : State) : Host.Outcome State Fault Refusal := .next (settle s (s.sinFrame k f))

/-- SOUT_FRAME (R183); ports 0 to 3 are SOUT0 to SOUT3. -/
def execSoutFrame (k : Nat) (s : State) : Host.Outcome State Fault Refusal := .next (settle s (s.soutFrame (k + 4)))

/-- SOUT_CREDIT (R183). -/
def execSoutCredit (k n : Nat) (s : State) : Host.Outcome State Fault Refusal := .next (settle s (s.soutCredit (k + 4) n))

/-- OUTBOUND_RING_COPY (R184). -/
def execOutboundRingCopy (r at_ : Nat) (s : State) : Host.Outcome State Fault Refusal :=
  let s := s.elapseTo at_
  .next (settle s (s.ringCopy r))

/-- BURST_FLUSH (R186). -/
def execBurstFlush (c : Nat) (s : State) : Host.Outcome State Fault Refusal := .next (settle s (s.burstFlush c))

/-- DEADLOCK_DETECT (R190). -/
def execDeadlockDetect (at_ : Nat) (s : State) : Host.Outcome State Fault Refusal :=
  let s := s.elapseTo at_
  .next (settle s s.detect)

/-- SPILL_COMPLETE (R191). -/
def execSpillComplete (q slot : Nat) (s : State) : Host.Outcome State Fault Refusal := .next (settle s (s.spillEnd q slot))

end Sys2Proof.Machine
end

