-- ==== Sys2Proof/Machine/Time.lean ====
section
/-! DEFINITION. Time (09): the interpolator (R241), the time port and the servo (R244 to R249), steps (R247, R250, R254), and
the event plane's writes to its rings (R257, R259 to R261). -/

namespace Sys2Proof.Machine

/-! ### Steps -/

/-- A time in units of 2^−16 ns as a signed 32-bit count of 62.5 ps, rounded down (DEDUCED, log entry 66); what a value outside
that range gives is not stated (log entry 7). -/
def err32 (e : Int) : Nat :=
  let v := e / 4096
  if -(2 ^ 31) ≤ v ∧ v < 2 ^ 31 then unsigned v 32 else Config.wideError e % 2 ^ 32

/-- y in ppb as a signed 32-bit number, rounded down (R246) (DEDUCED, log entry 66). -/
def TimeUnit.ppb (t : TimeUnit) : Nat := unsigned (t.servoY / 2 ^ 40) 32

/-! ### The air-interface numbers (R252) -/

/-- Slots per frame: frames of 10 ms, slots of one gong period. -/
def State.slotsPerFrame (s : State) : Nat := 10000000 / s.gong.period

/-- The number of the last gong's slot in its frame. -/
def State.slotInFrame (s : State) : Int := s.gong.lastN % (s.slotsPerFrame : Int)

/-- The system frame number of the last gong. -/
def State.frameNumber (s : State) : Int := s.gong.lastN / (s.slotsPerFrame : Int) % 1024

/-- TIME_LOCK (R267); y in whole ppb. -/
def State.lockRec (s : State) : State :=
  s.evt 0x0091 1 [(0, 1, b2n s.tu.locked), (1, 32, err32 s.tu.lastE), (33, 32, s.tu.ppb)]

/-- LOCKED clears (R248), with its record where it was set (DEDUCED, log entry 66). -/
def State.unlock (s : State) : State :=
  let was := s.tu.locked
  let s := { s with tu := { s.tu with locked := false, lockRun := 0 } }
  if was then s.lockRec else s

/-- The slot count of the last gong on the grid in force (R251): its presented time under the present period and alignment. -/
def State.lastSlot (s : State) : Int := ((s.gong.g : Int) - s.alignNs) / (s.gong.period : Int)

/-- The gong to come after a step to slot count `n` (R30, R254): at once where a forward step passes the last gong's slot.
Boundaries that a change of MODE passes over do not count as skipped (R15) (DEDUCED, log entry 65). -/
def State.afterStep (s : State) (n : Int) (wasInvalid : Bool) : State :=
  let last := s.lastSlot
  let atOnce := s.gong.running && !wasInvalid && decide (last < n)
  let from_ : Int := if s.gong.nextN ≤ last then last + 1 else min s.gong.nextN n
  { s with gong := { s.gong with nextN := if atOnce then from_ else n + 1 } }

/-- N of the next gong, as TIME_STEP gives it. -/
def State.nextN (s : State) (n : Int) : Int :=
  if s.gong.en ∧ s.gong.mode then s.gong.freeN else max n s.gong.nextN

/-- What the gong grid does at once after a step (R16, R30, R254): the gong of the new slot, the strokes now reached, and
the curfew of the new time (DEDUCED, log entry 65). -/
def State.meetGrid (s : State) : State :=
  let s := if !s.gong.mode && s.gongDue then s.gongSeq s.now else s.strokesDue
  if s.gong.inCurfew && !s.curfewDue then { s with gong := { s.gong with inCurfew := false } }
  else if s.curfewDue && !s.gong.inCurfew then s.curfewStart
  else s

/-- A step of presented time by `d`, in units of 2^−16 ns, with its code (R247) (DEDUCED, log entry 66). -/
def State.timeStep (s : State) (d : Int) (code : Nat) : State :=
  let wasInvalid := s.tu.invalid
  let s := { s with tu := { s.tu with
    offset := s.tu.offset + d, epoch := (s.tu.epoch + 1) % 256, stepCnt := satAdd s.tu.stepCnt 1 max32
    invalid := false, coarse := true } }
  let n := s.slotCount
  let s := s.afterStep n wasInvalid
  let s := s.evt 0x0090 1 [(0, 16, code), (16, 8, s.tu.epoch), (24, 64, unsigned (d / 4096) 64),
    (88, 24, unsigned (s.nextN n) 24)]
  let s := { s with ev := { s.ev with stepAt := some s.tu.ltc } }
  let s := s.unlock
  s.meetGrid

/-! ### The time port (R244 to R249) -/

/-- The CRC-8 of R88 over bytes. -/
def crcBytes (bs : List Byte) : Nat := bs.foldl (fun c b => crc8Bits 8 (c ^^^ b.toNat)) 0

/-- Whether a time-of-day word has 128 bits and its CHECK holds (R244, R382) (DEDUCED, log entry 67). -/
def Tod.ok (t : Tod) : Bool :=
  decide (t.bits = 128) && decide (crcBytes (leBytes 15 t.word.toNat) = fieldOf t.word.toNat 120 8)

/-- The time a word gives, in units of 2^−16 ns. -/
def Tod.time (t : Tod) : Int :=
  let w := t.word.toNat
  (((fieldOf w 0 48) * 10 ^ 9 + fieldOf w 48 32 : Nat) : Int) * 65536 + (fieldOf w 80 16 : Int)

/-- TP_CFG.DELAY in units of 2^−16 ns. -/
def State.pulseDelay (s : State) : Int := signed (fld (s.reg 0x10064) 0 16) 16 * 4096

/-- TIME_PORT (R267) (DEDUCED, log entry 83). -/
def State.portRec (s : State) (code : Nat) : State :=
  s.evt 0x0092 1 [(0, 16, code), (16, 8, fieldOf s.tu.tod.word.toNat 96 8), (24, 32, s.tu.ignored)]

/-- DET_TIME (R249). -/
def State.timeFault (s : State) (code : Nat) : State := s.report { mkReport 10 .time code with code := 0x0309 }

/-- A pulse that is not accepted (R245): counted (DEDUCED, log entry 83). -/
def State.ignorePulse (s : State) : State :=
  { s with tu := { s.tu with pulseMiss := satAdd s.tu.pulseMiss 1 max32, ignored := satAdd s.tu.ignored 1 max32 } }

/-- A value held between −Y and Y. -/
def clampTo (v y : Int) : Int := max (-y) (min y v)

/-- The servo update of R246 with the lock of R248; `e` in units of 2^−16 ns, I and y in units of 2^−40 ppb (DEDUCED, log entry 66). -/
def State.servo (s : State) (e : Int) : State :=
  let y : Int := (clampRange (fld (s.reg 0x1005C) 0 8) 1 200 * 1000 : Nat) * 2 ^ 40
  let i := clampTo (s.tu.servoI + (s.reg 0x10054).toNat * e) y
  let v := clampTo ((s.reg 0x10050).toNat * e + i) y
  let sat := decide (v = y ∨ v = -y)
  let lockNs : Int := fld (s.reg 0x10060) 0 16 * 65536
  let run := if (e.natAbs : Int) < lockNs then s.tu.lockRun + 1 else 0
  let s := s.setRate (servoRate s.rateNom v)
  let s := { s with tu := { s.tu with
    servoI := i, servoY := v, ratePend := false, lastE := e, slewSat := sat
    satRun := if sat then s.tu.satRun + 1 else 0, lockRun := run } }
  let s := if sat ∧ s.tu.satRun = 16 then (s.portRec 0x0606).timeFault 0x0606 else s
  if !s.tu.locked && decide (clampRange (fld (s.reg 0x10060) 16 4) 1 15 ≤ run) then
    { s with tu := { s.tu with locked := true, coarse := false } }.lockRec
  else if s.tu.locked ∧ 4 * lockNs ≤ (e.natAbs : Int) then s.unlock
  else s

/-- A pulse edge (R245). -/
def State.pulse (s : State) : State :=
  let t := s.tu.tod
  let used (s : State) : State := { s with tu := { s.tu with tod := { s.tu.tod with fresh := false } } }
  if !t.fresh then s.ignorePulse.portRec 0x0605
  else if !t.ok then (used s).ignorePulse.portRec 0x0604
  else if !t.word.getLsbD 104 then (used s).ignorePulse
  else
    let e := t.time - (s.now - s.pulseDelay)
    let s := used { s with tu := { s.tu with ignored := 0, lastPulse := some s.tu.ltc } }
    let stepNs : Int := clampLo (fld (s.reg 0x10058) 0 24) 100
    if s.tu.invalid ∨ stepNs * 65536 ≤ (e.natAbs : Int) then
      let big := decide ((fld (s.reg 0x1006C) 0 20 : Int) * 65536000 < (e.natAbs : Int))
      let s := { s with tu := { s.tu with lastE := e } }
      let s := if big then s.timeFault 0x0602 else s
      s.timeStep e (if big then 0x0602 else 0x0601)
    else s.servo e

/-- No pulse was accepted within TIMEOUT_MS of the last accepted one (R248, R249) (DEDUCED, log entry 66). -/
def State.pulseLate (s : State) : State :=
  match s.tu.lastPulse with
  | none => s
  | some p =>
    if !s.tuRuns || decide (s.tu.ltc < p + s.ticksOf (10 ^ 6 * fld (s.reg 0x10064) 20 12)) then s
    else
      let was := s.tu.locked
      let s := { s with tu := { s.tu with lastPulse := none, pulseMiss := satAdd s.tu.pulseMiss 1 max32 } }
      let s := if was then (s.portRec 0x0603).timeFault 0x0603 else s
      s.unlock

/-- SET_CTRL.GO (R250): a step at the next reference tick, or none where SET_NS is too large (DESIGN CHOICE, log entry 69). -/
def State.setGo (s : State) : State :=
  if 999999999 < fld (s.reg 0x10048) 0 30 then s
  else
    let s := s.elapse 1
    let sec := (s.reg 0x10040).toNat + 2 ^ 32 * fld (s.reg 0x10044) 0 16
    let t : Int := ((sec * 10 ^ 9 + fld (s.reg 0x10048) 0 30 : Nat) : Int) * 65536
    s.timeStep (t - s.now) 0x0607

/-- RATE_NOM written (R250): it waits for the next pulse update, or the next reference tick while the time port is off. -/
def State.rateNomSet (s : State) : State := { s with tu := { s.tu with ratePend := true } }

/-! ### Event rings (R259 to R261) -/

/-- Whether record `a` orders before record `b` by stamp (R256). -/
def EvRec.before (a b : EvRec) : Bool :=
  let d := signed ((a.epoch + 256 - b.epoch) % 256) 8
  decide (d < 0) || (decide (d = 0) && decide (signed ((a.time - b.time).toNat) 56 < 0))

/-- The place in the buffer of the record of ring `r` with the oldest stamp. -/
def State.oldestFor (s : State) (r : Nat) : Option (Nat × EvRec) :=
  (indexed 0 s.ev.buf).foldl (fun (a : Option (Nat × EvRec)) e =>
    if s.ringOfClass e.2.cls ≠ r then a
    else match a with
      | none => some e
      | some b => if e.2.before b.2 then some e else a) none

/-- Slots of a ring, and those free (R260, R261). -/
def State.ringSize (s : State) (r : Nat) : Nat := 2 ^ clampRange (fld (s.reg (ringBase r + 8)) 0 5) 6 16
def State.ringFree (s : State) (r : Nat) : Nat :=
  s.ringSize r - ((s.evRing r).prod + 2 ^ 32 - (s.evRing r).cons) % 2 ^ 32

/-- Whether the event plane writes to ring `r`. -/
def State.ringLive (s : State) (r : Nat) : Bool :=
  decide (r < 8) && bit (s.reg 0x70248) 0 && bit (s.reg (ringBase r + 8)) 31 && !(s.evRing r).off
    && decide ((s.region 7).state = .run) && !s.mp.quiesce && !s.mp.rstq

/-- EVT_LOST of every source that lost records, once space returns, as far as the places kept for them reach (R259) (DEDUCED, log
entry 68) (DEDUCED, log entry 68). -/
def State.lostRecs (s : State) : State :=
  if s.ev.buf.length < evCapacity then
    s.ev.lost.foldl (fun s e =>
      if 8192 ≤ s.ev.buf.length then s
      else
        let s := { s with ev := { s.ev with lost := SMap.set s.ev.lost 0 e.1 0 } }
        s.emitCap 8192 0x0094 7 0 (payload [(0, 16, 0x0609), (16, 16, e.1 + 1024 * s.par.instId.toNat), (32, 16, min 65535 e.2),
          (48, 3, s.ringOfClass (e.1 / 32))])) s
  else s

/-- SOURCE of a record: unit, class and INST_ID (R257, R391). -/
def EvRec.source (e : EvRec) : Nat := e.unit % 32 + 32 * (e.cls % 32) + 1024 * e.inst.toNat

/-- The order in which the streams of different blocks merge: stamp bits [55:0], then source (R394). -/
def EvRec.mergesBefore (a b : EvRec) : Bool :=
  let d := signed ((a.time - b.time).toNat) 56
  decide (d < 0) || (decide (d = 0) && decide (a.source < b.source))

/-- The order of the records of one block: stamp, source, sequence (R261). -/
def EvRec.sortsBefore (a b : EvRec) : Bool :=
  a.before b || (!b.before a && (decide (a.source < b.source) || (decide (a.source = b.source) && decide (a.seq < b.seq))))

/-- The 32 bytes of a record (R257). -/
def EvRec.bytes (e : EvRec) : List Byte :=
  leBytes 7 e.time.toNat ++ leBytes 1 e.epoch ++ leBytes 4 e.gsn.toNat
    ++ leBytes 2 e.source ++ leBytes 2 e.kind ++ leBytes 2 e.seq
    ++ leBytes 14 e.payload.toNat

/-- BASE of an event ring, and the address of slot `i` behind its header of 64 bytes (R260). -/
def State.evBase (s : State) (r : Nat) : Nat := (s.reg (ringBase r)).toNat + 2 ^ 32 * fld (s.reg (ringBase r + 4)) 0 25
def State.evSlot (s : State) (r i : Nat) : Nat := s.evBase r + 64 + 32 * (i % s.ringSize r)

/-- Whether the stamp (e, t) orders before the stamp (f, u) (R256). -/
def stampBefore (e : Nat) (t : BitVec 56) (f : Nat) (u : BitVec 56) : Bool :=
  let d := signed ((e + 256 - f) % 256) 8
  decide (d < 0) || (decide (d = 0) && decide (signed ((t - u).toNat) 56 < 0))

/-- The watermark of a ring written (R261); it stays for 4 µs after a step. -/
def State.watermark (s : State) (r : Nat) : State :=
  let held := match s.ev.stepAt with
    | some p => decide (s.tu.ltc < p + s.ticksOf 4000)
    | none => false
  if held then s
  else
    let t := s.stampTime - 64000
    let (e, t) := match s.oldestFor r with
      | some (_, o) => if stampBefore o.epoch o.time s.tu.epoch t then (o.epoch, o.time) else (s.tu.epoch, t)
      | none => (s.tu.epoch, t)
    s.setEvRing r { s.evRing r with wmEpoch := e, wmTime := t }

/-- A field of the header of an event ring written (R260). -/
def State.evHead (s : State) (r o n v : Nat) : State :=
  s.newReqAt (.evHead r) 7 none (s.evBase r) 1 true (padTo 64 0 (List.replicate o 0 ++ leBytes n v)) [] o (o + n)

/-- The watermark of a ring and its count of dropped records, written to its header (R260, R261) (DEDUCED, log entry 68). -/
def State.writeMark (s : State) (r : Nat) : State :=
  let s := s.watermark r
  let x := s.evRing r
  (s.evHead r 16 8 (x.wmTime.toNat + 2 ^ 56 * x.wmEpoch)).evHead r 24 4 x.drops

/-- The `k` oldest records of a ring, oldest first, taken from a buffer's list. -/
def State.oldestOf (s : State) (r : Nat) : Nat → List EvRec
  | 0 => []
  | k + 1 =>
    match s.oldestFor r with
    | none => []
    | some (i, e) => e :: State.oldestOf { s with ev := { s.ev with buf := s.ev.buf.eraseIdx i } } r k

/-- Up to `n` of the oldest records of a ring written to its free slots in one burst, within a page of 4 KB and up to the end of
the ring; none while an earlier burst of the ring is under way (R260, R261, R270) (DEDUCED, log entry 68). -/
def State.evWrite (s : State) (r n : Nat) : State :=
  if !s.ringLive r || !(s.evRing r).sent.isEmpty then s
  else
    let x := s.evRing r
    let a := s.evSlot r x.prod
    let k := min (min n (s.ringFree r)) (min ((4096 - a % 4096) / 32) (s.ringSize r - x.prod % s.ringSize r))
    let es := s.oldestOf r k
    if es.isEmpty then s
    else
      let s := s.setEvRing r { x with sent := es }
      let lo := a % 64
      let hi := lo + 32 * es.length
      let beats := ceilDiv hi 64
      s.newReqAt (.evRing r) 7 none (a / 64 * 64) beats true
        (padTo (64 * beats) 0 (List.replicate lo 0 ++ es.flatMap (fun e => e.bytes))) [] lo hi

/-- A burst of records has its OK response (R260): they leave the buffer, the producer index is written, then the watermark. -/
def State.evWrote (s : State) (r : Nat) : State :=
  let x := s.evRing r
  let s := s.setEvRing r { x with prod := (x.prod + x.sent.length) % 2 ^ 32, sent := [] }
  let s := { s with ev := { s.ev with buf := x.sent.foldl (fun b e => b.erase e) s.ev.buf } }
  (s.evHead r 0 4 (s.evRing r).prod).writeMark r

/-- Bursts of records that have ended without the OK response have left no record in `sent`; the places they leave let EVT_LOST
records be made (R259). -/
def State.eventsGo (s : State) : State := if (s.region 7).state = .run then s.lostRecs else s

/-- A ring that comes into use with a BASE that is not aligned is disabled, with its record (R261). -/
def State.ringAlign (s : State) (r : Nat) : State :=
  let bad := bit (s.reg (ringBase r + 8)) 31 && decide (fld (s.reg (ringBase r)) 0 6 ≠ 0)
  let was := (s.evRing r).off
  let s := s.setEvRing r { s.evRing r with off := bad }
  if bad && !was then s.emitCap 8192 0x0094 7 0 (payload [(0, 16, 0x060A), (48, 3, r)]) else s

/-! ### The rows -/

/-- INTERP_CALIBRATE (R241): in RUN a complete run of 1,024 ticks since the PLL locked, or since the last run, gives k. -/
def execInterpCalibrate (k at_ : Nat) (s : State) : Host.Outcome State Fault Refusal :=
  let s := s.elapseTo at_
  .next (settle s (if (s.region 7).state = .run ∧ s.tu.pllFrom + 1024 ≤ s.tu.ltc then
    { s with tu := { s.tu with pllK := some k, pllFrom := s.tu.ltc } } else s))

/-- TOD_WORD (R244, R382) (DEDUCED, log entry 67). -/
def execTodWord (w : BitVec 128) (bits : Nat) (s : State) : Host.Outcome State Fault Refusal :=
  .next (settle s { s with tu := { s.tu with tod :=
    if bits = 128 then { word := w, bits := bits, fresh := true } else { s.tu.tod with bits := bits, fresh := true } } })

/-- TIME_PULSE (R245); `c` counts the PLL cycles since the last edge of CLK_REF. -/
def execTimePulse (c at_ : Nat) (s : State) : Host.Outcome State Fault Refusal :=
  let s' := s.elapseTo at_
  -- in one tick the count of cycles never falls
  let s := { s' with tu := { s'.tu with pllC := if s'.tu.ltc = s.tu.ltc then max s.tu.pllC c else c } }
  -- a word applies to the first pulse after its last bit, measured or not (R244)
  .next (settle s (if s.tuRuns && bit (s.reg 0x10064) 16 then s.pulse
    else { s with tu := { s.tu with tod := { s.tu.tod with fresh := false } } }))

/-- PULSE_TIMEOUT (R248). -/
def execPulseTimeout (at_ : Nat) (s : State) : Host.Outcome State Fault Refusal :=
  let s := s.elapseTo at_
  .next (settle s s.pulseLate)

/-- EVENT_RING_WRITE (R260). -/
def execEventRingWrite (r n at_ : Nat) (s : State) : Host.Outcome State Fault Refusal :=
  let s := s.elapseTo at_
  .next (settle s (s.evWrite r n))

/-- RING_CONSUMER_POLL (R260): every 10 µs, and whenever the ring holds no free slot; the event plane has no read tags (R274), so
the index it reads comes with the row (DEDUCED, log entry 68). -/
def execRingConsumerPoll (r : Nat) (index : Word) (at_ : Nat) (s : State) : Host.Outcome State Fault Refusal :=
  let s := s.elapseTo at_
  let due := decide (s.ringFree r = 0) || decide ((s.evRing r).polled + s.ticksOf 10000 ≤ s.tu.ltc)
  .next (settle s (if s.ringLive r && due then
    s.setEvRing r { s.evRing r with cons := index.toNat, polled := s.tu.ltc } else s))

/-- WATERMARK_WRITE (R261). -/
def execWatermarkWrite (r at_ : Nat) (s : State) : Host.Outcome State Fault Refusal :=
  let s := s.elapseTo at_
  .next (settle s (if s.ringLive r then s.writeMark r else s))

end Sys2Proof.Machine
end

