-- ==== Sys2Proof/Machine/Admit.lean ====
section
/-! DEFINITION. Power (11, 14): what a region keeps in each state (R300), the wake sequence (R309, R310), the wake sources
(R305 to R308), block OFF (R299), the rail (R314, R380), neighbour samples (R315, R316), admission (R317 to R320) and the
clock of AON (R262, R378). -/

namespace Sys2Proof.Machine

/-! ### What a region keeps (R300) -/

/-- Registers of a list of address ranges return to their reset values. -/
def State.forget (s : State) (ranges : List (Nat × Nat)) : State :=
  { s with regs := s.regs.filter (fun e => !ranges.any (fun r => decide (r.1 ≤ e.1) && decide (e.1 < r.2))) }

/-- Registers of zeros with kind MISSING (R62). -/
def missingTiles (part : Bool) : SMap Tile :=
  (List.range (regCount part)).map (fun r => (r, { Tile.reset with kinds := kMissing }))

/-- A core whose region fell to DEEP or OFF (R62, R300): registers of zeros with kind MISSING, its partition as the map has
it; CVT_LFSR as given; what the SM holds of it stays.  Lists that were released in the entry window have not started; they
start after the wake (R30) (DEDUCED, log entry 70). -/
def Core.dark (k : Core) (part : Bool) (lfsr : BitVec 32) : Core :=
  { Core.reset with
    inc := k.inc, held := k.held, lfsr := lfsr, part := part, nextId := k.nextId, wdogMiss := k.wdogMiss
    fg := { Context.reset with list := k.fg.list, queue := k.fg.queue }
    bg := { Context.reset with list := k.bg.list, queue := k.bg.queue }
    tiles := missingTiles part }

/-- A core after a wake from DEEP or OFF: the partition taken again from the map in force, whatever change was pending, with
every register of it MISSING (R62). -/
def Core.awake (k : Core) (part : Bool) : Core :=
  { k with part := part, partPend := none, partMap := false, drain := 0, tiles := missingTiles part }

/-- The cores of region `g`. -/
def State.coresOf (s : State) (g : Nat) : List Nat := ((List.range 3).map (fun k => 3 * g + k)).filter (fun pc => s.hasCore pc)

/-- PART of a physical core in the map in force (R61) (DEDUCED, log entry 70). -/
def State.partInMap (s : State) (pc : Nat) : Bool :=
  match s.lcOf pc with
  | some lc => s.mapPart lc
  | none => false

/-- A core region in DEEP, or in OFF where `off` (DEDUCED, log entry 70). -/
def State.coresDark (s : State) (g : Nat) (off : Bool) : State :=
  (s.coresOf g).foldl (fun s pc =>
    let k := s.core pc
    let s := s.setCore pc (k.dark (s.partInMap pc) (if off then 1 else k.lfsr))
    s.forget [(0x100000 + 0x10000 * pc, 0x110000 + 0x10000 * pc)]) s

/-- The spine in DEEP: pair TLBs and CH_RTT are lost. -/
def State.spineDeep (s : State) : State :=
  { s with
    mp := { s.mp with tlbs := [] }
    st := { s.st with chans := s.st.chans.map (fun e => (e.1, { e.2 with rttAvg := 0, rttMax := 0 })) } }

/-- The spine in OFF loses everything it holds. -/
def State.spineOff (s : State) : State :=
  let s := s.forget [(0x50000, 0x50600), (0x60000, 0x70000), (0x810000, 0x820000)]
  { s with
    st := Streams.reset, so := [], routes := Routes.reset
    lcs := s.lcs.map (fun e => (e.1, { e.2 with hist := [], roles := 0, swaps := [] }))
    mp := { s.mp with tlbs := [], tlbMiss := [], xlateFault := 0
                      ports := s.mp.ports.map (fun e => (e.1, { MPort.reset with late := e.2.late })) }
    sm := { s.sm with badWords := s.sm.badWords.filter (fun e => decide (e.1 = 12)) }
    cfg := { s.cfg with pairPart := [], pairQueue := [], pairPeal := [] } }

/-- The control region in OFF loses everything it holds; what lies in AON stays (R299, R343, R355, R358), and what the power
controller knows of the committed image stays until the region comes back (DEDUCED, log entry 70). -/
def State.controlOff (s : State) : State :=
  let s := s.forget [(0x10000, 0x20000), (0x30000, 0x50000), (0x50600, 0x50620), (0x70000, 0x80000), (0x80008, 0x80024), (0x80028, 0x90000)]
  { s with
    tu := { TimeUnit.reset with
      ltc := s.tu.ltc, rem := s.tu.rem, onSlow := s.tu.onSlow, slowTicks := s.tu.slowTicks, slowRem := s.tu.slowRem
      offset := s.tu.offset, rate := s.tu.rate, epoch := s.tu.epoch, invalid := s.tu.invalid, coarse := s.tu.coarse
      ledgerHead := s.tu.ledgerHead, ledger := s.tu.ledger, saved := s.tu.saved }
    gong := { Gong.reset with gsn := s.gong.gsn }
    lcs := s.lcs.map (fun e => (e.1, { LogCore.reset with hist := e.2.hist, roles := e.2.roles }))
    seqMem := [], cfg := { CfgUnit.reset with active := s.cfg.active, activeValid := s.cfg.activeValid }
    mp := { s.mp with cmMiss := 0, cmOff := 0, cmOrphan := 0, cmGhost := 0, cmLastAddr := 0, cmLastMst := 0, cmLastCode := 0,
                      missAt := [] }
    sm := { Safety.reset with fenced := s.sm.fenced, incs := s.sm.incs }
    boot := { Boot.reset with
      state := s.boot.state, ready := s.boot.ready, pend := s.boot.pend
      fsc := s.boot.fsc, fscInv := s.boot.fscInv, addrValid := s.boot.addrValid, hist := s.boot.hist, starts := s.boot.starts }
    ev := Events.reset }

/-! ### The sleep ledger (R263) -/

/-- The control region falls to SLEEP or DEEP: the ledger entry that its exit will complete (DEDUCED, log entry 76). -/
def State.ledgerOpen (s : State) (st : RgnState) : State :=
  let i := (s.tu.ledgerHead + 1) % 16
  let e : Ledger := { entry := s.tu.ltc, exit := 0, slow := 0, state := st.code, slowclk := false, valid := false }
  { s with tu := { s.tu with ledger := SMap.set s.tu.ledger Ledger.reset i e } }

/-- The exit of the control region from SLEEP or DEEP: the ledger entry and SLEEP_LEDGER (DEDUCED, log entry 76). -/
def State.ledgerClose (s : State) : State :=
  let i := (s.tu.ledgerHead + 1) % 16
  let e := { SMap.get s.tu.ledger Ledger.reset i with exit := s.tu.ltc, valid := true }
  let s := { s with tu := { s.tu with ledgerHead := i, ledger := SMap.set s.tu.ledger Ledger.reset i e } }
  s.evt 0x0093 0 [(0, 4, i), (4, 3, e.state), (7, 1, b2n e.slowclk), (8, 64, e.exit)]

/-! ### Entries -/

/-- The TU writes every region's compare before the control region falls (R302). -/
def State.writeCompares (s : State) : State :=
  (List.range 8).foldl (fun s g => if s.hasRegion g then s.onRegion g (fun r => { r with wakeAt := s.compareFor g }) else s) s

/-- What a state costs a region once it is reached (R300) (DEDUCED, log entry 70). -/
def State.lose (s : State) (g : Nat) (st : RgnState) : State :=
  let s := if g = 7 ∧ st ≠ .idle then { s with tu := { s.tu with pllK := none } } else s
  match st with
  | .deep =>
    let s := if g = 7 then s.ledgerOpen st else s
    if g < 6 then s.coresDark g false else if g = 6 then s.spineDeep else s
  | .sleep => if g = 7 then s.ledgerOpen st else s
  | .off => if g < 6 then s.coresDark g true else if g = 6 then s.spineOff else if g = 7 then s.controlOff else s
  | _ => s

/-- Sources whose wake sets the wake-hold vote (R306). -/
def holdsWake (srcs : Nat) : Bool := srcs.testBit 0 || srcs.testBit 1

/-- A region reaches the state it was entering (R298, R303); level sources that came in the entry window wake it (R307)
(DESIGN CHOICE, log entry 69). -/
def State.entryDone (s : State) (g : Nat) : State :=
  match (s.region g).entering with
  | none => s
  | some st =>
    let s := s.elapseTo ((s.region g).since + s.entryTicks st)
    let dur := s.tu.ltc - (s.region g).since
    let s := if g = 7 ∧ st ≠ .idle then s.writeCompares else s
    let srcs := (s.region g).pendWake
    let s := s.onRegion g (fun r => { r with state := st, entering := none, pendWake := 0, since := s.tu.ltc })
    let s := (s.pwrState 0 g 0 st.code dur).lose g st
    if srcs = 0 then s
    else
      let (s, b) := s.wakeRegion g 1 true
      let s := if holdsWake srcs then { s with pwr := { s.pwr with wakeHold := true } } else s
      s.recordWake srcs (if b then [g] else [])

/-! ### The wake sequence (R309, R310) -/

/-- The spine or the control region comes back from OFF: no image is active (R300), and a staged or failed one is gone (R236)
(DEDUCED, log entry 84). -/
def State.backFromOff (s : State) (g : Nat) : State :=
  if g = 6 then
    let s := { s with cfg := { s.cfg with activeValid := false } }
    match s.cfg.state with
    | .staged | .armed => s.discardStaged
    | .failed => { s with cfg := { s.cfg with state := .empty } }
    | .empty | .loading | .verify | .writing => s
  else if g = 7 then { s with cfg := { s.cfg with active := none, activeValid := false } }
  else s

/-- The region of the memory that a key of `ceCnt` names (R329). -/
def keyRegion (k : Nat) : Nat :=
  match k % 16 with
  | 0 | 1 | 2 => regionOfCore (k / 16)
  | 5 => 8
  | 3 | 4 | 6 | 7 | 8 => 6
  | _ => 7

/-- A region's first scrub round after a wake starts at once (R327): its correctable errors count afresh. -/
def State.scrubAnew (s : State) (g : Nat) : State :=
  { s with sm := { s.sm with ceCnt := s.sm.ceCnt.filter (fun e => decide (keyRegion e.1 ≠ g)) } }

/-- A region reaches RUN: the record, the ledger of the control region, and a choice where no vote is held (R303) (DEDUCED, log entry 84). -/
def State.reachRun (s : State) (g : Nat) : State :=
  let r := s.region g
  let s := s.setRegion g { r with state := .run, step := 0, tries := 0, wakeAt := none }
  let s := s.pwrState 0 g r.from_.code 0 (s.tu.ltc - r.since)
  let s := if g = 7 ∧ (r.from_ = .sleep ∨ r.from_ = .deep) then s.ledgerClose else s
  -- the PLL has locked again (R241)
  let s := if g = 7 ∧ r.from_ ≠ .idle then { s with tu := { s.tu with pllFrom := s.tu.ltc } } else s
  let s := if r.from_ = .off then s.backFromOff g else s
  let s := if r.from_ = .idle then s else s.scrubAnew g
  let s := if g < 6 ∧ (r.from_ = .deep ∨ r.from_ = .off) then
      (s.coresOf g).foldl (fun s pc => s.onCore pc (fun k => k.awake (s.partInMap pc))) s
    else s
  let s := if g = 6 then s.pump.prefetch else s
  s.fall g

/-- The ready signal of the present wake step rises (R309): step 1 waits for an outstanding rail request (R314), AON on
SLOWCLK holds every step (R378), and a core region reaches RUN after the spine and the control region (R301) (DEDUCED, log entry 71). -/
def State.stepReady (s : State) (g : Nat) : State :=
  let r := s.region g
  if r.state ≠ .waking ∨ s.pwr.refAck then s
  else if r.step = 1 ∧ s.pwr.srpBusy then s
  else
    let n := nextStep r.from_ r.step
    if n < 5 then s.setRegion g { r with step := n, tries := 0 }
    else if g < 6 ∧ ((s.region 6).state ≠ .run ∨ (s.region 7).state ≠ .run) then s
    else s.reachRun g

/-- The detector that a failed wake step reports to (R310). -/
def stepDetector : Nat → Nat
  | 1 => 7 | 3 => 1 | _ => 6

/-- A wake step times out (R310). -/
def State.stepTimeout (s : State) (g : Nat) : State :=
  let r := s.region g
  if r.state ≠ .waking ∨ s.pwr.refAck then s
  else if r.tries = 0 then s.setRegion g { r with tries := 1 }
  else
    let s := s.setRegion g { r with state := .failed }
    let s := s.evt 0x00B2 0 [(0, 16, 0x0701), (16, 4, g), (20, 3, r.step)]
    s.report (mkReport (stepDetector r.step) (.region g) g)

/-! ### Wake sources (R305, R306) -/

/-- AON asks for CLK_REF (R378). -/
def State.askRef (s : State) : State :=
  if s.pwr.refAck && !s.pwr.refReq then { s with pwr := { s.pwr with refReq := true, refReqAt := s.tu.slowTicks } } else s

/-- A wake by the pin or the WSP outside block OFF (R305, R306). -/
def State.outerWake (s : State) (src : Nat) (level : Bool) : State :=
  let r := [7, 6].foldl (fun (a : State × List Nat) g =>
    let (s, b) := a.1.wakeRegion g src level
    (s, if b then a.2 ++ [g] else a.2)) (s, [])
  let s := r.1.recordWake (2 ^ (src - 1) ||| s.compareSources r.2) r.2
  if r.2.isEmpty then s else { s with pwr := { s.pwr with wakeHold := true } }.askRef

/-- All state lost (R284, R299, R358): what stays is the level of the input pins, and the model's own fields. -/
def State.lost (s : State) : State :=
  let t := State.resetWith s.par
  { t with
    mp := { t.mp with quiesce := s.mp.quiesce }, pwr := { t.pwr with throttled := s.pwr.throttled }
    pins := { t.pins with refSel := s.pins.refSel }, freeCnt := s.freeCnt, pending := s.pending }

/-- The block just before a cold start after a wake from block OFF (R299, R358): all state is lost but the wake logic's
(DEDUCED, log entry 71). -/
def State.fromBlockOff (s : State) (src : Nat) : State :=
  let t := s.lost
  let all := (List.range 8).filter (fun g => t.hasRegion g)
  let t := { t with regs := s.regs.filter (fun e => decide (e.1 = 0x20014)) }
  let t := all.foldl (fun t g => t.onRegion g (fun r => { r with state := .waking, from_ := .off, step := 1, since := 0 })) t
  let t := { t with pwr := { t.pwr with wakeHold := true } }
  t.recordWake (2 ^ (src - 1)) (all ++ [8])

/-- The wake pin acts, or a WSP frame matches (R305, R381) (DEDUCED, log entry 71). -/
def State.pinWake (s : State) (src : Nat) (level : Bool) : State :=
  if s.pwr.blockOff then s.fromBlockOff src else s.outerWake src level

/-- The parity of a byte. -/
def oddByte (a : BitVec 8) : Bool := decide (((List.range 8).filter (fun i => a.getLsbD i)).length % 2 = 1)

/-- An AON compare (R302, R305): the programmed one, or the TU's for a region (DEDUCED, log entry 71). -/
def State.compareWake (s : State) (c : Compare) : State :=
  let s' := match c with
    | .programmed =>
      s.wake 3 true ((List.range 8).filter (fun g => s.programmedDue g))
    | .tu g => if s.compareDue g then s.wake 4 true [g] else s
  if (List.range 8).any (fun g => decide ((s'.region g).state = .waking) && decide ((s.region g).state ≠ .waking)) then s'.askRef
  else s'

/-! ### Votes, wake hold, block OFF -/

/-- RGN_VOTE_SET and RGN_VOTE_CLR (R301). -/
def State.voteSet (s : State) (g : Nat) (v : BitVec 16) : State := s.onRegion g (fun r => { r with driver := r.driver ||| v })
def State.voteClr (s : State) (g : Nat) (v : BitVec 16) : State := s.onRegion g (fun r => { r with driver := r.driver &&& ~~~v })

/-- LAST_WAKE.ACK (R306). -/
def State.wakeAck (s : State) : State := { s with pwr := { s.pwr with wakeHold := false } }

/-- PWR_CTRL.BLOCK_OFF (R299): every region in OFF, or a refusal with its record. -/
def State.goOff (s : State) : State :=
  match ((List.range 8).filter (fun g => s.hasRegion g)).find? (fun g => decide ((s.region g).state ≠ .off)) with
  | some g => s.evt 0x00B2 0 [(0, 16, 0x0706), (16, 4, g)]
  | none =>
    let t := s.lost
    let t := { t with
      regs := s.regs.filter (fun e => decide (e.1 = 0x20014))
      pwr := { t.pwr with blockOff := true, refReq := false }, pins := { t.pins with blkOff := true } }
    ((List.range 8).filter (fun g => t.hasRegion g)).foldl (fun t g => t.onRegion g (fun r => { r with state := .off })) t

/-! ### The rail (R314, R380) -/

/-- SRP (R324). -/
def State.srpRec (s : State) (code mv : Nat) : State :=
  s.evt 0x00B3 0 [(0, 16, code), (16, 10, mv), (26, 10, s.pwr.railMv)]

/-- Whether every core region not in DEEP or OFF allows a rail voltage (R314) (DEDUCED, log entry 72). -/
def State.railOk (s : State) (mv : Nat) : Bool :=
  (List.range s.par.ncg).all (fun g =>
    let r := s.region g
    decide (r.state = .deep ∨ r.state = .off) || (decide (r.mv ≤ mv) && decide (mv ≤ r.mv + 120)))

/-- RAIL_REQ.GO (R314, R379, R380) (DEDUCED, log entry 72). -/
def State.railGo (s : State) (mv : Nat) : State :=
  if s.pwr.srpBusy then s
  else if !s.par.srpEn || decide (mv < 600) || decide (800 < mv) || decide (mv % 5 ≠ 0) || !s.railOk mv then s.srpRec 0x0707 mv
  else
    { s with
      pwr := { s.pwr with srpBusy := true, srpMv := mv, srpSent := 1, srpAt := s.tu.ltc }
      pins := { s.pins with srpTx := some (BitVec.ofNat 8 (mv / 5)) } }

/-- The request ends. -/
def State.srpEnd (s : State) : State :=
  { s with pwr := { s.pwr with srpBusy := false, srpSent := 0 }, pins := { s.pins with srpTx := none } }

/-- An answer on the SRP (R314, R380): any but ACCEPT and REFUSE with good parity is no answer. -/
def State.srpAnswer (s : State) (body : BitVec 2) (parityOk : Bool) : State :=
  if !s.pwr.srpBusy || !parityOk then s
  else if body = 1 then
    let s := { s with pwr := { s.pwr with railMv := s.pwr.srpMv } }
    (s.srpRec 0 s.pwr.srpMv).srpEnd
  else if body = 2 then (s.srpRec 0x0702 s.pwr.srpMv).srpEnd
  else s

/-- 200 µs without an answer (R314). -/
def State.srpLate (s : State) : State :=
  if !s.pwr.srpBusy || decide (s.tu.ltc < s.pwr.srpAt + s.ticksOf 200000) then s
  else if s.pwr.srpSent < 2 then { s with pwr := { s.pwr with srpSent := 2, srpAt := s.tu.ltc } }
  else
    let s := { s with pwr := { s.pwr with srpFail := true, srpTmo := min 255 (s.pwr.srpTmo + 1) } }
    ((s.srpRec 0x0703 s.pwr.srpMv).srpEnd).report (mkReport 7 .srp 0)

/-! ### Neighbour samples (R315, R316) -/

/-- The clock and voltage of a region as its neighbours see them: the spine takes the rail (DEDUCED, log entry 49)
(DEDUCED, log entry 73). -/
def State.mhzOf (s : State) (g : Nat) : Nat := if g < 6 then (s.region g).mhz else s.pwr.spineMhz
def State.mvOf (s : State) (g : Nat) : Nat := if g < 6 then (s.region g).mv else s.pwr.railMv

/-- Whether two neighbours lie beyond a limit of R315; temperatures in units of 0.25 °C (DEDUCED, log entry 73). -/
def State.beyond (s : State) (a b : Nat) : Bool :=
  let up (g : Nat) : Bool := decide ((s.region g).state = .run ∨ (s.region g).state = .idle)
  up a && up b &&
    (!ratioOk (s.mhzOf a) (s.mhzOf b) || decide (120 < ((s.mvOf a : Int) - s.mvOf b).natAbs)
      || decide (80 < ((s.region a).temp - (s.region b).temp).natAbs))

/-- The region of a pair that is forced: the core region beside the spine, the faster one, or the hotter where clocks are equal. -/
def State.forced (s : State) (a b : Nat) : Nat × Nat :=
  if 6 ≤ b then (a, b)
  else if s.mhzOf b < s.mhzOf a then (a, b)
  else if s.mhzOf a < s.mhzOf b then (b, a)
  else if (s.region a).temp < (s.region b).temp then (b, a) else (a, b)

/-- A force of R316 (DEDUCED, log entry 49) (DEDUCED, log entry 73). -/
def State.forceDown (s : State) (a b : Nat) : State :=
  let (f, o) := s.forced a b
  let old := s.mhzOf f
  let new := if o < 6 then s.mhzOf o else max (old * 3 / 4) (s.pwr.spineMhz / 2)
  let diff := ((s.region a).temp - (s.region b).temp).natAbs
  let s := s.report (mkReport 9 (.region f) diff)
  let s := s.applyRegion f new (s.region f).mv
  let s := s.onRegion f (fun r => { r with force := some new })
  s.evt 0x00B5 0 [(0, 16, 0x0705), (16, 4, f), (20, 4, o), (24, 12, old), (36, 12, new), (48, 11, diff)]

/-- One pair sampled: a second sample in a row beyond a limit forces a region down.  Bit 0 of `beyond` is the pair with the
next core region, bit 1 the pair with the spine (DEDUCED, log entry 73). -/
def State.samplePair (s : State) (a b k : Nat) : State :=
  let was := (s.region a).beyond.testBit k
  let now := s.beyond a b
  let s := s.onRegion a (fun r => { r with beyond := setField r.beyond k 1 (b2n now) })
  if was && now then s.forceDown a b else s

/-- One junction temperature sampled: above the limit of detector 8 in two samples in a row it is reported (R328).  A region not in
RUN or IDLE does not sample (R355), and a limit of 0 reports nothing (DESIGN CHOICE, log entry 100).  Bit 2 of `beyond` is the
last sample. -/
def State.sampleTemp (s : State) (g : Nat) : State :=
  let r := s.region g
  let limit := fld (SMap.get s.sm.detEntry 0 8) 16 16
  let now := decide (r.state = .run ∨ r.state = .idle) && decide (0 < limit) && decide ((4 * limit : Nat) < r.temp)
  let s := s.setRegion g { r with beyond := setField r.beyond 2 1 (b2n now) }
  if r.beyond.testBit 2 && now then s.report { mkReport 8 (.region g) (unsigned r.temp 32) with code := 0x0311 } else s

/-- The samples of every 10 µs (R315) (DEDUCED, log entry 73). -/
def State.sample (s : State) (temps : List Int) : State :=
  let s := ((List.range 7).filter (fun g => s.hasRegion g)).foldl (fun s g =>
    match temps[g]? with
    | some t => (s.onRegion g (fun r => { r with temp := t })).sampleTemp g
    | none => s) s
  (List.range s.par.ncg).foldl (fun s g =>
    let s := if g + 1 < s.par.ncg then s.samplePair g (g + 1) 0 else s
    s.samplePair g 6 1) s

/-! ### Admission (R317 to R320) -/

/-- The head of the AC's queues: the foreground's, else the background's (R319). -/
def State.acHead (s : State) : Option AcReq :=
  match s.pwr.fgQ with
  | r :: _ => some r
  | [] => s.pwr.bgQ.head?

/-- A grant to the head request, where budget and tokens allow it (R318). -/
def State.grant (s : State) : State :=
  match s.acHead with
  | none => s
  | some r =>
    let c := chargeOf r.cls (s.region (regionOfCore r.pc)).mhz
    if s.pwr.admitted + c ≤ s.budget ∧ c * tokenScale ≤ s.pwr.tokens then
      let s := { s with pwr := { s.pwr with
        fgQ := s.pwr.fgQ.drop 1, bgQ := if s.pwr.fgQ.isEmpty then s.pwr.bgQ.drop 1 else s.pwr.bgQ
        admitted := s.pwr.admitted + c, tokens := s.pwr.tokens - c * tokenScale, grants := satAdd s.pwr.grants 1 max32 } }
      s.onCtx r.pc r.ctx (fun x => { x with granted := some { cls := r.cls, charge := c } })
    else s

/-- Whether an instruction in flight is heavy (R106). -/
def InFlight.heavy (p : Bool) (f : InFlight) : Bool :=
  let o := recOpc f.words
  if o = 0x20 ∨ o = 0x22 then coversAll p (descS p f.words)
  else decide (o = 0x10 ∨ o = 0x11 ∨ o = 0x1C ∨ o = 0x1D) && decide (sliceCount p f.words = rmax p / 4)

/-- A mallet that a context holds under ADMIT with no heavy command running under it is revoked (R320); answers how many. -/
def State.revokeOne (s : State) (pc : Nat) (c : Ctx) : State × Nat :=
  let k := s.core pc
  let x := k.ctx c
  if x.held.isNone || (k.inFlight c).any (fun f => f.heavy k.part && f.mallet.isNone) then (s, 0)
  else
    let s := (s.releaseMallet x.held).onCtx pc c (fun x => { x with held := none })
    ({ s with pwr := { s.pwr with revokes := satAdd s.pwr.revokes 1 max32 } }, 1)

/-- An edge of the throttle input (R320). -/
def State.throttle (s : State) (level : Bool) : State :=
  if level = s.pwr.throttled then s
  else
    let s := { s with pwr := { s.pwr with throttled := level } }
    let (s, n) :=
      if level && decide (s.budget < s.pwr.admitted) then
        ((s.cores.map (fun e => e.1)).flatMap (fun pc => [(pc, Ctx.fg), (pc, Ctx.bg)])).foldl (fun (a : State × Nat) w =>
          let (s, m) := a.1.revokeOne w.1 w.2
          (s, a.2 + m)) (s, 0)
      else (s, 0)
    s.evt 0x00B4 0 [(0, 1, b2n level), (1, 16, s.budget), (17, 16, s.pwr.admitted), (33, 8, n)]

/-! ### The clock of AON (R262, R378) -/

/-- Whether AON may go over to SLOWCLK. -/
def State.slowOk (s : State) : Bool :=
  s.par.slowclkEn && ((List.range 8).filter (fun g => s.hasRegion g)).all (fun g =>
    decide ((s.region g).state = .deep ∨ (s.region g).state = .off))

/-- REF_SEL changes: AON goes over to SLOWCLK, or back with the advance of the LTC. -/
def State.refSel (s : State) (level : Bool) : State :=
  let s := { s with pins := { s.pins with refSel := level } }
  if s.pwr.blockOff then s
  else if level && !s.tu.onSlow && s.slowOk then
    { s with
      tu := { s.tu with onSlow := true, slowTicks := 0, slowRem := 0 }
      pwr := { s.pwr with refReq := false, refAck := true } }
  else if !level && s.tu.onSlow then
    let n := s.tu.slowTicks
    let e := n * 9375 + s.tu.rem
    let i := (s.tu.ledgerHead + 1) % 16
    -- the entry is open while the control region sleeps (R263)
    let isOpen := decide ((s.region 7).state = .sleep ∨ (s.region 7).state = .deep ∨
      ((s.region 7).state = .waking ∧ ((s.region 7).from_ = .sleep ∨ (s.region 7).from_ = .deep)))
    let l := { SMap.get s.tu.ledger Ledger.reset i with slow := n, slowclk := true }
    let s := { s with
      gong := { s.gong with freeAcc := if s.gong.en then s.gong.freeAcc + e / 8 * 2 ^ 16 * s.tu.rate else s.gong.freeAcc }
      tu := { s.tu with onSlow := false, slowTicks := 0, slowRem := 0, ltc := (s.tu.ltc + e / 8) % 2 ^ 64, rem := e % 8, coarse := true
                        ledger := if isOpen then SMap.set s.tu.ledger Ledger.reset i l else s.tu.ledger }
      pwr := { s.pwr with refAck := false, refReq := true } }
    s.portRec 0x0608
  else s

/-- CLK_REF is not stable within twice REF_START_US of the rise of REF_REQ (R378). -/
def State.refLate (s : State) : State :=
  if s.pwr.refAck && s.pwr.refReq && decide (2 * s.par.refStartUs * 32768 ≤ (s.tu.slowTicks - s.pwr.refReqAt) * 1000000) then
    s.report (mkReport 6 .clkRef 0)
  else s

/-- CORE_PG falls (R379): DET_VMON for every region. -/
def State.corePgFall (s : State) : State :=
  if s.pwr.blockOff then s
  else ((List.range 8).filter (fun g => s.hasRegion g)).foldl (fun s g => s.report (mkReport 7 (.region g) g)) s

/-- The PLL has relocked after a change of a region's clock and voltage (R313) (DESIGN CHOICE, log entry 89). -/
def State.regionReturn (s : State) (g : Nat) : State := s.onRegion g (fun r => { r with applying := false })

/-! ### The rows -/

/-- MALLET_GRANT (R318, R319). -/
def execMalletGrant (at_ : Nat) (s : State) : Host.Outcome State Fault Refusal :=
  let s := s.elapseTo at_
  .next (settle s s.grant)

/-- STATE_ENTRY_COMPLETE (R298). -/
def execStateEntryComplete (g : Nat) (s : State) : Host.Outcome State Fault Refusal := .next (settle s (s.entryDone g))

/-- AON_COMPARE_WAKE (R305). -/
def execAonCompareWake (c : Compare) (at_ : Nat) (s : State) : Host.Outcome State Fault Refusal :=
  let s := s.elapseTo at_
  .next (settle s (if s.pwr.blockOff then s else s.compareWake c))

/-- WAKE_PIN (R305). -/
def execWakePin (s : State) : Host.Outcome State Fault Refusal :=
  .next (settle s (if bit (s.reg 0x20014) 0 then s.pinWake 1 (bit (s.reg 0x20014) 1) else s))

/-- WSP_FRAME (R381): a match is an edge. -/
def execWspFrame (addr : BitVec 8) (parity : Bool) (s : State) : Host.Outcome State Fault Refusal :=
  let hit := bit (s.reg 0x20014) 3 && decide (addr.toNat = fld (s.reg 0x20014) 8 8) && decide (parity = oddByte addr)
  .next (settle s (if hit then s.pinWake 2 false else s))

/-- SIN_ACTIVITY_WAKE (R305). -/
def execSinActivityWake (port : Nat) (s : State) : Host.Outcome State Fault Refusal :=
  .next (settle s (if port < 4 ∧ bit (s.reg 0x20014) 4 ∧ s.pins.strUp then s.wake 6 true [6] else s))

/-- WAKE_STEP_TIMEOUT (R310). -/
def execWakeStepTimeout (g : Nat) (s : State) : Host.Outcome State Fault Refusal := .next (settle s (s.stepTimeout g))

/-- SRP_ANSWER (R314). -/
def execSrpAnswer (body : BitVec 2) (parityOk : Bool) (s : State) : Host.Outcome State Fault Refusal :=
  .next (settle s (s.srpAnswer body parityOk))

/-- SRP_TIMEOUT (R314). -/
def execSrpTimeout (at_ : Nat) (s : State) : Host.Outcome State Fault Refusal :=
  let s := s.elapseTo at_
  .next (settle s s.srpLate)

/-- NEIGHBOUR_SAMPLE (R315); temperatures of regions 0 to 6 in units of 0.25 °C. -/
def execNeighbourSample (temps : List Int) (at_ : Nat) (s : State) : Host.Outcome State Fault Refusal :=
  let s := s.elapseTo at_
  .next (settle s (s.sample temps))

/-- THROTTLE_EDGE (R320). -/
def execThrottleEdge (level : Bool) (s : State) : Host.Outcome State Fault Refusal := .next (settle s (s.throttle level))

/-- REF_SEL (R378). -/
def execRefSel (level : Bool) (s : State) : Host.Outcome State Fault Refusal := .next (settle s (s.refSel level))

/-- REF_START_TIMEOUT (R378). -/
def execRefStartTimeout (at_ : Nat) (s : State) : Host.Outcome State Fault Refusal :=
  let s := s.elapseTo at_
  .next (settle s s.refLate)

/-- CORE_PG_FALL (R379). -/
def execCorePgFall (s : State) : Host.Outcome State Fault Refusal := .next (settle s s.corePgFall)

end Sys2Proof.Machine
end

