-- ==== Sys2Proof/Machine/Ecc.lean ====
section
/-! DEFINITION. The memory code of the block (R11, R325, R326): the three check bytes of a word, the poison form and the class a
read gives a word. -/

namespace Sys2Proof.Machine

open Sys2Proof

/-- A symbol of GF(2^8) times α, with x^8 + x^4 + x^3 + x^2 + 1 (R325). -/
def gfDouble (a : Byte) : Byte := if a.getLsbD 7 then (a <<< 1) ^^^ 0x1D else a <<< 1

/-- The product of two symbols. -/
def gfMul (a b : Byte) : Byte :=
  ((List.range 8).foldl (fun (r : Byte × Byte) i => (if b.getLsbD i then r.1 ^^^ r.2 else r.1, gfDouble r.2)) (0, a)).1

/-- α to the power `n`. -/
def gfPow (n : Nat) : Byte := (List.range n).foldl (fun a _ => gfDouble a) 1

/-- The check bytes 0, 1 and 2 of a word's data (R325): the remainder by x³ + 7x² + 14x + 8, whose roots are α^0, α^1 and α^2. -/
def rsCheck (data : List Byte) : List Byte :=
  let step (r : Byte × Byte × Byte) (d : Byte) : Byte × Byte × Byte :=
    let f := d ^^^ r.2.2
    (gfMul f 8, r.1 ^^^ gfMul f 14, r.2.1 ^^^ gfMul f 7)
  let r := data.reverse.foldl step (0, 0, 0)
  [r.1, r.2.1, r.2.2]

/-- Syndrome `k` of a codeword, given from the coefficient of x^0 up (R326). -/
def syndrome (code : List Byte) (k : Nat) : Byte :=
  ((code.foldl (fun (a : Byte × Byte) c => (a.1 ^^^ gfMul c a.2, gfMul a.2 (gfPow k))) (0, 1)).1)

/-- Check bytes in poison form: bytes 0 and 1 inverted in bit 0 (R326). -/
def poisonCheck : List Byte → List Byte
  | [a, b, c] => [a ^^^ 1, b ^^^ 1, c]
  | l => l

/-- The class of a word on a read, from its data and its check bytes (R326). -/
def classify (data check : List Byte) : WordClass :=
  let code := check ++ data
  let s0 := syndrome code 0
  let s1 := syndrome code 1
  let s2 := syndrome code 2
  if s0 = 0 ∧ s1 = 0 ∧ s2 = 0 then .clean
  else if (List.range 35).any (fun p => decide (s0 ≠ 0) && decide (s1 = gfMul s0 (gfPow p)) && decide (s2 = gfMul s1 (gfPow p))) then
    .correctable
  else if s0 = 0 ∧ s1 = 3 ∧ s2 = 5 then .poisoned
  else .uncorrectable

/-- The check bytes that word `w` of a memory holds (R11, R326): those of its data, in poison form where the word is poisoned
(DESIGN CHOICE, log entry 18). -/
def Memory.checkBytes (m : Memory) (w : Nat) : List Byte :=
  let c := rsCheck (m.read (32 * w) 32)
  if m.isBad w then poisonCheck c else c

/-- The class of word `w` of a memory as it is stored (R326): clean or poisoned. -/
def Memory.classOf (m : Memory) (w : Nat) : WordClass := classify (m.read (32 * w) 32) (m.checkBytes w)

end Sys2Proof.Machine
end

