-- ==== Sys2Proof/Machine/Sm.lean ====
section
/-! DEFINITION. The safety manager (12): reports and their reactions (R328 to R333), scrub (R327), watchdogs (R330), injection
(R334), the end of a drain window (R335), diagnostics and return (R340, R341), lockstep (R342), the periodic test (R346), and
the block reset (R283, R343) with the end of a start that fails (R365). -/

namespace Sys2Proof.Machine

/-! ### Starts that fail (R365) -/

/-- Whether the block stands in reset: a start is due (R358). -/
def State.inReset (s : State) : Bool := s.boot.pend.isSome

/-- The code of a state in BOOT_STATUS.STATE. -/
def BootState.code : BootState → Nat
  | .check => 0 | .bist => 1 | .waitFetch => 2 | .verify => 3 | .limnyStart => 4 | .running => 5 | .failed => 6 | .minimal => 7

/-- Requests of the ROM that are not on a port are discarded; those on a port deliver nothing. -/
def State.dropBoot (s : State) : State :=
  let mine (r : PReq) : Bool := match r.who with | .boot => true | _ => false
  { s with mp := { s.mp with
      reqs := (s.mp.reqs.filter (fun r => !(mine r && !r.onPort))).map (fun r => if mine r then { r with dead := true } else r) } }

/-- A start ends in FAILED or MINIMAL (R359, R365): BOOT_REASON, BOOT_HIST, BOOT_FAIL and the interrupt line (DEDUCED, log entry 79). -/
def State.endStart (s : State) (st : BootState) (code detail : Nat) : State :=
  let was := s.boot.state.code
  let s := s.dropBoot
  let s := { s with boot := { s.boot with
    state := st, code := code, detail := detail, hist := (code :: s.boot.hist).take 3, failLine := true, buf := [], warn := false } }
  s.evt 0x00D1 0 [(0, 16, code), (16, 16, detail), (32, 3, was), (35, 2, s.boot.kind), (37, 2, s.boot.fsc)]

/-- A start fails in a step of R360. -/
def State.failStart (s : State) (code detail : Nat) : State := s.endStart .failed code detail

/-! ### Block reset (R283, R343) -/

/-- What the SM copies to retention memory before a block reset (R343) (DEDUCED, log entry 74). -/
def TimeUnit.copy (t : TimeUnit) : SavedTime :=
  { offset := t.offset, rate := t.rate, epoch := t.epoch, servoI := t.servoI, servoY := t.servoY, invalid := t.invalid }

/-- Register fields that a block reset leaves: the global and power banks in AON, CFG_IMG_ADDR and CFG_IMG_LEN, the port
domain, and BOOT_IMG_ADDR and BOOT_WDOG (R224, R343, R358) (DEDUCED, log entry 74). -/
def keptReg (off : Nat) : Bool :=
  decide (off < 0x10000) || decide (0x20000 ≤ off ∧ off < 0x30000) || decide (0x40000 ≤ off ∧ off < 0x4000C)
    || decide (0x50000 ≤ off ∧ off < 0x50600) || decide (off = 0x80000 ∨ off = 0x80004 ∨ off = 0x80024)

/-- A region after a block reset: in RUN, unless its wake failed (DEDUCED, log entry 74). -/
def Region.afterReset (r : Region) : Region :=
  { r with state := match r.state with | .failed => .failed | _ => .run
           entering := none, step := 0, tries := 0, limny := 0, access := false, applying := false, pendWake := 0, wakeAt := none }

/-- Reset is let through (R283 steps 4 and 5). -/
def State.rstPass (s : State) : State :=
  let d := s.ns10 (s.tu.ltc - s.mp.rstSince)
  let s := { s with mp := { s.mp with rstq := false, rstqCnt := satAdd s.mp.rstqCnt 1 max32, rstqLast := min 65535 d } }
  s.evt 0x00A3 9 [(0, 1, 1), (1, 32, d), (33, 12, s.mp.rstHeld)]

/-- Reset passes once no tag is held. -/
def State.rstCheck (s : State) : State := if s.mp.rstq && !s.anyTag then s.rstPass else s

/-- The accesses of the HCP that wait for an answer when a reset begins: the front end answers each at once (R285). -/
def State.hcpPending (s : State) : Nat :=
  let mine (a : MAccess) : Bool := decide (a.who = Master.hcp) && !a.orphan
  s.hcp.offers.length
    + (s.mp.targets.map (fun e => ((match e.2.path with | some a => [a] | none => []) ++ e.2.waits).countP mine)).foldl (· + ·) 0

/-- A block reset (R283, R343): what lies in AON, in the port domain and in the active half of the carillon store stays; a
start of the kind given is due (DEDUCED, log entry 74). -/
def State.blockReset (s : State) (kind : Nat) : State :=
  if s.inReset then s
  else
    let s := s.strobesOff (fun _ => true)
    let t := State.resetWith s.par
    let held := s.allTags
    let u := { t with
      regs := s.regs.filter (fun e => keptReg e.1)
      tu := { TimeUnit.reset with
        ltc := s.tu.ltc, rem := s.tu.rem, onSlow := s.tu.onSlow, slowTicks := s.tu.slowTicks, slowRem := s.tu.slowRem
        ledgerHead := s.tu.ledgerHead, ledger := s.tu.ledger, saved := s.tu.saved.or (some s.tu.copy) }
      gong := { Gong.reset with gsn := s.gong.gsn }
      retain := s.retain
      cfg := { CfgUnit.reset with
        active := s.cfg.active, activeValid := s.cfg.activeValid, map := s.cfg.map, half := s.cfg.half, bad := s.cfg.bad }
      mp := { s.mp with
        reqs := (s.mp.reqs.filter PReq.onPort).map (fun (r : PReq) => { r with dead := true })
        xreqs := s.mp.xreqs.map (fun (x : XReq) => { x with stale := true })
        rstq := true, rstSince := s.tu.ltc, rstHeld := held
        cmMiss := 0, cmOff := 0, cmOrphan := 0, cmGhost := 0, cmLastAddr := 0, cmLastMst := 0, cmLastCode := 0, missAt := [], targets := []
        pageReqs := [], tlbs := []
        hcpRst := satAdd s.mp.hcpRst s.hcpPending max32 }
      pwr := { s.pwr with
        regions := s.pwr.regions.map (fun (e : Nat × Region) => (e.1, e.2.afterReset)), admitted := 0, fgQ := [], bgQ := [] }
      sm := { Safety.reset with
        fenced := s.sm.fenced, incs := s.sm.incs, lastCode := s.sm.lastCode, lastDet := s.sm.lastDet, resets := s.sm.resets
        resetAt := s.sm.resetAt }
      boot := { Boot.reset with
        fsc := s.boot.fsc, fscInv := s.boot.fscInv, addrValid := s.boot.addrValid, hist := s.boot.hist, starts := s.boot.starts
        pend := some kind }
      pins := { s.pins with strUp := false, srpTx := none }
      freeCnt := s.freeCnt, pending := s.pending }
    let u := (List.range s.par.npc).foldl (fun u pc =>
      u.setCore pc { Core.reset with inc := s.incOf pc, held := s.fenced pc }) u
    u.rstCheck

/-- RESET of the SM for detector `det` (R331, R343): SM_LAST_RESET, RESET_CNT, then the block reset (DEDUCED, log entry 77). -/
def State.smReset (s : State) (det : Nat) : State :=
  if s.inReset then s
  else
    let s := { s with sm := { s.sm with
      lastCode := 0x0307, lastDet := det, resets := satAdd s.sm.resets 1 max16, resetAt := some s.tu.ltc } }
    s.blockReset 2

/-! ### Memory words by place (R326, R329) -/

/-- The core of a memory. -/
def memCore : MemKind → Option Nat
  | .trf pc => some pc | .staging pc => some pc | .rowCache pc => some pc | _ => none

/-- The region of a memory, numbered as in R298. -/
def memRegion : MemKind → Nat
  | .trf pc => regionOfCore pc | .staging pc => regionOfCore pc | .rowCache pc => regionOfCore pc
  | .retention => 8
  | .pool => 6 | .routeTable => 6 | .syncObjects => 6 | .queueMemory => 6 | .routeDirectory => 6
  | .seqList _ => 7 | .seqCode _ => 7 | .carillonStore => 7 | .eventBuffer => 7

/-- A number for each memory. -/
def memKey : MemKind → Nat
  | .trf pc => 16 * pc | .staging pc => 16 * pc + 1 | .rowCache pc => 16 * pc + 2 | .pool => 3 | .routeTable => 4
  | .retention => 5 | .syncObjects => 6 | .queueMemory => 7 | .routeDirectory => 8 | .seqList q => 16 * q + 9
  | .seqCode q => 16 * q + 10 | .carillonStore => 11 | .eventBuffer => 12

/-- The 32-byte words of a physical slot of the TRF. -/
def slotWords (p : Bool) : Nat := if p then 256 else 512

/-- The register that holds word `w` of the TRF, where one maps its slot. -/
def Core.regOfWord (k : Core) (w : Nat) : Option Nat :=
  (List.range (regCount k.part)).find? (fun r => decide (k.slotOfReg r = w / slotWords k.part))

/-- Whether a word stands in poison form (DEDUCED, log entry 77). -/
def State.wordBad (s : State) (m : MemKind) (w : Nat) : Bool :=
  match m with
  | .trf pc =>
    let k := s.core pc
    match k.regOfWord w with
    | some r => (k.tile r).bad.contains (w % slotWords k.part)
    | none => false
  | .staging pc => (s.core pc).staging.isBad w
  | .rowCache pc => match (s.core pc).cache[w / 8]? with | some l => l.bad.contains (w % 8) | none => false
  | .pool => s.st.pool.isBad w
  | .routeTable => s.routes.table.isBad w
  | .retention => s.retain.isBad w
  | .seqList q => (s.seq q).isBad w
  | .seqCode q => (s.seq q).isBad w
  | .carillonStore => s.cfg.bad.contains w
  | .syncObjects | .queueMemory | .routeDirectory | .eventBuffer => (SMap.get s.sm.badWords [] (memKey m)).contains w

/-- A word written in poison form, with kind ECC_UE for a tile register (R326). -/
def State.markWord (s : State) (m : MemKind) (w : Nat) : State :=
  match m with
  | .trf pc =>
    let k := s.core pc
    match k.regOfWord w with
    | some r =>
      let t := k.tile r
      s.onCore pc (fun k => k.setTile r { t with bad := insNat (w % slotWords k.part) t.bad, kinds := t.kinds ||| kEcc })
    | none => s
  | .staging pc => s.onCore pc (fun k => { k with staging := k.staging.mark [w] true })
  | .rowCache pc => s.onCore pc (fun k => { k with cache := updNth (w / 8) (fun (l : Line) =>
      { l with bad := insNat (w % 8) l.bad, kinds := l.kinds ||| kEcc }) k.cache })
  | .pool => { s with st := { s.st with pool := s.st.pool.mark [w] true } }
  | .routeTable => { s with routes := { s.routes with table := s.routes.table.mark [w] true } }
  | .retention => { s with retain := s.retain.mark [w] true }
  | .seqList q => s.setSeq q ((s.seq q).mark [w] true)
  | .seqCode q => s.setSeq q ((s.seq q).mark [w] true)
  | .carillonStore => { s with cfg := { s.cfg with bad := insNat w s.cfg.bad } }
  | .syncObjects | .queueMemory | .routeDirectory | .eventBuffer =>
    { s with sm := { s.sm with badWords := SMap.set s.sm.badWords [] (memKey m) (insNat w (SMap.get s.sm.badWords [] (memKey m))) } }

/-- The running lists of a sequencer memory's pair that hold the record in word `w` abandoned as a command error (R329)
(DEDUCED, log entry 77). -/
def State.stopRecord (s : State) (q w : Nat) : State :=
  let i := w - listArea / 32
  (s.cores.flatMap (fun e => [(e.1, Ctx.fg), (e.1, Ctx.bg)])).foldl (fun s p =>
    match ((s.core p.1).ctx p.2).list with
    | some l =>
      if l.lc % 2 = q / 2 ∧ l.start ≤ i ∧ i < l.start + s.listRest l (listRecords - l.start) 0 then
        s.cmdError p.1 p.2 (s.record l.lc l.start ((s.core p.1).ctx p.2).index).1 1
      else s
    | none => s) s

/-- Record `i` of the event buffer dropped and counted (R259). -/
def State.dropRecord (s : State) (i : Nat) : State :=
  match s.ev.buf[i]? with
  | none => s
  | some e =>
    let k := 32 * e.cls + e.unit
    { s with ev := { s.ev with
      buf := s.ev.buf.eraseIdx i, dropCnt := satAdd s.ev.dropCnt 1 max32, lost := SMap.set s.ev.lost 0 k (SMap.get s.ev.lost 0 k + 1) } }

/-- What R329 adds for a place, beside KNELL, RESET and the pair restart. -/
def State.atPlace (s : State) (m : MemKind) (w : Nat) : State :=
  match m with
  | .rowCache pc => s.onCore pc (fun k => { k with cache := k.cache.eraseIdx (w / 8) })
  | .queueMemory => s.streamFault 0x050B 0x1F 0xF 0 0
  | .seqList q => s.stopRecord q w
  | .carillonStore => s.report { mkReport 11 .duplicate w with unit := .memory m w }
  | .eventBuffer =>
    -- the word holds no record any more, and the next one written there fills it whole
    let bad := (SMap.get s.sm.badWords [] (memKey m)).filter (fun x => decide (x ≠ w))
    { s with sm := { s.sm with badWords := SMap.set s.sm.badWords [] (memKey m) bad } }.dropRecord w
  | _ => s

/-! ### Reports (R328 to R332) -/

/-- The cores a report names (R332). -/
def State.unitCores (s : State) (u : ReportUnit) : List Nat :=
  (match u with
   | .core pc => [pc]
   | .region g => if g < 6 then [3 * g, 3 * g + 1, 3 * g + 2] else []
   | .memory (.trf pc) _ | .memory (.staging pc) _ | .memory (.rowCache pc) _ => [pc]
   | _ => []).filter (fun pc => s.hasCore pc)

/-- The PC of SM_DETECT, 0x1F for none, and its region (DESIGN CHOICE, log entry 60). -/
def unitPc : ReportUnit → Nat
  | .core pc => pc
  | .memory m _ => (memCore m).getD 0x1F
  | _ => 0x1F
def unitRegion : ReportUnit → Nat
  | .core pc => regionOfCore pc
  | .region g => g
  | .memory m _ => memRegion m
  | .buffer _ => 6 | .smOrSpineTarget => 6 | .port _ => 6
  | .pair _ => 7 | .seqPort _ => 7 | .duplicate => 7 | .time => 7
  | .srp => 8 | .clkRef => 8

/-- The reactions to a report. -/
structure Reaction where
  poison : Bool
  knell  : Bool
  int    : Bool
  reset  : Bool
  pair   : Option Nat
  deriving DecidableEq, Repr

/-- Parameter of detector `d`. -/
def State.detParam (s : State) (d : Nat) : Nat := fld (SMap.get s.sm.detEntry 0 d) 16 16

/-- Bit `i` of the entry of detector `d`: 0 LOG, 1 INT, 2 POISON, 3 KNELL, 4 RESET (R212). -/
def State.detBit (s : State) (d i : Nat) : Bool := bit (SMap.get s.sm.detEntry 0 d) i

/-- Whether the correctable errors of a memory in this scrub round exceed the parameter of detector 0. -/
def State.ceOver (s : State) (u : ReportUnit) : Bool :=
  match u with
  | .memory m _ => decide (0 < s.detParam 0) && decide (s.detParam 0 < SMap.get s.sm.ceCnt 0 (memKey m))
  | _ => false

/-- The reactions of the table of R328 with the entry's own (R212); LOG is required of every detector.  `started` that the
pair restart is under way. -/
def State.reaction (s : State) (r : Report) (started : Bool) : Reaction :=
  let d := r.det
  let e : Reaction := { poison := s.detBit d 2, knell := s.detBit d 3, int := s.detBit d 1, reset := s.detBit d 4, pair := none }
  match d with
  | 0 => { e with int := e.int || s.ceOver r.unit }
  | 1 =>
    match r.unit with
    | .memory (.trf _) _ | .memory (.staging _) _ => { e with poison := true, knell := true }
    | .memory .syncObjects _ | .memory .queueMemory _ | .memory .routeDirectory _ => { e with poison := true, reset := true }
    | .memory (.seqCode q) _ => { e with poison := true, pair := some (q / 2) }
    | _ => { e with poison := true }
  | 2 =>
    let many := (s.unitCores r.unit).any (fun pc => decide (0 < s.detParam 2) && decide (s.detParam 2 ≤ (s.core pc).gongFab))
    { e with poison := true, knell := e.knell && many }
  | 3 => { e with int := true, pair := match r.unit with | .pair p => if started then none else some p | _ => none }
  | 4 =>
    match r.unit with
    | .smOrSpineTarget => { e with int := true, reset := true }
    | .seqPort p => { e with int := true, pair := some p }
    | _ => { e with int := true }
  | 5 => { e with knell := true }
  | 6 | 7 =>
    match r.unit with
    | .region g => if g < 6 then { e with int := true, knell := true } else { e with int := true, reset := true }
    | .clkRef => { e with int := true, reset := true }
    | _ => { e with int := true }
  | 8 => { e with int := true }
  | 10 => { e with int := true }
  | 11 => { e with int := true, reset := true }
  | 12 => { e with poison := true }
  | 13 => { e with int := true, reset := decide (s.auditLimit ≤ s.st.badRun) }
  | 15 => { e with int := true, poison := true }
  | _ => e

/-- POISON (R331). -/
def State.poisonFor (s : State) (r : Report) : State :=
  if r.det = 1 then
    match r.unit with
    | .memory m w => s.markWord m w
    | _ => s
  else if r.det = 2 ∨ r.det = 6 ∨ r.det = 7 ∨ r.det = 8 then (s.unitCores r.unit).foldl (fun s pc => s.markFilled pc (s.incOf pc)) s
  else s

/-- SM_DETECT (R357) (DESIGN CHOICE, log entry 60). -/
def State.detectRec (s : State) (r : Report) (code : Nat) : State :=
  s.evt 0x00C0 0 [(0, 16, code), (16, 4, r.det), (20, 5, unitPc r.unit), (25, 4, unitRegion r.unit), (29, 1, b2n r.injected), (31, 32, r.info.toNat)]

/-- DET_STATUS bit `d`. -/
def State.raiseDet (s : State) (d : Nat) : State :=
  { s with sm := { s.sm with detStatus := s.sm.detStatus ||| BitVec.ofNat 16 (2 ^ d) } }

/-- Some masters are reset (R292): their bursts that hold a path are orphans from then on, and their other accesses are discarded. -/
def State.masterReset (s : State) (f : Master → Bool) : State :=
  { s with mp := { s.mp with targets := s.mp.targets.map (fun e => (e.1, { e.2 with
      path := e.2.path.map (fun a => if f a.who then { a with orphan := true } else a)
      waits := e.2.waits.filter (fun a => !f a.who) })) } }

/-- A sequencer pair is reset (R342), as a master too (R292). -/
def State.pairStart (s : State) (p : Nat) : State :=
  if p < 2 ∧ !s.sm.pairReset.getLsbD p then
    let s := s.masterReset (fun m => if p = 0 then decide (m = Master.sq0 ∨ m = Master.sq1) else decide (m = Master.sq2 ∨ m = Master.sq3))
    { s with sm := { s.sm with
      pairReset := s.sm.pairReset ||| BitVec.ofNat 2 (2 ^ p), pairSince := SMap.set s.sm.pairSince 0 p s.tu.ltc } }
  else s

/-- A report reaches the SM (R331): POISON, KNELL, what its place adds, LOG, INT, RESET. -/
def State.react (s : State) (r : Report) (started : Bool) : State :=
  let d := r.det
  let ce := match d, r.unit with
    | 0, .memory m _ => SMap.set s.sm.ceCnt 0 (memKey m) (SMap.get s.sm.ceCnt 0 (memKey m) + 1)
    | _, _ => s.sm.ceCnt
  let s := { s with sm := { s.sm with detCnt := SMap.set s.sm.detCnt 0 d (satAdd (SMap.get s.sm.detCnt 0 d) 1 max32), ceCnt := ce } }
  let x := s.reaction r started
  let s := if x.poison then s.poisonFor r else s
  let s := if x.knell then (s.unitCores r.unit).foldl (fun s pc => s.knell pc d) s else s
  let s := match d, r.unit with
    | 1, .memory m w => s.atPlace m w
    | _, _ => s
  let s := match x.pair with | some p => s.pairStart p | none => s
  let s := s.detectRec r (if d = 0 ∧ s.ceOver r.unit then 0x030A else r.code)
  let s := if x.int then s.raiseDet d else s
  if x.reset then s.smReset d else s

/-- A report taken from those on their way, or from outside the model; none acts while the block stands in reset (R355)
(DESIGN CHOICE, log entry 18). -/
def State.takeReport (s : State) (r : Report) : State :=
  let queued := s.sm.reports.contains r
  let s := { s with sm := { s.sm with reports := s.sm.reports.erase r } }
  if s.inReset || decide (15 < r.det) then s else s.react r queued

/-! ### Scrub (R327) and watchdogs (R330) -/

/-- The scrub of one word; a round that has lasted 8 ms ends (DEDUCED, log entry 77). -/
def State.scrub (s : State) (m : MemKind) (w : Nat) (c : WordClass) : State :=
  let st := (s.region (memRegion m)).state
  let there := match memCore m with | some pc => s.hasCore pc | none => true
  if s.inReset || !there || !(decide (memRegion m = 8) || decide (st = .run) || decide (st = .idle)) then s
  else
    let d := s.tu.ltc - s.sm.scrubAt
    let s :=
      if s.ticksOf 8000000 ≤ d then
        { s with sm := { s.sm with scrubAt := s.tu.ltc, scrubRnd := min 65535 (s.ns10 d / 1000), ceCnt := [] } }
      else s
    let bad := s.wordBad m w
    match c with
    | .clean | .poisoned => s
    | .correctable =>
      if bad then s
      else
        let s := { s with sm := { s.sm with scrubCe := satAdd s.sm.scrubCe 1 max32 } }
        s.report (mkReport 0 (.memory m w) w)
    | .uncorrectable =>
      let s := { s with sm := { s.sm with scrubUe := satAdd s.sm.scrubUe 1 max32 } }
      (s.markWord m w).report { mkReport 1 (.memory m w) w with code := 0x030B }

/-- A window of a core's watchdog missed: the third in a row reports (R330), a stale core's report is dropped (R293). -/
def State.missWindow (s : State) (pc : Nat) : State :=
  let n := (s.core pc).wdogMiss + 1
  if 3 ≤ n then
    let s := s.onCore pc (fun k => { k with wdogMiss := 0 })
    if s.stale pc then s.coreGhost pc else s.report (mkReport 5 (.core pc) pc)
  else s.onCore pc (fun k => { k with wdogMiss := n })

/-- Whether a tile instruction was in flight for the whole window that ends and no slice passed a TRF port: what was in flight at
the last probe is in flight as it was (R330) (DEDUCED, log entry 77). -/
def Core.stuck (k : Core) : Bool := !k.flight.isEmpty && decide (k.flight = k.wdogSeen)

/-- The end of a watchdog window: a waiting context answers, and a core with no list is not watched (R330). -/
def State.probe (s : State) (pc : Nat) (answered : Bool) : State :=
  let answered := answered && !(s.core pc).stuck
  let s := s.onCore pc (fun k => { k with wdogSeen := k.flight })
  let k := s.core pc
  if k.held || !(k.fg.list.isSome || k.bg.list.isSome) then s.onCore pc (fun k => { k with wdogMiss := 0 })
  else if answered || !(s.causes pc).isEmpty then s.onCore pc (fun k => { k with wdogMiss := 0 })
  else s.missWindow pc

/-! ### Lockstep (R342) -/

/-- LOCKSTEP (R357). -/
def State.lockstepRec (s : State) (code p result dur : Nat) : State :=
  s.evt 0x00C4 0 [(0, 16, code), (16, 1, p), (17, 2, result), (19, 16, min 65535 dur)]

/-- A mismatch within a pair (R342): during a start it ends the start (R360); a simplex pair is not compared, nor one whose
sequencers are in reset. -/
def State.mismatch (s : State) (p : Nat) : State :=
  if s.inReset || decide (2 ≤ p) || s.sm.simplex.getLsbD p || s.sm.pairReset.getLsbD p then s
  else
    match s.boot.state with
    | .check | .bist | .waitFetch | .verify => if p = 0 then s.failStart 0x010D s.boot.state.code else s
    | .failed | .minimal => s
    | .limnyStart | .running => (s.report (mkReport 3 (.pair p) p)).pairStart p

/-- Releases that fell due while a pair was reset are made (R342) (DEDUCED, log entry 77). -/
def State.lateReleases (s : State) (p : Nat) : State :=
  let due := s.sm.lateRel.filter (fun e => decide (e.1 % 2 = p))
  let s := { s with sm := { s.sm with lateRel := s.sm.lateRel.filter (fun e => !decide (e.1 % 2 = p)) } }
  due.foldl (fun s e => s.releaseTo e.2 e.1) s

/-- The self-test of a pair ends (R342) (DEDUCED, log entry 77). -/
def State.pairEnd (s : State) (p : Nat) (pass0 pass1 : Bool) : State :=
  if s.inReset || !s.sm.pairReset.getLsbD p then s
  else
    let dur := s.ns10 (s.tu.ltc - SMap.get s.sm.pairSince 0 p)
    let s := { s with sm := { s.sm with
      pairReset := s.sm.pairReset &&& ~~~BitVec.ofNat 2 (2 ^ p), pairSince := SMap.set s.sm.pairSince 0 p 0 } }
    let one := s.sm.simplex.getLsbD p || pass0 != pass1
    let res := if pass0 then (if pass1 then 0 else 2) else if pass1 then 1 else 3
    if !pass0 && !pass1 then (s.lockstepRec 0x0307 p res dur).smReset 3
    else if one then
      let s := { s with sm := { s.sm with simplex := s.sm.simplex ||| BitVec.ofNat 2 (2 ^ p) } }
      (s.lockstepRec 0x030F p res dur).lateReleases p
    else (s.lockstepRec 0x030E p res dur).lateReleases p

/-- The two copies of R333 differ (DESIGN CHOICE, log entry 18). -/
def State.copiesDiffer (s : State) : State :=
  if s.inReset then s else s.report { mkReport 11 .duplicate 0 with code := 0x030D }

/-! ### Diagnostics and return (R340, R341) -/

/-- DIAG_CTRL.GO (R340). -/
def State.diagGo (s : State) (pc : Nat) : State :=
  if s.sm.diagBusy || !s.hasCore pc || !s.fenced pc then s
  else { s with sm := { s.sm with diagBusy := true, diagPc := pc } }

/-- A diagnostic run ends (R340). -/
def State.diagEnd (s : State) (pass : Bool) : State :=
  if !s.sm.diagBusy then s
  else
    let pc := s.sm.diagPc
    let s := { s with sm := { s.sm with
      diagBusy := false, diagPass := pass
      diagOk := if pass then s.sm.diagOk ||| BitVec.ofNat 18 (2 ^ pc) else s.sm.diagOk &&& ~~~BitVec.ofNat 18 (2 ^ pc) } }
    if pass then s
    else s.knellRec { pc := pc, lc := none, oldInc := s.incOf pc, newInc := s.incOf pc, spare := none, det := 0xF,
                      marked := 0, ghosts := 0, code := 0x0306, at_ := 0 }

/-- UNKNELL.GO (R341). -/
def State.unknellReq (s : State) (pc : Nat) : State :=
  if s.fenced pc && s.sm.diagOk.getLsbD pc then
    { s with sm := { s.sm with unknell := if s.sm.unknell.contains pc then s.sm.unknell else s.sm.unknell ++ [pc] } }
  else s.evt 0x00C2 0 [(0, 16, 0x0305), (16, 5, pc), (21, 4, s.incOf pc), (25, 1, b2n (s.sm.diagOk.getLsbD pc))]

/-! ### Injection (R334) and the periodic test (R346) -/

/-- An injection that is off. -/
def State.inj (s : State) (d : Nat) : Inj := SMap.get s.sm.inj Inj.reset d

/-- The injection of detector `d` replaced. -/
def State.setInj (s : State) (d : Nat) (x : Inj) : State := { s with sm := { s.sm with inj := SMap.set s.sm.inj Inj.reset d x } }

/-- INJ_CTRL of detector `d`. -/
def injOff (d : Nat) : Nat := 0x30300 + 8 * d

/-- Whether UNIT names a unit of the block (DEDUCED, log entry 78). -/
def State.injUnit (s : State) (u : Nat) : Bool := s.hasCore u || decide (24 ≤ u ∧ u ≤ 27)

/-- A write of INJ_CTRL (R334). -/
def State.injArm (s : State) (d : Nat) (v : Word) : State :=
  let s := s.setReg (injOff d) v
  let m := fld v 0 2
  s.setInj d { s.inj d with armed := bit (s.reg 0x30000) 0 && decide (m = 1 ∨ m = 2) && s.injUnit (fld v 2 6) }

/-- Every injection disarmed. -/
def State.disarm (s : State) : State := (List.range 16).foldl (fun s d => s.setInj d { s.inj d with armed := false }) s

/-- The reports from number `n` on marked as injected. -/
def State.markInjected (s : State) (n : Nat) : State :=
  { s with sm := { s.sm with
    reports := (indexed 0 s.sm.reports).map (fun e => if n ≤ e.1 then { e.2 with injected := true } else e.2) } }

/-- The memory that an injection at unit `u` strikes (DEDUCED, log entry 78). -/
def injMem (u : Nat) : Option MemKind :=
  if u < 18 then some (.trf u) else if u = 24 then some .pool else if u = 25 then some (.seqCode 0) else none

/-- The region of a unit (DEDUCED, log entry 78). -/
def injRegion (u : Nat) : Nat := if u < 18 then regionOfCore u else if u = 24 ∨ u = 26 then 6 else 7

/-- A fault entered into the path that detector `d` watches (R334): `u` the unit, `y` SYM (DESIGN CHOICE, log entry 31)
(DEDUCED, log entry 78). -/
def State.faultAt (s : State) (d u y : Nat) : State :=
  match d with
  | 0 => match injMem u with | some m => s.report (mkReport 0 (.memory m y) y) | none => s
  | 1 => match injMem u with | some m => (s.markWord m y).report (mkReport 1 (.memory m y) y) | none => s
  | 2 => if u < 18 then s.onCore u (fun k => { k with injLane := some y }) else s
  | 3 => s.mismatch (y % 2)
  | 4 => s.report (mkReport 4 (if u = 25 then .seqPort (y % 2) else .smOrSpineTarget) y)
  | 5 => if u < 18 then s.missWindow u else s
  | 6 | 7 | 8 => s.report (mkReport d (.region (injRegion u)) (injRegion u))
  | 9 => if u < 18 then s.forceDown (injRegion u) 6 else s
  | 10 => s.timeFault 0x0602
  | 11 => s.report (mkReport 11 .duplicate y)
  | 12 => s.report (mkReport 12 (.buffer y) y)
  | 13 => { s with st := { s.st with snap := some { fail := some (1, 0, 1) } } }.auditEnd
  | 14 => if u < 18 then s.ghost u else s
  | _ => s.violation (y % 8) 0

/-- The next opportunity, or the period, of an armed injection. -/
def State.inject (s : State) (d : Nat) : State :=
  let x := s.inj d
  if s.inReset || !x.armed || decide (15 < d) then s
  else
    let v := s.reg (injOff d)
    let n := s.sm.reports.length
    let s := s.setInj d { armed := decide (fld v 0 2 = 2), count := satAdd x.count 1 max16 }
    (s.faultAt d (fld v 2 6) (fld v 8 8)).markInjected n

/-- PTEST (R357). -/
def State.ptestRec (s : State) (code d pc : Nat) : State :=
  s.evt 0x00C5 0 [(0, 16, code), (16, 4, d), (20, 5, pc), (25, 32, s.sm.cycles)]

/-- One failed periodic test: of a detector, or of a spare (R346). -/
def State.ptestBad (s : State) (f : Nat × Option Nat) : State :=
  let s := { s with sm := { s.sm with ptestFail := true, ptestDet := f.1 } }
  let s := (s.ptestRec 0x0310 f.1 (f.2.getD 0x1F)).raiseDet f.1
  match f.2 with
  | some pc => if (s.lcOf pc).isNone then s.knell pc f.1 else s
  | none => s

/-- A cycle of the periodic test (R346). -/
def State.ptest (s : State) (failed : List (Nat × Option Nat)) : State :=
  if s.inReset || !bit (s.reg 0x30000) 1 then s
  else
    let s := { s with sm := { s.sm with cycles := satAdd s.sm.cycles 1 0xFFFFFF } }
    let s := failed.foldl (fun s f => s.ptestBad f) s
    s.ptestRec (if failed.isEmpty then 0 else 0x0310) (match failed.getLast? with | some f => f.1 | none => 0) 0x1F

/-- The drain window of a knell ends (R335 steps 7 and 8). -/
def State.drainEnd (s : State) (pc : Nat) : State :=
  match s.sm.drains.find? (fun d => decide (d.pc = pc)) with
  | none => s
  | some d =>
    if s.tu.ltc < d.at_ then s
    else { s with sm := { s.sm with drains := s.sm.drains.erase d } }.knellRec d

/-! ### The rows -/

/-- DETECTOR_REPORT (R331). -/
def execDetectorReport (r : Report) (s : State) : Host.Outcome State Fault Refusal := .next (settle s (s.takeReport r))

/-- DRAIN_WINDOW_END (R335). -/
def execDrainWindowEnd (pc at_ : Nat) (s : State) : Host.Outcome State Fault Refusal :=
  let s := s.elapseTo at_
  .next (settle s (s.drainEnd pc))

/-- SCRUB_READ (R327). -/
def execScrubRead (m : MemKind) (w : Nat) (c : WordClass) (s : State) : Host.Outcome State Fault Refusal :=
  .next (settle s (s.scrub m w c))

/-- WATCHDOG_PROBE (R330). -/
def execWatchdogProbe (pc : Nat) (answered : Bool) (at_ : Nat) (s : State) : Host.Outcome State Fault Refusal :=
  let s := s.elapseTo at_
  .next (settle s (if s.inReset || !s.hasCore pc then s else s.probe pc answered))

/-- INJECTION (R334). -/
def execInjection (d at_ : Nat) (s : State) : Host.Outcome State Fault Refusal :=
  let s := s.elapseTo at_
  .next (settle s (s.inject d))

/-- LOCKSTEP_MISMATCH (R342). -/
def execLockstepMismatch (p : Nat) (s : State) : Host.Outcome State Fault Refusal := .next (settle s (s.mismatch p))

/-- PAIR_RESTART_COMPLETE (R342). -/
def execPairRestartComplete (p : Nat) (pass0 pass1 : Bool) (s : State) : Host.Outcome State Fault Refusal :=
  .next (settle s (s.pairEnd p pass0 pass1))

/-- DUPLICATE_STATE_MISMATCH (R333). -/
def execDuplicateStateMismatch (s : State) : Host.Outcome State Fault Refusal := .next (settle s s.copiesDiffer)

/-- DIAG_COMPLETE (R340). -/
def execDiagComplete (pass : Bool) (s : State) : Host.Outcome State Fault Refusal := .next (settle s (s.diagEnd pass))

/-- PTEST_CYCLE (R346). -/
def execPtestCycle (failed : List (Nat × Option Nat)) (at_ : Nat) (s : State) : Host.Outcome State Fault Refusal :=
  let s := s.elapseTo at_
  .next (settle s (s.ptest failed))

end Sys2Proof.Machine
end

