-- ==== Sys2Proof/Machine/Boot.lean ====
section
/-! DEFINITION. Starts and firmware (13): start entry (R359), the start sequence (R360, R361), the Limny image (R362, R363), MINIMAL
and the monitor (R368, R369), resets from pins (R283, R284, R386) and the test access port (R390). -/

namespace Sys2Proof.Machine

/-! ### Start entry (R359) -/

/-- Time since start entry in µs. -/
def State.startUs (s : State) : Nat := s.ns10 (s.tu.ltc - s.boot.startAt) / 100

/-- BOOT (R373). -/
def State.bootRec (s : State) (code : Nat) : State :=
  s.evt 0x00D0 0 [(0, 16, code), (16, 2, s.boot.kind), (18, 2, s.boot.fsc), (20, 32, s.boot.fwVer.toNat), (52, 32, s.startUs)]

/-- A warning: BOOT_REASON and its record (R361, R373). -/
def State.bootWarn (s : State) (code : Nat) : State :=
  { s with boot := { s.boot with code := code, detail := 0, warn := true } }.bootRec code

/-- Limny vote bit [32] of regions 0 to 7, as the ROM holds it (R371). -/
def State.romVotes (s : State) (on : Bool) : State :=
  ((List.range 8).filter (fun g => s.hasRegion g)).foldl (fun s g =>
    s.onRegion g (fun r => { r with limny := if on then r.limny ||| 1 else r.limny &&& ~~~1 })) s

/-- MINIMAL (R359, R368): CG0 to CG5 in OFF. -/
def State.minimal (s : State) : State :=
  let s := (List.range s.par.ncg).foldl (fun s g =>
    s.onRegion g (fun r => { r with state := .off, entering := none, limny := 0 })) s
  s.endStart .minimal 0x010C 0

/-- The two forms of the failed-start counter agree (R359). -/
def Boot.fscOk (b : Boot) : Bool := decide (b.fsc + b.fscInv = 3)

/-- Start entry (R359), step 1 of R360 where the spine or the control region failed its wake (DEDUCED, log entry 79), and the AON
check of its counter (R360 step 3). -/
def State.startEntry (s : State) (kind : Nat) (key : KeyPort) : State :=
  let s := { s with boot := { s.boot with
    ready := false, kind := kind, starts := satAdd s.boot.starts 1 max32, startAt := s.tu.ltc, key := key, state := .check
    pend := none, warn := false, failLine := false, err := false, buf := [], len := 0 } }
  let s := s.romVotes true
  let s := if s.mp.quiesce then s.quiesceCheck else s
  if s.boot.fsc = 3 then s.minimal
  else
    let s := { s with boot := { s.boot with fsc := s.boot.fsc + 1, fscInv := s.boot.fscInv - 1 } }
    if kind = 0 ∧ ((s.region 6).state = .failed ∨ (s.region 7).state = .failed) then s.failStart 0x0102 1
    else if s.boot.fscOk then { s with boot := { s.boot with state := .bist } } else s.failStart 0x0102 3

/-- Whether every region has left its wake. -/
def State.regionsUp (s : State) : Bool :=
  ((List.range 8).filter (fun g => s.hasRegion g)).all (fun g =>
    decide ((s.region g).state = .run) || decide ((s.region g).state = .failed))

/-! ### The fetch of the Limny image (R360 steps 5 to 7) -/

/-- BOOT_IMG_ADDR (DEDUCED, log entry 79). -/
def State.bootAddr (s : State) : Nat := ((s.reg 0x80000).toNat + 2 ^ 32 * fld (s.reg 0x80004) 0 20) / 64 * 64

/-- Requests of the ROM for a range of the image, at physical addresses (R275) (DEDUCED, log entry 79). -/
def State.bootFetch (s : State) (off len : Nat) : State :=
  let n := ceilDiv len 64
  (burstsOf n (s.bootAddr + off) n).foldl (fun s b => s.newReq .boot 0 none b.1 b.2 false [] []) s

/-- F: the boot watchdog starts and the image's header is fetched (R360 steps 6 and 7). -/
def State.fetchStart (s : State) : State :=
  let s := { s with boot := { s.boot with state := .verify, fetchAt := s.tu.ltc, buf := [], len := 0, err := false } }
  s.bootFetch 0 128

/-- BOOT_CTRL.FETCH (R360): it sets ADDR_VALID. -/
def State.fetchSet (s : State) : State :=
  let s := { s with boot := { s.boot with addrValid := true } }
  match s.boot.state with
  | .waitFetch => s.fetchStart
  | _ => s

/-- The bytes of the image that have arrived, in address order. -/
def Boot.bytes (b : Boot) : List Byte := b.buf.flatMap (fun e => e.2)

/-- Payload length of a header. -/
def limnyLen (h : List Byte) : Nat := leAt h 20 4

/-- The header of a Limny image (R362). -/
def limnyOk (h : List Byte) : Bool :=
  let n := limnyLen h
  let entry (o : Nat) : Bool := decide (leAt h o 4 % 4 = 0) && decide (leAt h o 4 < n)
  decide (leAt h 0 4 = 0x594E4D4C) && decide (leAt h 4 2 = 1) && decide (leAt h 6 2 = 128) && decide (leAt h 8 4 = 128 + n + 256)
    && decide (fieldOf (leAt h 17 1) 3 5 = 0) && decide (leAt h 18 2 = 0) && decide (leAt h 36 12 = 0) && decide (leAt h 96 32 = 0)
    && decide (n % 64 = 0) && decide (64 ≤ n ∧ n ≤ 131072) && entry 24 && entry 28 && entry 32

/-- The bit of CONFIG for a configuration. -/
def sizeBit : Size → Nat
  | .mpx4 => 0 | .mpx8 => 1 | .mpx16 => 2

/-- The bytes of a digest on the key port. -/
def digestBytes (d : BitVec 384) : List Byte := leBytes 48 d.toNat

/-- Payload written to the four sequencer memories (R362). -/
def State.putLimny (s : State) (p : List Byte) : State := (List.range 4).foldl (fun s q => s.setSeq q ((s.seq q).write 0 p)) s

/-- Steps 7 to 9 of R360 on the whole image: payload written, R363 in its order, then the copy check (DEDUCED, log entry 79). -/
def State.limnyCheck (s : State) : State :=
  let b := s.boot.bytes
  let n := limnyLen b
  let pay := (b.drop 128).take n
  let sig := b.drop (128 + n)
  let k := sig.take 97
  let s := s.putLimny pay
  if !s.boot.key.valid then s.failStart 0x0105 8
  else if sha384 k ≠ digestBytes s.boot.key.digest then s.failStart 0x0108 8
  else if leAt b 16 1 < s.boot.key.svn.toNat then s.failStart 0x0109 8
  else if !ecdsaVerify k (sha384 (b.take (128 + n))) ((sig.drop 104).take 48) ((sig.drop 152).take 48) then s.failStart 0x0108 8
  else if (List.range 4).any (fun q => decide (sha384 ((s.seq q).read 0 n) ≠ (b.drop 48).take 48)) then s.failStart 0x010A 9
  else
    { s with boot := { s.boot with
      state := .limnyStart, newVer := BitVec.ofNat 32 (leAt b 12 4), newSvn := BitVec.ofNat 8 (leAt b 16 1), buf := [] } }

/-- The fetch goes on as data arrive (R360, R364). -/
def State.bootProgress (s : State) : State :=
  match s.boot.state with
  | .verify =>
    if s.boot.err then s.failStart 0x0106 7
    else if s.mp.reqs.any (fun r => decide (r.who = Requester.boot) && !r.dead) then s
    else if s.boot.len = 0 then
      let h := s.boot.bytes
      if !limnyOk h then s.failStart 0x0107 7
      else if !(leAt h 17 1).testBit (sizeBit s.par.size) then s.failStart 0x0111 7
      else
        let n := 128 + limnyLen h + 256
        { s with boot := { s.boot with len := n } }.bootFetch 128 (n - 128)
    else s.limnyCheck
  | _ => s

/-! ### The steps of a start -/

/-- The memory BIST ends (R360 steps 3 and 4, R361). -/
def State.bistEnd (s : State) (core : BitVec 18) (spine control aon : Bool) : State :=
  match s.boot.state with
  | .bist =>
    let bad := (List.range s.par.npc).filter (fun pc => core.getLsbD pc)
    let word := bad.foldl (fun n pc => n + 2 ^ pc) (b2n spine * 2 ^ 18 + b2n control * 2 ^ 19)
    let s := { s with boot := { s.boot with bist := BitVec.ofNat 20 word } }
    if aon then s.failStart 0x0102 3
    else if spine || control then s.failStart 0x0103 4
    else
      let s := bad.foldl (fun s pc => s.knell pc 0xF) s
      let s := if bad.isEmpty then s else s.bootWarn 0x0104
      let s := { s with boot := { s.boot with state := .waitFetch } }
      if s.boot.addrValid then s.fetchStart else s
  | _ => s

/-- The time saved before the reset comes back (R343, R361): where a word of retention memory stands in poison form, its CRC
fails (DEDUCED, log entry 74). -/
def State.timeBack (s : State) : State :=
  match s.tu.saved with
  | some x =>
    if s.retain.poison.isEmpty then
      { s with tu := { s.tu with
        offset := x.offset, rate := x.rate, epoch := x.epoch, servoI := x.servoI, servoY := x.servoY, invalid := x.invalid, saved := none } }
    else { s with tu := { s.tu with invalid := true, saved := none } }.bootWarn 0x0110
  | none => { s with tu := { s.tu with invalid := true } }.bootWarn 0x0110

/-- STR_UP rises: each SIN link grants its 64 credits, SOUT links start without (R384). -/
def State.linksUp (s : State) : State :=
  let s := { s with pins := { s.pins with strUp := true } }
  (List.range 8).foldl (fun s k => s.setSport k { s.sport k with credits := if k < 4 then 64 else 0 }) s

/-- Limny's self-test ends (R360 steps 10 and 11, R361). -/
def State.limnyEnd (s : State) (pass : Bool) : State :=
  match s.boot.state with
  | .limnyStart =>
    if !pass then s.failStart 0x010E 10
    else
      let s := { s with boot := { s.boot with
        state := .running, time := min max32 s.startUs, fwVer := s.boot.newVer, fwSvn := s.boot.newSvn
        code := if s.boot.warn then s.boot.code else 0, detail := 0 } }
      let s := (s.romVotes false).linksUp
      let s := if s.boot.kind = 0 then s else s.timeBack
      let s := s.bootRec 0
      if s.boot.kind ≠ 0 ∧ s.cfg.activeValid then s.resumeStart else s
  | _ => s

/-- The boot watchdog expires (R360 step 6). -/
def State.wdogEnd (s : State) : State :=
  let late := decide (s.boot.fetchAt + s.ticksOf (10 ^ 6 * clampLo (fld (s.reg 0x80024) 0 16) 1) ≤ s.tu.ltc)
  match s.boot.state with
  | .verify | .limnyStart => if late then s.failStart 0x010B 6 else s
  | _ => s

/-- The resumption ends (R224); its failure ends the start (R361). -/
def State.resumeEnd (s : State) : State :=
  match s.boot.state with
  | .running =>
    match s.resumeDone with
    | (s, some code) => s.failStart 0x010F code
    | (s, none) => s
  | _ => s

/-! ### Boot registers -/

/-- BOOT_CTRL.RESTART (R367). -/
def State.restart (s : State) : State :=
  match s.boot.state with
  | .failed | .minimal => if s.inReset then s else s.blockReset 3
  | _ => s

/-- BOOT_CTRL.FSC_CLR (R366). -/
def State.fscClr (s : State) : State :=
  if s.boot.ready || decide (s.boot.state = .minimal) then { s with boot := { s.boot with fsc := 0, fscInv := 3 } } else s

/-- Whether the monitor takes commands (R369). -/
def State.monitor (s : State) : Bool := !s.inReset && decide (s.boot.state = .minimal)

/-- BOOT_BIST of a run of the memory BIST. -/
def State.bistWord (s : State) (core : BitVec 18) (spine control : Bool) : BitVec 20 :=
  BitVec.ofNat 20 (((List.range s.par.npc).filter (fun pc => core.getLsbD pc)).foldl (fun n pc => n + 2 ^ pc)
    (b2n spine * 2 ^ 18 + b2n control * 2 ^ 19))

/-- Memories left with zero data by a BIST (R360 step 4), retention memory too where `all` says so (DEDUCED, log entry 80). -/
def State.wipe (s : State) (all : Bool) : State :=
  { s with
    cores := s.cores.map (fun (e : Nat × Core) => (e.1, { e.2 with tiles := [], staging := Memory.reset, cache := [] }))
    st := { s.st with pool := Memory.reset }
    routes := { s.routes with table := Memory.reset, active := [], shadow := [], dirty := [] }
    so := [], seqMem := []
    cfg := { s.cfg with active := none, activeValid := false, staged := none, stagedId := 0, bad := [] }
    ev := { s.ev with buf := [] }
    retain := if all then Memory.reset else s.retain
    tu := if all then { s.tu with ledger := [], saved := none } else s.tu }

/-- Monitor command 1 (R369) (DEDUCED, log entry 80). -/
def State.monBist (s : State) (core : BitVec 18) (spine control : Bool) : State :=
  if s.monitor then
    let s := s.wipe false
    { s with boot := { s.boot with bist := s.bistWord core spine control, monErr := false } }
  else s

/-- Monitor command 2 (R369).  The layout of what the block saves in retention memory is not stated, nor what a reading at
another ARG gives: both are free values (log entry 7) (DEDUCED, log entry 80). -/
def State.monRead (s : State) (arg : Word) : State :=
  if s.monitor then
    if arg.toNat % 4 = 0 ∧ arg.toNat < 262144 ∧ s.tu.saved = none ∧ s.tu.ledger = [] then
      { s with boot := { s.boot with monErr := false, monData := BitVec.ofNat 32 (leNat (s.retain.read arg.toNat 4)) } }
    else
      let (v, s) := s.fresh
      { s with boot := { s.boot with monErr := false, monData := BitVec.ofNat 32 v } }
  else s

/-- A reserved monitor command (R369). -/
def State.monOther (s : State) : State := if s.monitor then { s with boot := { s.boot with monErr := true } } else s

/-! ### Resets from pins and the test access port -/

/-- WRST_N falls (R283, R386) (DEDUCED, log entry 79). -/
def State.warmReset (s : State) : State :=
  if s.pwr.blockOff then s
  else
    match s.boot.pend with
    | some 0 => s
    | some _ => { s with boot := { s.boot with pend := some 1 } }
    | none => s.blockReset 1

/-- Instruction register codes of R390. -/
def jtagCode (n : Nat) : BitVec 8 := BitVec.ofNat 8 n

/-- IDCODE (R390). -/
def Params.idcode (p : Params) : BitVec 32 :=
  let part := match p.size with | .mpx4 => 0x4D04 | .mpx8 => 0x4D08 | .mpx16 => 0x4D10
  BitVec.ofNat 32 (1 + 2 * p.jtagMfr.toNat + 2 ^ 12 * part + 2 ^ 28 * (p.stepping.toNat % 16))

/-- An instruction of the test access port: a private one acts as BYPASS while TEST_EN is 0 (R390) (DEDUCED, log entry 80). -/
def State.jtag (s : State) (code : Nat) (priv : Bool) (out : State → State) : State :=
  if priv && !s.par.testEn then { s with boot := { s.boot with jtagIr := jtagCode 0xFF } }
  else out { s with boot := { s.boot with jtagIr := jtagCode code } }

/-- MBIST: every memory tested, BOOT_BIST shifted out (R390). -/
def State.mbist (s : State) (core : BitVec 18) (spine control : Bool) : State :=
  let w := s.bistWord core spine control
  let s := s.wipe true
  { s with boot := { s.boot with bist := w, jtagOut := w.setWidth 32 } }

/-! ### The rows -/

/-- COLD_START (R358, R360): INST_ID is sampled (R383); TEST_EN at 1 holds the block in reset (R390). -/
def execColdStart (key : KeyPort) (inst : BitVec 6) (s : State) : Host.Outcome State Fault Refusal :=
  if s.boot.pend = some 0 ∧ !s.pwr.blockOff ∧ s.regionsUp ∧ !s.par.testEn then
    let s := { s with par := { s.par with instId := inst } }
    .next (settle s (s.startEntry 0 key))
  else .next (settle s s)

/-- WARM_START (R358, R361). -/
def execWarmStart (key : KeyPort) (s : State) : Host.Outcome State Fault Refusal :=
  .next (settle s (match s.boot.pend with
    | some k => if k ≠ 0 ∧ !s.mp.rstq ∧ !s.par.testEn then s.startEntry k key else s
    | none => s))

/-- BIST_COMPLETE (R360). -/
def execBistComplete (core : BitVec 18) (spine control aon : Bool) (s : State) : Host.Outcome State Fault Refusal :=
  .next (settle s (if s.inReset then s else s.bistEnd core spine control aon))

/-- LIMNY_RUNNING (R360). -/
def execLimnyRunning (pass : Bool) (s : State) : Host.Outcome State Fault Refusal :=
  .next (settle s (if s.inReset then s else s.limnyEnd pass))

/-- BOOT_WDOG_EXPIRY (R360). -/
def execBootWdogExpiry (at_ : Nat) (s : State) : Host.Outcome State Fault Refusal :=
  let s := s.elapseTo at_
  .next (settle s (if s.inReset then s else s.wdogEnd))

/-- IMAGE_RESUME (R224). -/
def execImageResume (s : State) : Host.Outcome State Fault Refusal := .next (settle s (if s.inReset then s else s.resumeEnd))

/-- JTAG_BYPASS (R390). -/
def execJtagBypass (s : State) : Host.Outcome State Fault Refusal := .next (settle s (s.jtag 0xFF false id))

/-- JTAG_IDCODE (R390). -/
def execJtagIdcode (s : State) : Host.Outcome State Fault Refusal :=
  .next (settle s (s.jtag 0x01 false (fun s => { s with boot := { s.boot with jtagOut := Params.idcode s.par } })))

/-- JTAG_MBIST (R390). -/
def execJtagMbist (core : BitVec 18) (spine control : Bool) (s : State) : Host.Outcome State Fault Refusal :=
  .next (settle s (s.jtag 0x20 true (fun s => s.mbist core spine control)))

/-- JTAG_SCAN (R390). -/
def execJtagScan (s : State) : Host.Outcome State Fault Refusal := .next (settle s (s.jtag 0x21 true id))

/-- WARM_RESET (R283). -/
def execWarmReset (s : State) : Host.Outcome State Fault Refusal := .next (settle s s.warmReset)

/-- POWER_ON_RESET (R284). -/
def execPowerOnReset (s : State) : Host.Outcome State Fault Refusal := .next (settle s s.lost)

end Sys2Proof.Machine
end

