-- ==== Sys2Proof/Machine/Bus.lean ====
section
/-! DEFINITION. The memory ports and the XLP as the outside answers them (10): read data and write responses (R270, R271, R281,
R293), translation answers (R276 to R280), quiesce (R282) and the end of a reset-time quiesce (R283). -/

namespace Sys2Proof.Machine

/-! ### After an answer -/

/-- Tags have come free, or data have arrived: requests go on, the configuration unit, the ROM, the rings and the event plane go
on, rows are fetched, a quiesce may end. -/
def State.afterPort (s : State) : State :=
  let s := s.quiesceCheck.rstCheck
  if s.inReset then s else (((((s.pump).cfgProgress).bootProgress).ringsGo).eventsGo).prefetch

/-- The request that holds tag `t` of a port in one direction. -/
def State.onTag (s : State) (port t : Nat) (write : Bool) : Option PReq :=
  s.mp.reqs.find? (fun r => decide (r.port = port) && (r.write == write) && decide (r.st = .issued t))

/-- A tag kept from step 5 of R283 comes back: its response is discarded and counted. -/
def State.lateBack (s : State) (port t : Nat) (write : Bool) : Option State :=
  let p := s.mport port
  match p.late.find? (fun l => decide (l.1 = t) && (l.2.2 == write)) with
  | some l =>
    let s := s.setMport port { p with late := p.late.erase l }
    some { s with mp := { s.mp with lateResp := satAdd s.mp.lateResp 1 max32 } }
  | none => none

/-- A TRANSLATE_FAULT response (R280): the entry that translated the request is removed, then R278 (DEDUCED, log entry 81). -/
def State.agentFault (s : State) (r : PReq) : State :=
  let s := (s.unack r.id).unlearn (fun e => decide (e.va ≤ r.va) && decide (r.va < e.va + e.size))
  s.faultReq { r with kinds := 0 } 0x0401

/-! ### Read data (R270, R271, R281) -/

/-- The kind that the rows of an error beat take (R281). -/
def errKind : Resp → Kinds
  | .noTarget => kTranslate
  | _ => kEcc

/-- Bytes made `n` long with zeros. -/
def fillTo (n : Nat) (l : List Byte) : List Byte := (l ++ List.replicate (n - l.length) 0).take n

/-- A beat taken into its request: DATA of a beat without OK is ignored, and its error applies to every row of the burst (R186,
R281); words with POISON are taken with the poison pattern (R271). -/
def PReq.beat (r : PReq) (data : List Byte) (resp : Resp) (poison : BitVec 2) : PReq :=
  let w := 2 * r.got
  match resp with
  | .ok => { r with
      got := r.got + 1, data := r.data ++ fillTo 64 data
      bad := r.bad ++ (if poison.getLsbD 0 then [w] else []) ++ (if poison.getLsbD 1 then [w + 1] else []) }
  | e => { r with
      got := r.got + 1, data := r.data ++ List.replicate 64 0
      kinds := r.kinds ||| errKind e, err := some (match r.err with | some x => if e = .translateFault then e else x | none => e) }

/-- Beats that never came: their words are lost, with kind ECC_UE (DEDUCED, log entry 81). -/
def PReq.short (r : PReq) : PReq :=
  if r.got < r.beats then
    { r with data := fillTo (64 * r.beats) r.data, bad := r.bad ++ ((List.range (2 * r.beats)).filter (fun w => decide (2 * r.got ≤ w))) }
  else r

/-- Whether a requester's errors are not retried (R218, R364). -/
def Requester.direct : Requester → Bool
  | .cfg _ | .boot => true
  | _ => false

/-- The last beat of a read burst (R270, R281). -/
def State.readDone (s : State) (r : PReq) (t : Nat) : State :=
  if r.dead then
    let s := s.dropReq r.id
    if r.who.core.isSome then s.portGhost r t else s
  else
    let done (s : State) : State := ((s.dropReq r.id).deliver r r.data r.bad r.kinds).noteRtt r
    match r.err with
    | none => done s
    | some .translateFault => s.agentFault { r with data := [], bad := [] }
    | some .noTarget => done (s.finalError r 0x0407 t)
    | some _ => if r.retried || r.who.direct then done (s.finalError r 0x0405 t) else s.deferReq r t

/-- A read beat of an outstanding burst. -/
def State.readBeat (s : State) (r : PReq) (t : Nat) (data : List Byte) (resp : Resp) (poison : BitVec 2) (last : Bool) : State :=
  if s.mp.rstq then
    if last then s.dropReq r.id else s
  else if r.got < r.beats then
    let x := r.beat data resp poison
    let s := s.onReq r.id (fun _ => x)
    let s := if last = decide (x.got = r.beats) then s else s.violation r.port t (some r)
    if last then s.readDone x.short t else s
  else if last then s.readDone r t
  else s

/-- Read data on a port (R270, R273, R283, R293) (DESIGN CHOICE, log entry 99). -/
def State.readData (s : State) (port t : Nat) (data : List Byte) (resp : Resp) (poison : BitVec 2) (last : Bool) : State :=
  match s.onTag port t false with
  | some r => (s.readBeat r t data resp poison last).afterPort
  | none =>
    match s.lateBack port t false with
    | some s' => if last then s'.afterPort else s
    | none => s.violation port t

/-! ### Write responses (R270, R281) -/

/-- The response to a write burst. -/
def State.writeDone (s : State) (r : PReq) (t : Nat) (resp : Resp) : State :=
  if s.mp.rstq then s.dropReq r.id
  else if r.dead then
    let s := s.dropReq r.id
    if r.who.core.isSome then s.portGhost r t else s
  else
    let lost (s : State) : State :=
      match r.who with
      | .spill _ _ _ => (s.unack r.id).onReq r.id (fun r => { r with err := some resp, st := .queued, dead := true })
      | _ => (s.dropReq r.id).lostWrite r
    match resp with
    | .ok =>
      let s := (s.dropReq r.id).noteRtt r
      match r.who with
      | .evRing n => s.evWrote n
      | _ => s
    | .translateFault => s.agentFault r
    | .noTarget => lost (s.finalError r 0x0407 t)
    | .dataErr => if r.retried then lost (s.finalError r 0x0406 t) else s.deferReq r t

/-- A write response on a port (DESIGN CHOICE, log entry 99). -/
def State.writeResp (s : State) (port t : Nat) (resp : Resp) : State :=
  match s.onTag port t true with
  | some r => (s.writeDone r t resp).afterPort
  | none =>
    match s.lateBack port t true with
    | some s' => s'.afterPort
    | none => s.violation port t

/-- MP_CTRL.RETRY_US in force (R281). -/
def State.retryUs (s : State) : Nat := clampLo (fld (s.reg 0x50200) 0 8) 1

/-- The retry of a burst falls due (R281). -/
def State.retryNow (s : State) (port t : Nat) : State :=
  match s.mp.reqs.find? (fun r => decide (r.port = port) && decide (r.st = .retry t)) with
  | none => s
  | some r =>
    if s.tu.ltc < r.at_ + s.ticksOf (1000 * s.retryUs) then s
    else
      let p := s.mport port
      let s := s.setMport port { p with retries := satAdd p.retries 1 max32 }
      (s.onReq r.id (fun r => { r with st := .queued })).tryReq r.id

/-! ### Translation (R276 to R280) -/

/-- A request may go on (R278): an instruction abandoned for it restarts once none of its requests waits, another request is sent. -/
def State.goOn (s : State) (r : PReq) : State :=
  let again (pc id : Nat) : State :=
    let s := s.dropReq r.id
    if s.mp.reqs.any (fun q => decide (q.who = r.who) && q.wait.isSome) then s
    else s.onFlight pc id (fun f => match f.phase with
      | .restart _ p => { f with phase := .restart true p }
      | _ => f)
  match r.who with
  | .row pc id | .tst pc id =>
    if r.wait.isSome then again pc id else (s.onReq r.id (fun r => { r with st := .queued })).tryReq r.id
  | _ => (s.onReq r.id (fun r => { r with st := .queued })).tryReq r.id

/-- A request looked up again (R276): a hit lets it go on, a miss asks the agent, and so does a cached entry that forbids the access
when `again` retries the translation (R278). -/
def State.lookAgain (s : State) (r : PReq) (again : Bool := false) : State :=
  match s.lookup r with
  | .hit _ => s.goOn r
  | .fault c => if again ∧ c = 0x0402 then (s.onReq r.id (fun r => { r with at_ := s.tu.ltc })).askXlp r else s.faultReq r c
  | .miss => (s.onReq r.id (fun r => { r with at_ := s.tu.ltc })).askXlp r

/-- The code of a fault answer (R276, R296). -/
def faultCode : XStatus → Nat
  | .notPresent => 0x0401 | .noPermission => 0x0402 | _ => 0x0403

/-- Outstanding request `i` on the XLP ends: those that wait on it. -/
def State.xlpEnd (s : State) (i : Nat) : State × List PReq :=
  ({ s with mp := { s.mp with xreqs := s.mp.xreqs.filter (fun x => decide (x.id ≠ i)) } },
   s.mp.reqs.filter (fun r => decide (r.st = .xlp i)))

/-- An answer of the translation agent (R276). -/
def State.xlpAnswer (s : State) (i : Nat) (a : XlateAnswer) : State :=
  match s.mp.xreqs.find? (fun x => decide (x.id = i)) with
  | none => s.violation (2 * (i / 64 % 4)) i
  | some x =>
    let (s, rs) := s.xlpEnd i
    if x.stale then s.afterPort
    else
      match a.status with
      | .ok =>
        let n := pageSize a.page
        let e : TlbEntry := { va := x.va / n * n, size := n, pa := a.pa.toNat / n * n, read := a.read, write := a.write }
        let s := s.learn (i / 64) ((rs.head?).bind (fun r => r.who.core)) e
        (rs.foldl (fun s r => s.lookAgain r) s).afterPort
      | st => (rs.foldl (fun s r => s.faultReq r (faultCode st)) s).afterPort

/-- XLP_TIMEOUT passes without an answer (R276): an agent error. -/
def State.xlpLate (s : State) (i : Nat) : State :=
  match s.mp.xreqs.find? (fun x => decide (x.id = i)) with
  | none => s
  | some x =>
    if s.tu.ltc < x.at_ + s.ticksOf (1000 * fld (s.reg 0x50408) 0 16) then s
    else
      let (s, rs) := s.xlpEnd i
      if x.stale then s.afterPort else (rs.foldl (fun s r => s.faultReq r 0x0403) s).afterPort

/-- An invalidation by the agent (R277): `va` and `n` in pages of 4 KB.  Its acknowledgement waits for the transactions that were
translated through an entry it removes (DEDUCED, log entry 81). -/
def State.invalidate (s : State) (pasid va n : Nat) (all : Bool) : State :=
  let hit (e : TlbEntry) : Bool :=
    all || (decide (pasid = fld (s.reg 0x50400) 0 20) && decide (e.va < 4096 * (va + n)) && decide (4096 * va < e.va + e.size))
  let es := (s.mp.tlbs.flatMap (fun e => e.2) ++ s.cores.flatMap (fun e => e.2.slice)).filter hit
  let open_ := (s.mp.reqs.filter (fun r => r.onPort && (match r.who with | .boot => false | _ => true) && (tlbFind es r.va).isSome)).map (fun r => r.id)
  let s := s.unlearn hit
  if open_.isEmpty then s else { s with mp := { s.mp with invAck := s.mp.invAck ++ [open_] } }

/-- XLP_RETRY passes for a waiting request (R278). -/
def State.xlpAgain (s : State) (i : Nat) : State :=
  match s.req i with
  | none => s
  | some r =>
    match r.st with
    | .faulted _ =>
      if s.mp.quiesce || s.mp.rstq || decide (s.tu.ltc < r.at_ + s.ticksOf (100 * clampLo (fld (s.reg 0x50404) 0 16) 1)) then s
      else s.lookAgain r true
    | _ => s

/-- FLIMIT passes for a waiting request (R278): XLATE 0x0404, then as under POISON; an abandoned instruction reissues. -/
def State.flimitEnd (s : State) (i : Nat) : State :=
  match s.req i with
  | none => s
  | some r =>
    match r.wait, r.chan with
    | some t, some c =>
      if s.tu.ltc < t + s.ticksOf (1000 * s.flimit c) || r.onPort then s
      else
        let s := s.xlateRec 0x0404 r (s.faultRow r)
        match r.who with
        | .row pc id | .tst pc id =>
          let gone := s.mp.reqs.filter (fun q => decide (q.who = r.who) && q.wait.isSome)
          let s := gone.foldl (fun s q => s.dropReq q.id) s
          s.onFlight pc id (fun f => match f.phase with | .restart _ _ => { f with phase := .restart true true } | _ => f)
        | _ => (((s.poisonReq r kTranslate).ringsGo).eventsGo).prefetch
    | _, _ => s

/-- Every entry of every TLB and slice removed (R276). -/
def State.tlbClear (s : State) : State := s.unlearn (fun _ => true)

/-- A write of XLP_CFG (R276): a change of PASID removes every entry, and what waits on an answer asks again. -/
def State.pasidWrite (s : State) (pasid : BitVec 20) (en : Bool) : State :=
  let old := fld (s.reg 0x50400) 0 20
  let s := s.setReg 0x50400 (pack [(0, 20, pasid.toNat), (31, 1, b2n en)])
  if old = pasid.toNat then s
  else
    let waits := s.mp.reqs.filter (fun r => match r.st with | .xlp _ => true | _ => false)
    let s := s.tlbClear
    let s := { s with mp := { s.mp with
      xreqs := s.mp.xreqs.map (fun (x : XReq) => { x with stale := true })
      reqs := s.mp.reqs.map (fun (r : PReq) => match r.st with
        | .xlp _ => { r with st := match r.wait with | some t => .faulted t | none => .queued }
        | _ => r) } }
    waits.foldl (fun s r => if r.wait.isSome then s.lookAgain r else s.tryReq r.id) s

/-! ### Quiesce (R282, R283) -/

/-- QUIESCE_REQ rises. -/
def State.quiesceUp (s : State) : State :=
  if s.mp.quiesce then s
  else { s with mp := { s.mp with quiesce := true, ack := false, qSince := s.tu.ltc, qHeld := s.allTags } }.quiesceCheck

/-- QUIESCE_REQ falls: what was held goes on. -/
def State.quiesceDown (s : State) : State :=
  { s with mp := { s.mp with quiesce := false, ack := false } }.afterPort

/-- Tags still held after 4 µs: the port keeps them, and reset is let through (R283 step 5) (DEDUCED, log entry 81). -/
def State.rstLate (s : State) : State :=
  if !s.mp.rstq || decide (s.tu.ltc < s.mp.rstSince + s.ticksOf 4000) then s
  else
    let held := s.mp.reqs.filter PReq.onPort
    let s := held.foldl (fun s r =>
      match r.st with
      | .issued t => (s.dropReq r.id).setMport r.port { s.mport r.port with late := (s.mport r.port).late ++ [(t, r.beats, r.write)] }
      | _ => s) s
    let s := s.rstPass
    ((List.range 8).filter (fun p => !(s.mport p).late.isEmpty)).foldl (fun s p => s.mpFault 0x040B p 0 0 0) s

/-! ### The rows -/

/-- MP_READ_DATA (R270). -/
def execMpReadData (port tag : Nat) (data : List Byte) (resp : Resp) (poison : BitVec 2) (last : Bool) (s : State) :
    Host.Outcome State Fault Refusal := .next (settle s (s.readData port tag data resp poison last))

/-- MP_WRITE_RESPONSE (R270). -/
def execMpWriteResponse (port tag : Nat) (resp : Resp) (s : State) : Host.Outcome State Fault Refusal :=
  .next (settle s (s.writeResp port tag resp))

/-- MP_RETRY (R281). -/
def execMpRetry (port tag at_ : Nat) (s : State) : Host.Outcome State Fault Refusal :=
  let s := s.elapseTo at_
  .next (settle s (s.retryNow port tag))

/-- XLP_RESPONSE (R276). -/
def execXlpResponse (i : Nat) (a : XlateAnswer) (s : State) : Host.Outcome State Fault Refusal := .next (settle s (s.xlpAnswer i a))

/-- XLP_REQUEST_TIMEOUT (R276). -/
def execXlpRequestTimeout (i at_ : Nat) (s : State) : Host.Outcome State Fault Refusal :=
  let s := s.elapseTo at_
  .next (settle s (s.xlpLate i))

/-- XLP_INVALIDATE (R277). -/
def execXlpInvalidate (pasid va n : Nat) (all : Bool) (s : State) : Host.Outcome State Fault Refusal :=
  .next (settle s (s.invalidate pasid va n all))

/-- XLP_RETRY (R278); `wait` is the number of the waiting request. -/
def execXlpRetry (wait at_ : Nat) (s : State) : Host.Outcome State Fault Refusal :=
  let s := s.elapseTo at_
  .next (settle s (s.xlpAgain wait))

/-- FLIMIT_EXPIRY (R278). -/
def execFlimitExpiry (wait at_ : Nat) (s : State) : Host.Outcome State Fault Refusal :=
  let s := s.elapseTo at_
  .next (settle s (s.flimitEnd wait))

/-- QUIESCE_REQ_RISE (R282). -/
def execQuiesceReqRise (s : State) : Host.Outcome State Fault Refusal := .next (settle s s.quiesceUp)

/-- QUIESCE_REQ_FALL (R282). -/
def execQuiesceReqFall (s : State) : Host.Outcome State Fault Refusal := .next (settle s s.quiesceDown)

/-- RESET_QUIESCE_TIMEOUT (R283). -/
def execResetQuiesceTimeout (at_ : Nat) (s : State) : Host.Outcome State Fault Refusal :=
  let s := s.elapseTo at_
  .next (settle s s.rstLate)

/-! ### RING_POLL (R184) -/

/-- An OK beat that answers a read of `who` which is on its port. -/
def State.answer (s : State) (who : Requester) (beat : PReq → List Byte) : State :=
  match s.mp.reqs.find? (fun q => decide (q.who = who)) with
  | some q =>
    match q.st with
    | .issued t => s.readData q.port t (beat q) .ok 0 (decide (q.beats ≤ q.got + 1))
    | _ => s
  | none => s

/-- What the engine's memory answers at once to a poll: the index word, then lines of 64 bytes of the descriptor array
(DESIGN CHOICE, log entry 63). -/
def State.ringAnswer (s : State) (r : Nat) (index : Option Word) (descs : List (List Byte)) : State :=
  let s := match index with
    | some w => s.answer (.ringIdx r) (fun q => padTo 64 0 (List.replicate q.lo 0 ++ leBytes 4 w.toNat))
    | none => s
  descs.foldl (fun s d => s.answer (.ringDesc r) (fun _ => d)) s

/-- RING_POLL (R184): a ring that does not poll now takes no answer; answers that come later come with MP_READ_DATA
(DESIGN CHOICE, log entry 63). -/
def execRingPoll (r : Nat) (index : Option Word) (descs : List (List Byte)) (at_ : Nat) (s : State) :
    Host.Outcome State Fault Refusal :=
  let s := s.elapseTo at_
  .next (settle s (if s.pollReady r then (s.ringPoll r).ringAnswer r index descs else s))

end Sys2Proof.Machine
end

