-- ==== Sys2Proof/Machine/View.lean ====
section
/-! DEFINITION. What a read of a register or window word on the HCP answers (R3, R6, R7, R397 and the register tables of 02 to 14).
No row of the command table is an ordinary read; the views say what each register shows of the state, and `State.hcpRead` what a
read does to the read latches. -/

namespace Sys2Proof.Machine

/-- A signed value as a field of `w` bits. -/
def sfld (v : Int) (w : Nat) : Nat := unsigned v w

/-- The word `k` of a number. -/
def word32 (n k : Nat) : Nat := n / 2 ^ (32 * k) % 2 ^ 32

/-- Bits `lo` on of a word: `f i` for each `i` below `n`. -/
def bitsOf (lo n : Nat) (f : Nat → Bool) : List (Nat × Nat × Nat) := (List.range n).map (fun i => (lo + i, 1, b2n (f i)))

/-! ### Global bank (14) -/

def sizeCode : Size → Nat
  | .mpx4 => 0 | .mpx8 => 1 | .mpx16 => 2

/-- The global bank. -/
def State.viewGlobal (s : State) (o : Nat) : Word :=
  let p := s.par
  if o = 0x0 then pack [(0, 24, 0x4D5058), (24, 8, p.stepping.toNat)]
  else if o = 0x4 then
    pack [(0, 2, sizeCode p.size), (2, 5, p.npc), (7, 5, p.nlc), (12, 2, p.nspare), (14, 6, 2 ^ p.ncg - 1), (20, 5, p.npc),
      (25, 1, b2n p.rtl)]
  else if o = 0x8 then
    pack [(0, 2, p.cmSlices), (2, 1, b2n p.slowclkEn), (3, 1, b2n p.srpEn), (4, 10, p.railBootMv), (14, 8, p.refStartUs)]
  else if o = 0xC then pack [(0, 6, p.instId.toNat)]
  else if o = 0x40 then pack (bitsOf 0 16 (fun l => s.intLevel l))
  else if o = 0x64 then pack [(0, 32, s.ev.traceDrop)]
  else if 0x80 ≤ o ∧ o < 0xC0 then
    let l := (o - 0x80) / 4
    pack [(0, 1, b2n (s.lineDet l)), (1, 1, b2n (s.lineRing l)), (2, 1, b2n (s.lineBoot l)), (3, 1, b2n (bit (s.reg 0x48) l))]
  else s.reg o

/-! ### Time unit and gong (02, 09) -/

/-- An entry of the sleep ledger. -/
def Ledger.view (e : Ledger) (o : Nat) : Nat :=
  match o with
  | 0x0 => word32 e.entry 0 | 0x4 => word32 e.entry 1 | 0x8 => word32 e.exit 0 | 0xC => word32 e.exit 1
  | 0x10 => e.slow
  | 0x14 => e.state % 8 + 8 * b2n e.slowclk + 16 * b2n e.valid
  | _ => 0

/-- The registers of time (DEDUCED, log entry 86). -/
def State.viewTime (s : State) (o : Nat) : Word :=
  let t := s.tu
  let n (v : Nat) : Word := BitVec.ofNat 32 v
  let ofs := sfld (t.offset % 65536) 16
  let ns := t.offset / 65536
  if o = 0x0 then
    pack [(0, 1, b2n t.invalid), (1, 1, b2n t.coarse), (2, 1, b2n t.locked), (3, 1, b2n (t.pllK.isSome && s.tuRuns)),
      (8, 8, t.epoch), (16, 1, b2n t.slewSat)]
  else if o = 0x8 then n (word32 t.ltc 0)
  else if o = 0xC then n (word32 t.ltc 1)
  else if o = 0x10 then pack [(0, 16, s.fraction), (16, 3, t.rem)]
  else if o = 0x18 then n (word32 t.rate 0)
  else if o = 0x1C then n (word32 t.rate 1)
  else if o = 0x28 then n ofs
  else if o = 0x2C then n (sfld (ns % 1000000000) 32)
  else if o = 0x30 then n (word32 (sfld (ns / 1000000000) 48) 0)
  else if o = 0x34 then n (word32 (sfld (ns / 1000000000) 48) 1)
  else if o = 0x38 then n (word32 s.stamp 0)
  else if o = 0x3C then n (word32 s.stamp 1)
  else if o = 0x70 then n (err32 t.lastE)
  else if o = 0x74 then n t.ppb
  else if o = 0x78 then n t.stepCnt
  else if o = 0x7C then n t.pulseMiss
  else if o = 0x88 then n (word32 (sfld s.gong.lastN 64) 0)
  else if o = 0x8C then n (word32 (sfld s.gong.lastN 64) 1)
  else if o = 0x1FC then n (t.ledgerHead % 16)
  else if 0x200 ≤ o ∧ o < 0x400 then n ((SMap.get t.ledger Ledger.reset ((o - 0x200) / 0x20)).view (o % 0x20))
  else s.reg (0x10000 + o)

/-- The gong registers. -/
def State.viewGong (s : State) (o : Nat) : Word :=
  let g := s.gong
  let n (v : Nat) : Word := BitVec.ofNat 32 v
  if o = 0x400 then
    pack [(0, 1, b2n g.en), (1, 1, b2n g.modePend), (2, 1, b2n g.log), (8, 6, fld (s.reg 0x10400) 8 6),
      (16, 6, fld (s.reg 0x10400) 16 6)]
  else if o = 0x408 then n g.period
  else if o = 0x40C then n g.strokes
  else if o = 0x420 then pack [(0, 4, fld (s.reg 0x10420) 0 4), (8, 1, b2n g.arm)]
  else if o = 0x428 then n (word32 g.gsn.toNat 0)
  else if o = 0x42C then n (word32 g.gsn.toNat 1)
  else if o = 0x430 then
    pack [(0, 4, g.type), (4, 6, g.pidx), (10, 5, g.stroke), (16, 1, b2n g.running), (17, 1, b2n g.inCurfew)]
  else if o = 0x434 then n g.skipCnt
  else if o = 0x438 then n g.overrun
  else if o = 0x43C then n g.lateCnt
  else if 0x500 ≤ o ∧ o < 0x520 then SMap.get g.pattern 0 ((o - 0x500) / 4)
  else if 0x600 ≤ o ∧ o < 0x680 then
    let l := (o - 0x600) / 8
    if s.par.nlc ≤ l then 0 else if o % 8 = 0 then (s.lc l).marginLast else (s.lc l).marginMin
  else if 0x680 ≤ o ∧ o < 0x6C0 then
    let l := (o - 0x680) / 4
    if s.par.nlc ≤ l then 0 else n (s.lc l).cuts
  else if o = 0x440 then 0
  else s.reg (0x10000 + o)

/-! ### Power (11) -/

/-- The power bank (DEDUCED, log entry 86). -/
def State.viewPower (s : State) (o : Nat) : Word :=
  let p := s.pwr
  let n (v : Nat) : Word := BitVec.ofNat 32 v
  if o = 0x0 then pack ((List.range 9).map (fun g => (3 * g, 3, if s.hasRegion g then (s.region g).state.code else 0)))
  else if o = 0x18 then pack [(0, 4, p.lastSrc), (4, 9, p.lastRgn.toNat)]
  else if o = 0x1C then n (word32 p.lastLtc 0)
  else if o = 0x20 then n (word32 p.lastLtc 1)
  else if o = 0x24 then n p.railMv
  else if o = 0x28 then pack [(0, 10, fld (s.reg 0x20028) 0 10), (31, 1, b2n p.srpBusy)]
  else if o = 0x2C then pack [(0, 1, b2n p.srpBusy), (1, 1, b2n p.srpFail), (8, 8, p.srpTmo)]
  else if 0x100 ≤ o ∧ o < 0x160 then
    let g := (o - 0x100) / 0x10
    let r := s.region g
    if s.par.ncg ≤ g then 0
    else
      match o % 0x10 with
      | 0x0 => n r.mhz
      | 0x4 => n r.mv
      | 0x8 => n (sfld r.temp 11)
      | 0xC => (match r.force with | some f => pack [(0, 1, 1), (4, 12, f)] | none => 0)
      | _ => 0
  else if o = 0x168 then n (sfld (s.region 6).temp 11)
  else if o = 0x16C then n p.spineMhz
  else if 0x200 ≤ o ∧ o < 0x280 then
    let g := (o - 0x200) / 0x10
    if !s.hasRegion g then 0
    else
      match o % 0x10 with
      | 0x0 => n (word32 (s.votes g) 0)
      | 0x4 => n (word32 (s.votes g) 1)
      | _ => n (s.region g).driver.toNat
  else if o = 0x300 then n p.budget
  else if o = 0x304 then n p.ramp
  else if o = 0x308 then pack [(0, 16, fld (s.reg 0x20308) 0 16), (16, 1, b2n p.throttled)]
  else if o = 0x30C then
    pack [(0, 16, p.admitted), (16, 7, p.tokens / tokenScale), (23, 5, p.fgQ.length), (28, 4, min p.bgQ.length 15)]
  else if o = 0x310 then n p.grants
  else if o = 0x314 then n p.revokes
  else if o = 0x318 then n p.withdraws
  else if o = 0x4 then n (fld (s.reg 0x20004) 8 8 * 256)
  else s.reg (0x20000 + o)

/-! ### Safety (12) -/

/-- The safety bank. -/
def State.viewSafety (s : State) (o : Nat) : Word :=
  let m := s.sm
  let n (v : Nat) : Word := BitVec.ofNat 32 v
  if o = 0x4 then
    pack [(0, 1, b2n (m.simplex.getLsbD 0)), (1, 1, b2n (m.simplex.getLsbD 1)), (2, 1, b2n m.ptestFail),
      (3, 1, b2n (!m.drains.isEmpty))]
  else if o = 0x8 then n m.detStatus.toNat
  else if o = 0x20 then n m.fenced.toNat
  else if 0x24 ≤ o ∧ o < 0x30 then
    let w := (o - 0x24) / 4
    pack ((List.range 8).map (fun k => (4 * k, 4, if s.hasCore (8 * w + k) then s.incOf (8 * w + k) else 0)))
  else if 0x30 ≤ o ∧ o < 0x40 then
    let w := (o - 0x30) / 4
    pack ((List.range 4).flatMap (fun j =>
      match (s.lc (4 * w + j)).pc with
      | some pc => [(8 * j, 5, pc), (8 * j + 7, 1, 1)]
      | none => []))
  else if o = 0x44 then n m.knells
  else if o = 0x4C then pack [(0, 1, b2n m.diagBusy), (1, 1, b2n m.diagPass), (4, 5, m.diagPc)]
  else if o = 0x50 then pack [(0, 5, fld (s.reg 0x30050) 0 5), (31, 1, b2n (!m.unknell.isEmpty))]
  else if o = 0x60 then n m.scrubRnd
  else if o = 0x64 then n m.scrubCe
  else if o = 0x68 then n m.scrubUe
  else if o = 0x70 then pack [(0, 5, m.ptestDet), (8, 24, m.cycles)]
  else if o = 0x80 then pack [(0, 16, m.lastCode), (16, 5, m.lastDet)]
  else if o = 0x84 then n m.resets
  else if 0x100 ≤ o ∧ o < 0x180 then SMap.get m.detEntry 0 ((o - 0x100) / 4)
  else if 0x200 ≤ o ∧ o < 0x280 then n (SMap.get m.detCnt 0 ((o - 0x200) / 4))
  else if 0x300 ≤ o ∧ o < 0x380 ∧ o % 8 = 4 then
    let i := SMap.get m.inj Inj.reset ((o - 0x300) / 8)
    pack [(0, 16, i.count), (16, 1, b2n i.armed)]
  else s.reg (0x30000 + o)

/-! ### Configuration (06, 08) -/

def CfgState.code : CfgState → Nat
  | .empty => 0 | .loading => 1 | .verify => 2 | .writing => 3 | .staged => 4 | .armed => 5 | .failed => 6

/-- Whether a pair is not CLOSED (R227). -/
def PairLatch.some_ (x : PairLatch) : Bool := x.a.isSome || x.b.isSome

/-- HIST_STATE (06). -/
def Hist.view (h : Hist) : Word :=
  let b : Int := match h.ring with | [] => 0 | x :: xs => xs.foldl max x
  pack [(0, 8, sfld b 8), (8, 8, sfld (h.acc.getD 0) 8), (16, 5, h.ring.length), (21, 1, b2n h.acc.isSome),
    (22, 1, b2n h.adapt), (23, 8, sfld h.latch 8)]

/-- The configuration bank (DEDUCED, log entry 86). -/
def State.viewCfg (s : State) (o : Nat) : Word :=
  let c := s.cfg
  let n (v : Nat) : Word := BitVec.ofNat 32 v
  let open_ (i : PairId) : Bool := (s.pair i).some_
  if o = 0xC then
    pack [(2, 1, b2n (c.latched || decide (c.state = .armed))), (3, 2, fld (s.reg 0x4000C) 3 2), (5, 1, b2n c.restore),
      (8, 4, fld (s.reg 0x4000C) 8 4)]
  else if o = 0x10 then
    pack [(0, 3, c.state.code), (3, 1, b2n c.activeValid),
      (4, 1, b2n (match c.active with | some im => im.signed | none => false)), (5, 3, c.map), (8, 4, c.tries),
      (12, 1, b2n (decide (c.state = .armed))), (16, 16, c.code)]
  else if o = 0x14 then c.activeId
  else if o = 0x18 then c.stagedId
  else if o = 0x1C then
    pack [(0, 16, unsigned c.margin.slack 16), (16, 5, c.margin.spares), (21, 5, c.margin.healthy)]
  else if o = 0x20 then c.commitGsn
  else if o = 0x24 then n c.carryHeld
  else if o = 0x30 then
    pack [(0, 1, b2n (open_ .gong)), (1, 1, b2n (open_ .admission)), (2, 1, b2n (c.pairPart.any (fun e => e.2.some_))),
      (3, 1, b2n (c.pairQueue.any (fun e => e.2.some_))), (4, 1, b2n (c.pairPeal.any (fun e => e.2.some_))),
      (5, 1, b2n (c.pairRegion.any (fun e => e.2.some_)))]
  else if o = 0x34 then
    pack (bitsOf 0 16 (fun p => open_ (.partition p)) ++ bitsOf 16 16 (fun p => (s.pair (.partition p)).complete))
  else if o = 0x38 then pack (bitsOf 0 32 (fun g => open_ (.peal g)))
  else if o = 0x3C then pack (bitsOf 0 32 (fun g => open_ (.peal (32 + g))))
  else if o = 0x40 then
    pack (bitsOf 0 6 (fun g => open_ (.region g)) ++ bitsOf 8 6 (fun g => (s.pair (.region g)).complete))
  else if o = 0x44 then n (c.pairQueue.filter (fun e => e.2.some_)).length
  else if o = 0xB0 then n (b2n c.keyLock)
  else if 0x1000 ≤ o ∧ o < 0x1800 then
    let l := (o - 0x1000) / 0x80
    let h := SMap.get (s.lc l).hist Hist.reset ((o - 0x1000) / 8 % 16)
    if s.par.nlc ≤ l then 0
    else if o % 8 = 0 then (s.reg (0x40000 + o)) ||| (if h.clr then 0x80000000 else 0)
    else h.view
  else s.reg (0x40000 + o)

/-! ### Memory ports, translation and matrix (10) -/

/-- The memory-port bank. -/
def State.viewPort (s : State) (o : Nat) : Word :=
  let m := s.mp
  let n (v : Nat) : Word := BitVec.ofNat 32 v
  if o < 0x200 then
    let p := o / 0x40
    let x := s.mport p
    match o % 0x40 with
    | 0x0 =>
      let r := s.tagCount p false
      let w := s.tagCount p true
      pack [(0, 12, r), (12, 11, w), (24, 1, b2n (m.quiesce && decide (r = 0) && decide (w = 0))), (25, 1, b2n (!x.late.isEmpty))]
    | 0x4 => n x.rdErr | 0x8 => n x.wrErr | 0xC => n x.retries | 0x10 => n x.ghosts
    | 0x14 => n (word32 x.faultAddr 0) | 0x18 => n (word32 x.faultAddr 1)
    | 0x1C => pack [(0, 16, x.faultCode), (16, 11, x.faultSrc)]
    | _ => 0
  else if o = 0x40C then 0
  else if 0x410 ≤ o ∧ o < 0x430 then
    let k := (o - 0x410) / 8
    if o % 8 = 0 then n (s.tlb k).length else n (SMap.get m.tlbMiss 0 k)
  else if o = 0x430 then n m.xlateFault
  else if o = 0x500 then pack [(0, 1, b2n m.quiesce), (1, 1, b2n m.ack)]
  else if o = 0x504 then n m.rstqCnt
  else if o = 0x508 then n m.lateResp
  else if o = 0x50C then pack [(0, 16, m.rstqLast)]
  else if o = 0x600 then pack [(0, 2, s.par.cmSlices), (8, 1, fld (s.reg 0x50600) 8 1)]
  else if o = 0x604 then n m.cmMiss
  else if o = 0x608 then n m.cmOff
  else if o = 0x60C then n m.cmOrphan
  else if o = 0x610 then n m.cmGhost
  else if o = 0x614 then n m.cmLastAddr
  else if o = 0x618 then pack [(0, 3, m.cmLastMst), (16, 16, m.cmLastCode)]
  else if o = 0x61C then n m.hcpRst
  else s.reg (0x50000 + o)

/-! ### Streams (07) -/

/-- Buffers of the HANDLE partitions. -/
def State.handleBuffers (s : State) : List Nat :=
  (List.range 16).flatMap (fun p => if (s.part p).reserved then [] else bufRange (s.part p).base (s.part p).size)

/-- Whether a queue holds a handle of a pool buffer. -/
def State.queuedBuf (s : State) (b : Nat) : Bool :=
  s.st.queues.any (fun e => e.2.handles.any (fun h => !hExternal h.handle && !isPlaceholder h.handle && decide (hIndex h.handle = b)
    && h.spilling.isNone))

/-- Two 10-bit numbers in a word, as in PEAL_RQ. -/
def twoNums (l : List Nat) (i : Nat) : Word := pack [(0, 10, l.getD (2 * i) 0), (16, 10, l.getD (2 * i + 1) 0)]

/-- The stream bank (DEDUCED, log entry 33) (DEDUCED, log entry 86). -/
def State.viewStream (s : State) (o : Nat) : Word :=
  let t := s.st
  let n (v : Nat) : Word := BitVec.ofNat 32 v
  let used := s.handleBuffers.filter (fun b => !s.bufFree b)
  if o = 0x0 then n (((List.range 16).map (fun p => if (s.part p).reserved then 0 else (s.part p).free.length)).foldl (· + ·) 0)
  else if o = 0x4 then n (used.filter (fun b => s.queuedBuf b)).length
  else if o = 0x8 then n (used.filter (fun b => !s.queuedBuf b)).length
  else if o = 0x10 then t.ovfLo
  else if o = 0x14 then t.ovfHi
  else if o = 0x18 then t.ovfCfg
  else if o = 0x1C then n t.ovfUsed.length
  else if o = 0x20 then n t.dlCnt
  else if o = 0x24 then n t.spillCnt
  else if o = 0x28 then n t.abortCnt
  else if o = 0x30 then pack [(0, 1, b2n t.auditOk), (1, 1, b2n t.auditBad)]
  else if o = 0x34 then t.auditGsn
  else if o = 0x38 then n t.genErr
  else if o = 0x3C then 0
  else if 0x1000 ≤ o ∧ o < 0x1100 then
    let p := s.part ((o - 0x1000) / 0x10)
    match o % 0x10 with
    | 0x0 => n p.base | 0x4 => n p.size
    | 0x8 => pack [(0, 1, b2n p.reserved), (12, 13, p.floor)]
    | 0xC => n p.free.length
    | _ => 0
  else if 0x2000 ≤ o ∧ o < 0x2800 then
    let g := (o - 0x2000) / 0x20
    let p := s.peal g
    match o % 0x20 with
    | 0x0 => n p.rmask.toNat | 0x4 => n p.rcount | 0x8 => s.reg (0x60000 + o) | 0xC => n p.shed.toNat
    | k => if 0x10 ≤ k then twoNums p.rq ((k - 0x10) / 4) else 0
  else if 0x3000 ≤ o ∧ o < 0x4000 then
    let i := (o - 0x3000) / 0x40
    let c := s.chan i
    match o % 0x40 with
    | 0x0 => pack [(0, 8, fld c.cfg 0 8), (8, 1, fld (s.reg (0x60000 + o)) 8 1), (12, 20, fld c.cfg 12 20)]
    | 0x4 => s.reg (0x60000 + o)
    | 0x8 =>
      pack [(0, 12, s.chanTags i), (12, 8, ((c.win.filter (fun w => w.ready)).map (fun w => w.place / 4096)).eraseDups.length), (20, 1, b2n c.atStop)]
    | 0x10 => n (word32 c.bytes 0) | 0x14 => n (word32 c.bytes 1)
    | 0x18 => pack [(0, 16, c.rttAvg), (16, 16, c.rttMax)]
    | _ => 0
  else if 0x4000 ≤ o ∧ o < 0x8000 then
    let i := (o - 0x4000) / 0x10
    let q := s.queue i
    match o % 0x10 with
    | 0x0 => n q.depth | 0x4 => n q.init
    | 0x8 => pack [(0, 4, fld (s.reg (0x60000 + o)) 0 4), (4, 6, q.peal), (10, 1, b2n q.entry)]
    | 0xC => pack [(0, 9, q.handles.length), (9, 9, q.credits), (18, 1, b2n (s.pair (.queue i)).some_)]
    | _ => 0
  else if 0x8000 ≤ o ∧ o < 0x8200 then
    let p := s.sport ((o - 0x8000) / 0x40)
    match o % 0x40 with
    | 0x0 => pack [(0, 20, fld p.cfg 0 20)]
    | 0x4 => pack [(0, 8, min 255 p.credits)]
    | 0x8 => n p.frames
    | k => if 0x10 ≤ k ∧ k < 0x30 then twoNums p.qlist ((k - 0x10) / 4) else 0
  else if 0x9000 ≤ o ∧ o < 0x9400 then
    let r := s.ring ((o - 0x9000) / 0x40)
    let k := o % 0x40
    if k < 0x20 then r.reg k else if k = 0x20 then r.prod else if k = 0x24 then r.cons else 0
  else s.reg (0x60000 + o)

/-! ### Event plane and boot (09, 13) -/

/-- The event-plane bank. -/
def State.viewEvent (s : State) (o : Nat) : Word :=
  let n (v : Nat) : Word := BitVec.ofNat 32 v
  if o < 0x200 ∧ o % 0x40 = 0xC then n (s.evRing (o / 0x40)).prod
  else if o = 0x240 then n s.ev.dropCnt
  else if o = 0x244 then n s.ev.buf.length
  else s.reg (0x70000 + o)

/-- The boot bank. -/
def State.viewBoot (s : State) (o : Nat) : Word :=
  let b := s.boot
  let n (v : Nat) : Word := BitVec.ofNat 32 v
  if o = 0x8 then pack [(8, 5, fld (s.reg 0x80008) 8 5)]
  else if o = 0xC then
    pack [(0, 3, b.state.code), (3, 1, b2n b.ready), (4, 2, b.kind), (8, 2, b.fsc), (10, 1, b2n b.addrValid)]
  else if o = 0x10 then pack [(0, 16, b.code), (16, 16, b.detail)]
  else if o = 0x14 then b.fwVer
  else if o = 0x18 then n b.fwSvn.toNat
  else if o = 0x1C then n b.key.svn.toNat
  else if o = 0x20 then n b.bist.toNat
  else if o = 0x28 then n b.time
  else if o = 0x2C then n b.starts
  else if o = 0x30 then pack [(0, 8, fld (s.reg 0x80030) 0 8), (30, 1, b2n b.monErr)]
  else if o = 0x38 then b.monData
  else if 0x40 ≤ o ∧ o < 0x4C then n (b.hist.getD ((o - 0x40) / 4) 0)
  else if 0x80 ≤ o ∧ o < 0xB0 then n (word32 b.key.digest.toNat ((o - 0x80) / 4))
  else s.reg (0x80000 + o)

/-! ### Core banks (03 to 07) -/

/-- A context that runs a list, its index and its held mallet in CU_STATUS. -/
def Context.view (x : Context) : Nat × Nat × Nat := (b2n x.list.isSome, x.index, b2n x.held.isSome)

/-- The bank of a core (DEDUCED, log entry 86). -/
def State.viewCore (s : State) (pc o : Nat) : Word :=
  let k := s.core pc
  let n (v : Nat) : Word := BitVec.ofNat 32 v
  let rs (f : RSlot → Bool) : Nat → Bool := fun i => f (k.slot i)
  if o = 0x100 then pack [(0, 1, b2n k.part), (8, 1, b2n k.partPend.isSome)]
  else if o = 0x104 then
    pack [(0, 3, k.freeSlots.length), (4, 3, k.flight.length), (7, 1, b2n k.partPend.isSome)]
  else if o = 0x108 then pack (bitsOf 0 28 (fun t => decide (t < regCount k.part) && !(k.tile t).bad.isEmpty))
  else if o = 0x110 then n k.cnt.latchHit
  else if o = 0x114 then n k.cnt.latchMiss
  else if o = 0x118 then n k.cnt.restart
  else if o = 0x11C then pack [(0, 6, k.faultRow), (8, 3, k.faultCause), (11, 5, k.faultDest)]
  else if o = 0x200 then
    pack (bitsOf 0 8 (rs (fun x => x.route.isSome && !x.bad && !x.fetch)) ++ bitsOf 8 8 (rs (fun x => x.solved && x.route.isSome))
      ++ bitsOf 16 8 (rs (fun x => x.bad)) ++ [(24, 4, k.solveQ.length), (28, 1, b2n (k.flight.any (fun f => decide (recOpc f.words = 0x1D))))])
  else if o = 0x204 then n k.cnt.fabPass
  else if o = 0x208 then n k.cnt.fabCheck
  else if o = 0x20C then n k.cnt.solves
  else if o = 0x210 then pack [(0, 3, k.errSlot), (4, 2, k.errCause), (6, 8, k.errIndex)]
  else if o = 0x214 then n k.cnt.redpSat
  else if o = 0x218 then n k.cnt.routeMiss
  else if o = 0x300 then
    let f := k.fg.view
    let b := k.bg.view
    pack [(0, 1, f.1), (1, 1, b.1), (2, 14, f.2.1), (16, 14, b.2.1), (30, 1, f.2.2), (31, 1, b.2.2)]
  else if o = 0x304 then pack [(0, 4, k.fg.wait.getD 0), (4, 4, k.bg.wait.getD 0), (8, 15, k.fg.waitObj)]
  else if o = 0x400 then n k.cnt.cvtSat
  else if o = 0x404 then n k.cnt.cvtNan
  else if o = 0x408 then n k.cnt.cvtMiss
  else if o = 0x40C then n k.cnt.rescale
  else if o = 0x410 then n k.cnt.under
  else if o = 0x414 then n k.cnt.rerun
  else if o = 0x418 then k.lfsr
  else if 0x500 ≤ o ∧ o < 0x580 then
    n (word32 (SMap.get k.stall 0 ((o - 0x500) / 8)) (o % 8 / 4))
  else 0

/-! ### Windows -/

/-- A context of a core that waits on sync object `n` in a WAIT or HOLD. -/
def State.waitedOn (s : State) (n : Nat) : Bool :=
  s.st.waitSeq.any (fun w =>
    let x := (s.core w.1).ctx w.2
    match x.list with
    | some l =>
      let r := (s.record l.lc l.start x.index).1
      x.wait.isSome && decide (recOpc r = 0x30 ∨ recOpc r = 0x31) && decide (x.waitObj = n)
    | none => false)

/-- A 32-bit word of a memory. -/
def Memory.word (m : Memory) (a : Nat) : Word := BitVec.ofNat 32 (leNat (m.read a 4))

/-- A half of an entry of 64 bits. -/
def halfOf (x : DWord) (o : Nat) : Word := if o % 8 < 4 then x.setWidth 32 else (x >>> 32).setWidth 32

/-- The windows. -/
def State.viewWindow (s : State) (off : Nat) : Word :=
  if off < 0x400000 then 0
  else if off < 0x480000 then
    let i := (off - 0x400000) / 16
    let x := s.sync i
    match off % 16 / 4 with
    | 0 => x.count
    | 2 => pack [(0, 1, b2n x.log), (1, 1, b2n (s.waitedOn i)), (2, 5, x.lastPc), (7, 4, x.lastInc)]
    | _ => 0
  else if off < 0x800000 then 0
  else if off < 0x808000 then halfOf (SMap.get s.routes.active 0 ((off - 0x800000) / 8)) off
  else if off < 0x810000 then halfOf (SMap.get s.routes.shadow 0 ((off - 0x808000) / 8)) off
  else if off = 0x810000 then
    pack [(0, 1, b2n s.routes.armed), (1, 1, b2n s.routes.armed), (16, 13, s.routes.dirty.length)]
  else if off = 0x810004 then BitVec.ofNat 32 s.routes.gen
  else if off = 0x810008 then BitVec.ofNat 32 s.routes.wrErr
  else if off = 0x810010 then s.reg 0x810010
  else if off = 0x810014 then BitVec.ofNat 32 s.routes.xcxMiss
  else if off < 0xC00000 then 0
  else if off < 0x1000000 then s.routes.table.word (off - 0xC00000)
  else if off < 0x2000000 then s.st.pool.word (off - 0x1000000)
  else if off < 0x2200000 then (s.seq ((off - 0x2000000) / 0x80000)).word ((off - 0x2000000) % 0x80000)
  else 0

/-! ### A read -/

/-- Whether a register lies in a core bank, a region row or the history slots of a logical core that the configuration has (R3). -/
def State.hasReg (s : State) (off : Nat) : Bool :=
  if 0x100000 ≤ off ∧ off < 0x220000 then s.hasCore ((off - 0x100000) / 0x10000)
  else if 0x20100 ≤ off ∧ off < 0x20160 then decide ((off - 0x20100) / 0x10 < s.par.ncg)
  else if 0x20200 ≤ off ∧ off < 0x20280 then s.hasRegion ((off - 0x20200) / 0x10)
  else if 0x41000 ≤ off ∧ off < 0x41800 then decide ((off - 0x41000) / 0x80 < s.par.nlc)
  else true

/-- What the register or window word at an HCP offset shows (R3, R397) (DESIGN CHOICE, log entry 14). -/
def State.view (s : State) (off : Nat) : Word :=
  let off := off / 4 * 4
  let o := off % 0x10000
  if !s.hasReg off then 0
  else
    match off / 0x10000 with
    | 0 => s.viewGlobal o
    | 1 => if o < 0x400 then s.viewTime o else s.viewGong o
    | 2 => s.viewPower o
    | 3 => s.viewSafety o
    | 4 => s.viewCfg o
    | 5 => s.viewPort o
    | 6 => s.viewStream o
    | 7 => s.viewEvent o
    | 8 => s.viewBoot o
    | b => if 0x10 ≤ b ∧ b < 0x22 then s.viewCore (b - 0x10) o else s.viewWindow off

/-- The registers that a read of an offset latches (GSN_LO, LTC_LO, NOW_LO, SLOT_N_LO, LAST_WAKE_LTC_LO, CH_BYTES_LO,
STALL_CNT_LO). -/
def latchedBy (off : Nat) : List Nat :=
  if off = 0x10428 ∨ off = 0x10038 ∨ off = 0x10088 ∨ off = 0x2001C then [off + 4]
  else if off = 0x10008 then [0x1000C, 0x10010]
  else if 0x63000 ≤ off ∧ off < 0x64000 ∧ off % 0x40 = 0x10 then [off + 4]
  else if 0x100000 ≤ off ∧ off < 0x220000 ∧ 0x500 ≤ off % 0x10000 ∧ off % 0x10000 < 0x580 ∧ off % 8 = 0 then [off + 4]
  else []

/-- Whether an offset is the latched half of a read-latch pair (DESIGN CHOICE, log entry 14). -/
def isLatched (off : Nat) : Bool :=
  decide (off ∈ [0x1042C, 0x1003C, 0x1008C, 0x20020, 0x1000C, 0x10010])
    || (decide (0x63000 ≤ off ∧ off < 0x64000) && decide (off % 0x40 = 0x14))
    || (decide (0x100000 ≤ off ∧ off < 0x220000) && decide (0x500 ≤ off % 0x10000 ∧ off % 0x10000 < 0x580) && decide (off % 8 = 4))

/-- A 32-bit read that the matrix serves: its data, and the read latches after it (DESIGN CHOICE, log entry 14). -/
def State.readWord (s : State) (off : Nat) : State × Word :=
  let v := if isLatched off then SMap.get s.hcp.latch 0 off else s.view off
  ({ s with hcp := { s.hcp with
      latch := (latchedBy off).foldl (fun m k => SMap.set m 0 k (s.view k)) s.hcp.latch } }, v)

/-- A read of 4 bytes, or of 8 where `wide`, at an HCP offset (R272): its data, in the byte lanes of a beat.  A bank answers
DATA_ERR to an address that is not aligned to the size (DESIGN CHOICE, log entry 14). -/
def State.hcpRead (s : State) (off : Nat) (wide : Bool) : State × DWord :=
  let answer (s : State) (r : Resp) (d : DWord) : State × DWord :=
    ({ s with hcp := { s.hcp with resp := r, data := [d], poison := [false] } }, d)
  if off % (if wide then 8 else 4) ≠ 0 ∧ (off < 0x220000 ∨ (0x810000 ≤ off ∧ off < 0x810100)) then answer s .dataErr 0
  else if wide then
    let (s, lo) := s.readWord (off / 8 * 8)
    let (s, hi) := s.readWord (off / 8 * 8 + 4)
    answer s .ok (hi ++ lo)
  else
    let (s, v) := s.readWord (off / 4 * 4)
    answer s .ok (if off % 8 < 4 then v.setWidth 64 else v.setWidth 64 <<< 32)

end Sys2Proof.Machine
end

