-- ==== Sys2Proof/Machine/Regs.lean ====
section
/-! DEFINITION. The registers and windows of the HCP: the RW fields of the register index (16, R6, R7, R397), what a write to each
register does beside them, the control matrix's targets (R286, R290), accesses to regions not in RUN (R294), and the rows
that are accesses. -/

namespace Sys2Proof.Machine

/-! ### The register index (16) -/

/-- Registers that take writes: first offset, stride, count, the bits that are fields, the bits that are plain RW fields.  An
offset that no row names ignores a write (R397). -/
structure RegRow where
  base   : Nat
  stride : Nat
  count  : Nat
  fields : Word
  rw     : Word
  deriving DecidableEq, Repr

def regsGlobal : List RegRow :=
  [⟨0x44, 4, 2, 0xFFFF, 0xFFFF⟩, ⟨0x60, 4, 1, 1, 1⟩]

def regsTime : List RegRow :=
  [⟨0x10020, 4, 2, 0xFFFFFFFF, 0xFFFFFFFF⟩, ⟨0x10040, 4, 1, 0xFFFFFFFF, 0xFFFFFFFF⟩, ⟨0x10044, 4, 1, 0xFFFF, 0xFFFF⟩,
   ⟨0x10048, 4, 1, 0x3FFFFFFF, 0x3FFFFFFF⟩, ⟨0x1004C, 4, 1, 1, 0⟩, ⟨0x10050, 4, 2, 0xFFFFFFFF, 0xFFFFFFFF⟩,
   ⟨0x10058, 4, 1, 0xFFFFFF, 0xFFFFFF⟩, ⟨0x1005C, 4, 1, 0xFF, 0xFF⟩, ⟨0x10060, 4, 1, 0xFFFFF, 0xFFFFF⟩,
   ⟨0x10064, 4, 1, 0xFFF1FFFF, 0xFFF1FFFF⟩, ⟨0x1006C, 4, 1, 0xFFFFF, 0xFFFFF⟩, ⟨0x10080, 4, 1, 0xFFFFFF, 0xFFFFFF⟩]

def regsGong : List RegRow :=
  [⟨0x10400, 4, 1, 0x3F3F07, 0x3F3F00⟩, ⟨0x10408, 4, 1, 0xFFFFF, 0⟩, ⟨0x1040C, 4, 1, 0x1F, 0⟩, ⟨0x10410, 4, 1, 0xFFFF, 0xFFFF⟩,
   ⟨0x10420, 4, 1, 0x10F, 0xF⟩, ⟨0x10440, 4, 1, 3, 0⟩]

def regsPower : List RegRow :=
  [⟨0x20004, 4, 1, 0xFF01, 0xFF00⟩, ⟨0x20008, 4, 2, 0xFFFFFFFF, 0xFFFFFFFF⟩, ⟨0x20010, 4, 1, 0xFF01, 0xFF01⟩,
   ⟨0x20014, 4, 1, 0xFF1F, 0xFF1F⟩, ⟨0x20018, 4, 1, 0x80001FFF, 0⟩, ⟨0x20028, 4, 1, 0x800003FF, 0x3FF⟩,
   ⟨0x2002C, 4, 1, 0xFF03, 0⟩, ⟨0x20100, 0x10, 6, 0xFFF, 0⟩, ⟨0x20104, 0x10, 6, 0x3FF, 0⟩, ⟨0x20208, 0x10, 8, 0xFFFF, 0⟩,
   ⟨0x2020C, 0x10, 8, 0xFFFF, 0⟩, ⟨0x20300, 4, 1, 0xFFFF, 0⟩, ⟨0x20304, 4, 1, 0x1F, 0⟩, ⟨0x20308, 4, 1, 0x1FFFF, 0xFFFF⟩]

def regsSafety : List RegRow :=
  [⟨0x30000, 4, 1, 3, 3⟩, ⟨0x30004, 4, 1, 0xF, 0⟩, ⟨0x30008, 4, 1, 0xFFFF, 0⟩, ⟨0x30040, 4, 1, 0x8000001F, 0x1F⟩,
   ⟨0x30048, 4, 1, 0x8000001F, 0x1F⟩, ⟨0x30050, 4, 1, 0x8000001F, 0x1F⟩, ⟨0x30300, 8, 16, 0xFFFFFFFF, 0xFFFFFFFF⟩]

def regsCfg : List RegRow :=
  [⟨0x40000, 4, 1, 0xFFFFFFFF, 0xFFFFFFFF⟩, ⟨0x40004, 4, 1, 0x1FFFFFF, 0x1FFFFFF⟩, ⟨0x40008, 4, 1, 0xFFFFFF, 0xFFFFFF⟩,
   ⟨0x4000C, 4, 1, 0xFFF, 0xF18⟩, ⟨0x40080, 4, 12, 0xFFFFFFFF, 0xFFFFFFFF⟩, ⟨0x400B0, 4, 1, 1, 0⟩,
   ⟨0x41000, 8, 256, 0x8001FF7F, 0x1FF7F⟩]

def regsPort : List RegRow :=
  [⟨0x50200, 4, 1, 0xFF, 0xFF⟩, ⟨0x50400, 4, 1, 0x800FFFFF, 0⟩, ⟨0x50404, 4, 2, 0xFFFF, 0xFFFF⟩, ⟨0x5040C, 4, 1, 1, 0⟩,
   ⟨0x50600, 4, 1, 0x103, 0x100⟩]

def regsStream : List RegRow :=
  [⟨0x60030, 4, 1, 3, 0⟩, ⟨0x6003C, 4, 1, 1, 0⟩, ⟨0x61000, 0x10, 16, 0xFFF, 0⟩, ⟨0x61004, 0x10, 16, 0x1FFF, 0⟩,
   ⟨0x62000, 0x20, 64, 0xFF, 0⟩, ⟨0x62004, 0x20, 64, 0xF, 0⟩, ⟨0x62008, 0x20, 64, 0x3FF, 0x3FF⟩,
   ⟨0x63000, 0x40, 64, 0xFFFFF1FF, 0x100⟩, ⟨0x63004, 0x40, 64, 0xFFFF, 0xFFFF⟩, ⟨0x64000, 0x10, 1024, 0x1FF, 0⟩,
   ⟨0x64004, 0x10, 1024, 0x1FF, 0⟩, ⟨0x64008, 0x10, 1024, 0x7FF, 0xF⟩]

def regsEvent : List RegRow :=
  [⟨0x70000, 0x40, 8, 0xFFFFFFFF, 0xFFFFFFFF⟩, ⟨0x70004, 0x40, 8, 0x1FFFFFF, 0x1FFFFFF⟩, ⟨0x70008, 0x40, 8, 0x8FFFFF1F, 0x8FFFFF1F⟩,
   ⟨0x70200, 4, 16, 7, 7⟩, ⟨0x70248, 4, 1, 0xFF01, 0xFF01⟩]

def regsBoot : List RegRow :=
  [⟨0x80000, 4, 1, 0xFFFFFFFF, 0xFFFFFFFF⟩, ⟨0x80004, 4, 1, 0xFFFFF, 0xFFFFF⟩, ⟨0x80008, 4, 1, 0x1F07, 0x1F00⟩,
   ⟨0x80024, 4, 1, 0xFFFF, 0xFFFF⟩, ⟨0x80030, 4, 1, 0xC00000FF, 0xFF⟩, ⟨0x80034, 4, 1, 0xFFFFFFFF, 0xFFFFFFFF⟩]

def regsCore : List RegRow :=
  [⟨0x100100, 0x10000, 18, 0x101, 0⟩, ⟨0x100120, 0x10000, 18, 1, 0⟩, ⟨0x10021C, 0x10000, 18, 1, 0⟩, ⟨0x100418, 0x10000, 18, 0xFFFFFFFF, 0⟩,
   ⟨0x10041C, 0x10000, 18, 1, 0⟩, ⟨0x100580, 0x10000, 18, 1, 0⟩]

def regsRoute : List RegRow := [⟨0x810000, 4, 1, 0x1FFF0007, 0⟩, ⟨0x810010, 4, 1, 0xFFFF, 0xFFFF⟩]

/-- Every register that takes writes. -/
def regTable : List RegRow :=
  regsGlobal ++ regsTime ++ regsGong ++ regsPower ++ regsSafety ++ regsCfg ++ regsPort ++ regsStream ++ regsEvent ++ regsBoot
    ++ regsCore ++ regsRoute

/-- Whether a row holds an offset. -/
def RegRow.has (r : RegRow) (off : Nat) : Bool :=
  decide (r.base ≤ off) && decide (off < r.base + r.stride * r.count) && decide ((off - r.base) % r.stride = 0)

/-- The row of an offset. -/
def regRow (off : Nat) : Option RegRow := regTable.find? (fun r => r.has off)

/-- Whether a write gives a reserved field a value other than 0 (R6) (DEDUCED, log entry 12). -/
def reservedBits (off : Nat) (v : Word) : Bool :=
  match regRow off with
  | some r => decide (v &&& ~~~r.fields ≠ 0)
  | none => false

/-- The plain RW bits of a register that a write sets now: some are locked (R216, R251), and PWR_WAKE_CTRL has none for an absent
region (R3). -/
def State.rwMask (s : State) (off : Nat) : Word :=
  match regRow off with
  | none => 0
  | some r =>
    if off = 0x10080 ∧ s.gong.en then 0
    else if 0x40080 ≤ off ∧ off < 0x400B0 ∧ s.cfg.keyLock then 0
    else if off = 0x4000C ∧ s.cfg.keyLock then r.rw &&& ~~~0x10
    else if off = 0x20010 then
      r.rw &&& pack ((0, 8, 0xFF) :: (List.range 8).map (fun g => (8 + g, 1, b2n (s.hasRegion g))))
    else r.rw

/-- The plain RW fields of a register set (R7). -/
def State.storeRw (s : State) (off : Nat) (v : Word) : State :=
  let m := s.rwMask off
  if m = 0 then s else s.setReg off ((s.reg off &&& ~~~m) ||| (v &&& m))

/-! ### What a write does beside its RW fields -/

/-- A step taken where a bit of the written value is 1. -/
def onBit (v : Word) (i : Nat) (f : State → State) (s : State) : State := if bit v i then f s else s

/-- GONG_CTRL (R14, R15). -/
def State.gongCtrl (s : State) (v : Word) : State :=
  let s := s.setGongMode (bit v 1)
  let s := { s with gong := { s.gong with log := bit v 2 } }
  s.setGongEn (bit v 0)

/-- GONG_TYPE_OVR (R20). -/
def State.typeOvr (s : State) (v : Word) : State := if bit v 8 then s.overrideArm (fld v 0 4) else s

/-- CFG_CTRL.LOAD (R217); MINIMAL ignores it (R368). -/
def State.load (s : State) : State :=
  match s.boot.state with
  | .minimal => s
  | _ => s.loadStart

/-- CFG_CTRL (R217, R220, R227, R233) (DEDUCED, log entry 79). -/
def State.cfgCtrl (s : State) (v : Word) : State :=
  onBit v 7 State.pairDrop (onBit v 6 State.loadDrop (onBit v 5 State.restoreReq (onBit v 2 State.commitReq
    (onBit v 1 State.loadAbort (onBit v 0 State.load s)))))

/-- BOOT_CTRL (R360, R366, R367) (DEDUCED, log entry 79). -/
def State.bootCtrl (s : State) (v : Word) : State :=
  onBit v 1 State.restart (onBit v 2 State.fscClr (onBit v 0 State.fetchSet s))

/-- BOOT_MON_CMD (R369); a BIST that this write starts finds no failing memory (DEDUCED, log entry 80). -/
def State.monCmd (s : State) (v : Word) : State :=
  match fld v 0 8 with
  | 0 => if s.monitor then { s with boot := { s.boot with monErr := false } } else s
  | 1 => s.monBist 0 false false
  | 2 => s.monRead (s.reg 0x80034)
  | _ => s.monOther

/-- SM_CTRL: clearing INJ_EN disarms (R334). -/
def State.smCtrl (s : State) (v : Word) : State := if bit v 0 then s else s.disarm

/-- What a write to a register of the time-unit bank does (02, 09). -/
def State.timeHook (s : State) (off : Nat) (v : Word) : State :=
  if off = 0x10020 ∨ off = 0x10024 then s.rateNomSet
  else if off = 0x1004C then onBit v 0 State.setGo s
  else if off = 0x10400 then s.gongCtrl v
  else if off = 0x10408 then s.pairWrite .gong .a v.toNat
  else if off = 0x1040C then s.pairWrite .gong .b v.toNat
  else if off = 0x10420 then s.typeOvr v
  else if off = 0x10440 then onBit v 1 State.clrMin (onBit v 0 State.clrCnt s)
  else s

/-- What a write to a register of the power bank does (11). -/
def State.powerHook (s : State) (off : Nat) (v : Word) : State :=
  if off = 0x20004 then onBit v 0 State.goOff s
  else if off = 0x20018 then onBit v 31 State.wakeAck s
  else if off = 0x20028 then onBit v 31 (fun s => s.railGo (fld v 0 10)) s
  else if off = 0x2002C then onBit v 1 (fun s => { s with pwr := { s.pwr with srpFail := false } }) s
  else if off = 0x20300 then s.pairWrite .admission .a v.toNat
  else if off = 0x20304 then s.pairWrite .admission .b v.toNat
  else if 0x20100 ≤ off ∧ off < 0x20160 then
    let n := (off - 0x20100) / 0x10
    if off % 0x10 = 0 then s.pairWrite (.region n) .a v.toNat
    else if off % 0x10 = 4 then s.pairWrite (.region n) .b v.toNat else s
  else if 0x20200 ≤ off ∧ off < 0x20280 then
    let g := (off - 0x20200) / 0x10
    if off % 0x10 = 8 then s.voteSet g (v.setWidth 16)
    else if off % 0x10 = 0xC then s.voteClr g (v.setWidth 16) else s
  else s

/-- What a write to a register of the safety bank does (12). -/
def State.safetyHook (s : State) (off : Nat) (v : Word) : State :=
  if off = 0x30000 then s.smCtrl v
  else if off = 0x30004 then onBit v 2 (fun s => { s with sm := { s.sm with ptestFail := false } }) s
  else if off = 0x30008 then { s with sm := { s.sm with detStatus := s.sm.detStatus &&& ~~~v.setWidth 16 } }
  else if off = 0x30040 then onBit v 31 (fun s => s.knell (fld v 0 5) 0xF) s
  else if off = 0x30048 then onBit v 31 (fun s => s.diagGo (fld v 0 5)) s
  else if off = 0x30050 then onBit v 31 (fun s => s.unknellReq (fld v 0 5)) s
  else if 0x30300 ≤ off ∧ off < 0x30380 ∧ off % 8 = 0 then s.injArm ((off - 0x30300) / 8) v
  else s

/-- What a write to a register of the configuration bank does (06, 08). -/
def State.cfgHook (s : State) (off : Nat) (v : Word) : State :=
  if off = 0x4000C then s.cfgCtrl v
  else if off = 0x400B0 then onBit v 0 State.lockKey s
  else if 0x41000 ≤ off ∧ off < 0x41800 ∧ off % 8 = 0 then
    onBit v 31 (fun s => s.histClr ((off - 0x41000) / 0x80) ((off - 0x41000) / 8 % 16)) s
  else s

/-- What a write to a register of the memory-port bank does (10). -/
def State.portHook (s : State) (off : Nat) (v : Word) : State :=
  if off = 0x50400 then s.pasidWrite (v.setWidth 20) (bit v 31)
  else if off = 0x5040C then onBit v 0 State.tlbClear s
  else s

/-- What a write to a register of the stream bank does (07). -/
def State.streamHook (s : State) (off : Nat) (v : Word) : State :=
  if off = 0x60030 then onBit v 1 (fun s => { s with st := { s.st with auditBad := false } }) s
  else if off = 0x6003C then onBit v 0 State.streamCntClr s
  else if 0x61000 ≤ off ∧ off < 0x61100 then
    let p := (off - 0x61000) / 0x10
    if off % 0x10 = 0 then s.pairWrite (.partition p) .a v.toNat
    else if off % 0x10 = 4 then s.pairWrite (.partition p) .b v.toNat else s
  else if 0x62000 ≤ off ∧ off < 0x62800 then
    let g := (off - 0x62000) / 0x20
    if off % 0x20 = 0 then s.pairWrite (.peal g) .a v.toNat
    else if off % 0x20 = 4 then s.pairWrite (.peal g) .b v.toNat else s
  else if 0x64000 ≤ off ∧ off < 0x68000 then
    let q := (off - 0x64000) / 0x10
    if off % 0x10 = 0 then s.pairWrite (.queue q) .a v.toNat
    else if off % 0x10 = 4 then s.pairWrite (.queue q) .b v.toNat else s
  else s

/-- What a write to a register of the event-plane bank does (09). -/
def State.eventHook (s : State) (off : Nat) : State :=
  if 0x70000 ≤ off ∧ off < 0x70200 ∧ (off % 0x40 = 0 ∨ off % 0x40 = 8) then s.ringAlign ((off - 0x70000) / 0x40) else s

/-- What a write to a register of the boot bank does (13). -/
def State.bootHook (s : State) (off : Nat) (v : Word) : State :=
  if off = 0x80008 then s.bootCtrl v else if off = 0x80030 then s.monCmd v else s

/-- What a write to a register of a core bank does (03, 04, 06, 07). -/
def State.coreHook (s : State) (off : Nat) (v : Word) : State :=
  let pc := (off - 0x100000) / 0x10000
  match off % 0x10000 with
  | 0x0100 => s.partWrite pc (bit v 0)
  | 0x0120 => onBit v 0 (fun s => s.trfCntClr pc) s
  | 0x021C => onBit v 0 (fun s => s.fabCntClr pc) s
  | 0x0418 => s.lfsrWrite pc v
  | 0x041C => onBit v 0 (fun s => s.cvtCntClr pc) s
  | 0x0580 => onBit v 0 (fun s => s.stallCntClr pc) s
  | _ => s

/-- What a write to a route control register does (04); where ROUTE_UPD is written with ARM and DROP both 1, ARM acts first and
DROP is ignored (DESIGN CHOICE, log entry 92). -/
def State.routeHook (s : State) (off : Nat) (v : Word) : State :=
  if off = 0x810000 then onBit v 2 State.updDrop (onBit v 0 State.updArm s) else s

/-- A 32-bit write to a register (R7): its RW fields, then what it does beside. -/
def State.bankWrite (s : State) (off : Nat) (v : Word) : State :=
  if !s.hasReg off then s
  else
    let s := s.storeRw off v
    match off / 0x10000 with
    | 1 => s.timeHook off v
    | 2 => s.powerHook off v
    | 3 => s.safetyHook off v
    | 4 => s.cfgHook off v
    | 5 => s.portHook off v
    | 6 => s.streamHook off v
    | 7 => s.eventHook off
    | 8 => s.bootHook off v
    | 0x81 => s.routeHook off v
    | b => if 0x10 ≤ b ∧ b < 0x22 then s.coreHook off v else s

/-! ### A write of one beat -/

/-- The 32-bit halves of a beat of 8 bytes at `off`, in ascending address order: offset, data, strobes. -/
def beatHalves (off : Nat) (v : DWord) (strb : BitVec 8) : List (Nat × Word × BitVec 4) :=
  let a := off / 8 * 8
  [(a, v.setWidth 32, strb.setWidth 4), (a + 4, (v >>> 32).setWidth 32, (strb >>> 4).setWidth 4)]

/-- The 32-bit writes that an access to a register bank makes (R272): it is 32 or 64 bits wide, on an address aligned to its
size, with STRB covering those bytes exactly; none where it is not. -/
def bankWords (off : Nat) (v : DWord) (strb : BitVec 8) : Option (List (Nat × Word)) :=
  if off % 8 = 0 ∧ strb = 0x0F then some [(off, v.setWidth 32)]
  else if off % 8 = 0 ∧ strb = 0xFF then some [(off, v.setWidth 32), (off + 4, (v >>> 32).setWidth 32)]
  else if off % 8 = 4 ∧ strb = 0xF0 then some [(off, (v >>> 32).setWidth 32)]
  else none

/-- A 32-bit write to a sync object (R135). -/
def State.soHalf (s : State) (off : Nat) (v : Word) (strb : BitVec 4) : State × Resp :=
  let n := (off - 0x400000) / 16
  match off % 16 / 4 with
  | 0 => s.soWrite n false v strb
  | 1 => s.soWrite n true v strb
  | 2 => (s.soCtrl n v strb, .ok)
  | _ => (s, .ok)

/-- Whether an offset lies in a register bank. -/
def inBank (off : Nat) : Bool := decide (off < 0x220000) || decide (0x810000 ≤ off ∧ off < 0x810100)

/-- A write of one beat through the HCP, with its response (R7, R74, R75, R135, R168, R272): a bank takes whole registers, two of
them in ascending address order (DEDUCED, log entry 12); the halves of a write to a sync object act one after the other, and
either can answer DATA_ERR for both. -/
def State.regWrite (s : State) (off : Nat) (v : DWord) (strb : BitVec 8) : State × Resp :=
  if inBank off then
    match bankWords off v strb with
    | none => (s, .dataErr)
    | some ws => (ws.foldl (fun s w => s.bankWrite w.1 w.2) s, .ok)
  else if off < 0x480000 then
    (beatHalves off v strb).foldl (fun a h =>
      let x := a.1.soHalf h.1 h.2.1 h.2.2
      (x.1, if a.2 = .ok then x.2 else a.2)) (s, Resp.ok)
  else if off < 0x808000 then (s, .ok)
  else if off < 0x810000 then (s.shadowWrite ((off - 0x808000) / 8) v strb, .ok)
  else if off < 0x1000000 then s.tableWrite ((off - 0xC00000) / 8) v strb
  else if off < 0x2000000 then (s.poolWrite ((off - 0x1000000) / 8 * 8) [{ data := v, strb := strb, poison := false }], .ok)
  else
    ((beatHalves off v strb).foldl (fun s h =>
      s.seqWrite ((h.1 - 0x2000000) / 0x80000) ((h.1 - 0x2000000) % 0x80000) h.2.1 h.2.2) s, .ok)

/-! ### The accesses of the rows -/

/-- The HCP offset of an access row, and whether it is a write. -/
def accessAt : Instr → Option (Nat × Bool)
  | .gongEnable | .gongDisable | .gongModeWrite _ => some (0x10400, true)
  | .gongTypeOvrArm _ => some (0x10420, true)
  | .clrCnt | .clrMin => some (0x10440, true)
  | .pairHalfWrite p h _ => some (pairOff p h, true)
  | .registerWrite off _ _ => some (off, true)
  | .trfPartWrite pc _ => some (0x100100 + 0x10000 * pc, true)
  | .trfCntClr pc => some (0x100120 + 0x10000 * pc, true)
  | .fabCntClr pc => some (0x10021C + 0x10000 * pc, true)
  | .routeTableWrite off _ _ => some (0xC00000 + off % 0x400000, true)
  | .shadowDirWrite off _ _ => some (0x808000 + off % 0x8000, true)
  | .routeUpdArm | .routeUpdDrop => some (0x810000, true)
  | .soCountWrite n _ _ => some (0x400000 + 16 * (n % 32768), true)
  | .soAddWrite n _ _ => some (0x400004 + 16 * (n % 32768), true)
  | .cvtLfsrWrite pc _ => some (0x100418 + 0x10000 * pc, true)
  | .cvtCntClr pc => some (0x10041C + 0x10000 * pc, true)
  | .histClr lc h => some (0x41000 + 0x80 * (lc % 16) + 8 * (h % 16), true)
  | .poolWindowRead off _ => some (0x1000000 + off % 0x1000000, false)
  | .poolWindowWrite off _ => some (0x1000000 + off % 0x1000000, true)
  | .streamCntClr => some (0x6003C, true)
  | .stallCntClr pc => some (0x100580 + 0x10000 * pc, true)
  | .load | .abort | .commit | .restore | .drop | .pairDrop => some (0x4000C, true)
  | .cfgKeyLock => some (0x400B0, true)
  | .setCtrlGo => some (0x1004C, true)
  | .rateNomWrite _ => some (0x10020, true)
  | .tlbInvAll => some (0x5040C, true)
  | .xlpPasidWrite _ _ => some (0x50400, true)
  | .rgnVoteSet g _ => some (0x20208 + 0x10 * (g % 8), true)
  | .rgnVoteClr g _ => some (0x2020C + 0x10 * (g % 8), true)
  | .lastWakeAck => some (0x20018, true)
  | .blockOff => some (0x20004, true)
  | .railReqGo _ => some (0x20028, true)
  | .knellReqGo _ => some (0x30040, true)
  | .injArm d _ => some (0x30300 + 8 * (d % 16), true)
  | .diagGo _ => some (0x30048, true)
  | .unknell _ => some (0x30050, true)
  | .fetch | .restart | .fscClr => some (0x80008, true)
  | .monBist _ _ _ | .monReadRetention _ | .monReserved _ => some (0x80030, true)
  | .regionOffAccess _ off w | .defaultTargetAccess _ off w => some (off, w)
  | _ => none

/-- PC fields and RW fields that some rows write beside their W1S bit. -/
def State.putLow (s : State) (off : Nat) (m v : Word) : State := s.setReg off ((s.reg off &&& ~~~m) ||| (v &&& m))

/-- RATE_NOM written whole (R250). -/
def State.rateNomWrite (s : State) (v : DWord) : State :=
  ((s.setReg 0x10020 (v.setWidth 32)).setReg 0x10024 ((v >>> 32).setWidth 32)).rateNomSet

/-- A monitor command with its byte kept in BOOT_MON_CMD. -/
def State.monPut (s : State) (c : Nat) : State := s.putLow 0x80030 0xFF (BitVec.ofNat 32 c)

/-- What a served access does, with its response. -/
def applyAccess (c : Instr) (s : State) : State × Resp :=
  match c with
  | .gongEnable => (s.gongOn, .ok)
  | .gongDisable => (s.gongOff, .ok)
  | .gongModeWrite m => (s.setGongMode m, .ok)
  | .gongTypeOvrArm t => (s.overrideArm t.toNat, .ok)
  | .clrCnt => (s.clrCnt, .ok)
  | .clrMin => (s.clrMin, .ok)
  | .pairHalfWrite p h v => (if s.hasPair p then s.pairWrite p h v.toNat else s, .ok)
  | .registerWrite off v strb => s.regWrite off v strb
  | .trfPartWrite pc p => (if s.hasCore pc then s.partWrite pc p else s, .ok)
  | .trfCntClr pc => (if s.hasCore pc then s.trfCntClr pc else s, .ok)
  | .fabCntClr pc => (if s.hasCore pc then s.fabCntClr pc else s, .ok)
  | .routeTableWrite off v strb => s.tableWrite (off % 0x400000 / 8) v strb
  | .shadowDirWrite off v strb => (s.shadowWrite (off % 0x8000 / 8) v strb, .ok)
  | .routeUpdArm => (s.updArm, .ok)
  | .routeUpdDrop => (s.updDrop, .ok)
  | .soCountWrite n v strb => s.soWrite (n % 32768) false v strb
  | .soAddWrite n v strb => s.soWrite (n % 32768) true v strb
  | .cvtLfsrWrite pc v => (if s.hasCore pc then s.lfsrWrite pc v else s, .ok)
  | .cvtCntClr pc => (if s.hasCore pc then s.cvtCntClr pc else s, .ok)
  | .histClr lc h => (s.histClr (lc % 16) (h % 16), .ok)
  | .poolWindowRead off n => (s.poolRead (off % 0x1000000 / 8 * 8) n, .ok)
  | .poolWindowWrite off bs => (s.poolWrite (off % 0x1000000 / 8 * 8) bs, .ok)
  | .streamCntClr => (s.streamCntClr, .ok)
  | .stallCntClr pc => (if s.hasCore pc then s.stallCntClr pc else s, .ok)
  | .load => (s.load, .ok)
  | .abort => (s.loadAbort, .ok)
  | .commit => (s.commitReq, .ok)
  | .restore => (s.restoreReq, .ok)
  | .drop => (s.loadDrop, .ok)
  | .pairDrop => (s.pairDrop, .ok)
  | .cfgKeyLock => (s.lockKey, .ok)
  | .setCtrlGo => (s.setGo, .ok)
  | .rateNomWrite v => (s.rateNomWrite v, .ok)
  | .tlbInvAll => (s.tlbClear, .ok)
  | .xlpPasidWrite p en => (s.pasidWrite p en, .ok)
  | .rgnVoteSet g v => (if s.hasRegion (g % 8) then s.voteSet (g % 8) v else s, .ok)
  | .rgnVoteClr g v => (if s.hasRegion (g % 8) then s.voteClr (g % 8) v else s, .ok)
  | .lastWakeAck => (s.wakeAck, .ok)
  | .blockOff => (s.goOff, .ok)
  | .railReqGo mv => ((s.putLow 0x20028 0x3FF (mv.setWidth 32)).railGo mv.toNat, .ok)
  | .knellReqGo pc => ((s.putLow 0x30040 0x1F (pc.setWidth 32)).knell pc.toNat 0xF, .ok)
  | .injArm d v => (s.injArm (d % 16) v, .ok)
  | .diagGo pc => ((s.putLow 0x30048 0x1F (pc.setWidth 32)).diagGo pc.toNat, .ok)
  | .unknell pc => ((s.putLow 0x30050 0x1F (pc.setWidth 32)).unknellReq pc.toNat, .ok)
  | .fetch => (s.fetchSet, .ok)
  | .restart => (s.restart, .ok)
  | .fscClr => (s.fscClr, .ok)
  | .monBist c sp ct => ((s.monPut 1).monBist c sp ct, .ok)
  | .monReadRetention a => (((s.monPut 2).setReg 0x80034 a).monRead a, .ok)
  | .regionOffAccess _ off false => ((s.hcpRead (off / 4 * 4) false).1, .ok)
  | .monReserved c => (if 3 ≤ c.toNat then (s.monPut c.toNat).monOther else s, .ok)
  | _ => (s, .ok)

/-- Whether an access gives a reserved field of a register that the configuration has a value other than 0, or a value wider
than its field (R3, R6) (DEDUCED, log entry 12). -/
def State.accessReserved (s : State) : Instr → Bool
  | .registerWrite off v strb =>
    inBank off && (match bankWords off v strb with
      | some ws => ws.any (fun w => s.hasReg w.1 && reservedBits w.1 w.2)
      | none => false)
  | .pairHalfWrite p h v => s.hasPair p && decide (2 ^ pairWidth p h ≤ v.toNat)
  | _ => false

/-- An access of the HCP served. -/
def State.serve (s : State) (c : Instr) : State :=
  let (s, r) := applyAccess c s
  { s with hcp := { s.hcp with resp := r } }

/-! ### Targets (R286, R290, R294, R368) -/

/-- The region that an offset lies in, 8 for AON; none where it decodes to no target (R286, R397) (DEDUCED, log entry 82). -/
def State.targetOf (s : State) (m : Master) (off : Nat) : Option Nat :=
  if off < 0x90000 then
    match off / 0x10000 with
    | 0 | 2 => some 8
    | 5 | 6 => some 6
    | _ => some 7
  else if off < 0x100000 then none
  else if off < 0x220000 then
    let pc := (off - 0x100000) / 0x10000
    some (if s.hasCore pc then regionOfCore pc else 8)
  else if off < 0x400000 then none
  else if off < 0x480000 then (if off % 16 < 12 then some 6 else none)
  else if off < 0x800000 then none
  else if off < 0x810000 then some 6
  else if off < 0xC00000 then
    (if off < 0x810100 then some 6 else none)
  else if off < 0x2000000 then some 6
  else if off < 0x2200000 then (if m ≠ Master.hcp ∨ bit (s.reg 0x50600) 8 then some 7 else none)
  else none

/-- Whether MINIMAL serves an offset (R368). -/
def minimalServes (off : Nat) : Bool := decide (off < 0x90000) && decide (off / 0x10000 ∈ [0, 2, 3, 7, 8])

/-- The state of a region for an access: the one it enters counts (DEDUCED, log entry 82). -/
def State.stateFor (s : State) (g : Nat) : RgnState := if g = 8 then .run else (s.region g).low

/-- Whether an access stalls until its region runs (R294): it is in IDLE or SLEEP, or on its way out, and its AUTO_WAKE is 1
(DEDUCED, log entry 82). -/
def State.stallsAt (s : State) (g : Nat) : Bool :=
  let auto := match s.image with | some im => im.autoWake g | none => false
  auto && (match s.stateFor g with
    | .idle | .sleep => true
    | .waking => match (s.region g).from_ with | .idle | .sleep => true | _ => false
    | _ => false)

/-- What the control matrix does with an access. -/
inductive Verdict where
  | reset | miss | off (g : Nat) | stall (g : Nat) | pause (g : Nat) | serve
  deriving DecidableEq, Repr

/-- The verdict on an access of a master (R285, R290, R294, R368) (DEDUCED, log entry 75) (DEDUCED, log entry 82). -/
def State.verdict (s : State) (m : Master) (off : Nat) : Verdict :=
  if s.inReset then .reset
  else
    match s.targetOf m off with
    | none => .miss
    | some g =>
      if s.boot.state = .minimal ∧ m = Master.hcp ∧ !minimalServes off then .miss
      else if s.stateFor g = .run then (if g < 8 ∧ (s.region g).applying then .pause g else .serve)
      else if s.stallsAt g then .stall g
      else .off g

/-- CM_LAST_ADDR and CM_LAST_INFO. -/
def State.cmLast (s : State) (off m code : Nat) : State :=
  { s with mp := { s.mp with cmLastAddr := off % 0x4000000, cmLastMst := m, cmLastCode := code } }

/-- NO_TARGET on the HCP. -/
def State.noTarget (s : State) (m : Master) : State :=
  if m = Master.hcp then { s with hcp := { s.hcp with resp := .noTarget } } else s

/-- A read on the HCP that nothing serves returns data 0 on every beat (R285, R290); a row that names an access without a value
reads one beat. -/
def State.blankRead (s : State) (c : Instr) : State :=
  let beats (n : Nat) : State :=
    { s with hcp := { s.hcp with data := List.replicate n 0, poison := List.replicate n false } }
  match c with
  | .poolWindowRead _ n => beats n
  | .hcpAccessInReset _ false => beats 1
  | .defaultTargetAccess .hcp _ false => beats 1
  | .regionOffAccess .hcp _ false => beats 1
  | _ => s

/-- An access while the block stands in reset (R285) (DEDUCED, log entry 75). -/
def State.resetAccess (s : State) : State :=
  { s with mp := { s.mp with hcpRst := satAdd s.mp.hcpRst 1 max32 } }.noTarget .hcp

/-- The default target (R290): at most one record per master per µs. -/
def State.missAccess (s : State) (m : Master) (off : Nat) : State :=
  let k := masterCode m
  let last := SMap.get s.mp.missAt 0 k
  let s := { s with mp := { s.mp with cmMiss := satAdd s.mp.cmMiss 1 max32 } }
  let s := (s.cmLast off k 0x0408).noTarget m
  if last = 0 ∨ last + s.ticksOf 1000 ≤ s.tu.ltc + 1 then
    { s with mp := { s.mp with missAt := SMap.set s.mp.missAt 0 k (s.tu.ltc + 1) } }.matrixRec 0x0408 k off 0 0 0 0
  else s

/-- Every access to a region not in RUN is counted and recorded (R294). -/
def State.offRec (s : State) (m : Master) (off g woke : Nat) : State :=
  let k := masterCode m
  let s := { s with mp := { s.mp with cmOff := satAdd s.mp.cmOff 1 max32 } }
  let st := match (s.region g).low with
    | .waking => (s.region g).from_.code
    | st => st.code
  (s.cmLast off k 0x0409).matrixRec 0x0409 k off g st woke 0

/-! ### Arbitration and paths (R287, R288) -/

/-- The target port that an access of a master reaches (R286): the register banks 0 to 8, the core banks 9 to 26, the
sync-object, route, pool and sequencer-memory windows 27 to 30, the default target 31. -/
def State.portOf (s : State) (m : Master) (off : Nat) : Nat :=
  if (s.targetOf m off).isNone then 31
  else if off < 0x90000 then off / 0x10000
  else if off < 0x220000 then 9 + (off - 0x100000) / 0x10000
  else if off < 0x480000 then 27
  else if off < 0x1000000 then 28
  else if off < 0x2000000 then 29
  else 30

/-- Whether the matrix forwards what a master's port carries: the shadow copy of a pair in lockstep ends at the checker (R286). -/
def State.forwards (s : State) : Master → Bool
  | .sq1 => s.sm.simplex.getLsbD 0
  | .sq3 => s.sm.simplex.getLsbD 1
  | .hcp | .sq0 | .sq2 | .sm => true

/-- The master that a target port grants next (R287): the SM, up to 4 times while another master waits, and else the next
requesting master in the round after the one last granted; where none has been granted the round starts at the HCP
(DESIGN CHOICE, log entry 3). -/
def Target.pick (t : Target) : Option Master :=
  let asks (m : Master) : Bool := t.waits.any (fun a => decide (a.who = m))
  let others := t.waits.any (fun a => decide (a.who ≠ Master.sm))
  if asks .sm && (decide (t.smRun < 4) || !others) then some .sm
  else
    let from_ := match t.last with | some m => masterCode m + 1 | none => 0
    ((List.range 6).filterMap (fun i => masterOf ((from_ + i) % 6))).find? (fun m => decide (m ≠ Master.sm) && asks m)

/-- The master `m` granted: its oldest access holds the path. -/
def Target.grant (t : Target) (m : Master) : Target :=
  let others := t.waits.any (fun a => decide (a.who ≠ Master.sm))
  match t.waits.find? (fun a => decide (a.who = m)) with
  | none => t
  | some a =>
    { last := some m, park := some m, smRun := if m = Master.sm ∧ others then t.smRun + 1 else 0, path := some a
      waits := t.waits.erase a }

/-- The path of a target port released. -/
def State.freePath (s : State) (k : Nat) : State := s.setTarget k { s.target k with path := none }

/-- An access that the target serves; a master other than the HCP names no value, and its access has no further effect here. -/
def State.serveFor (s : State) (a : MAccess) : State := if a.who = Master.hcp then s.serve a.cmd else s

/-- A burst that the matrix finishes for a master that was reset (R292 step 4): no beat of it acts, the port does not park on that master. -/
def State.orphanDone (s : State) (k : Nat) (a : MAccess) (off : Nat) : State :=
  let t := s.target k
  let s := s.setTarget k { t with path := none, park := if t.park = some a.who then none else t.park }
  let g := (s.targetOf a.who off).getD 8
  { s with mp := { s.mp with cmOrphan := satAdd s.mp.cmOrphan 1 max32 } }.matrixRec 0x040A (masterCode a.who) off g ((s.region g).low).code 0 0

/-- The access that holds the path of target port `k`, tried (R285, R290, R294): served or answered, its path is released; one
that wakes its region, or finds its pair applying, keeps its path.  `first` that it has just been granted. -/
def State.tryPath (s : State) (k : Nat) (first : Bool) : State :=
  match (s.target k).path with
  | none => s
  | some a =>
    match accessAt a.cmd with
    | none => s.freePath k
    | some (off, _) =>
      match s.verdict a.who off with
      | .reset => s.freePath k
      | .serve => if a.orphan then s.orphanDone k a off else (s.freePath k).serveFor a
      | .miss => if first then ((s.freePath k).missAccess a.who off).blankRead a.cmd else s
      | .off g => if first then (((s.freePath k).offRec a.who off g 0).noTarget a.who).blankRead a.cmd else s
      | .pause _ => s
      | .stall g =>
        if first then
          -- a region that was only entering comes back at once (R294, source 5)
          let woke := decide ((s.region g).state ≠ .waking)
          let s := s.offRec a.who off g (b2n woke)
          let s := (s.onRegion g (fun r => { r with access := true })).wake 5 true [g]
          if s.stateFor g = .run then
            ((s.onRegion g (fun r => { r with access := false })).freePath k).serveFor a
          else s
        else s

/-- Target port `k` grants while its path is free and a master waits; `fuel` bounds the grants. -/
def State.arbitrate : Nat → Nat → State → State
  | 0, _, s => s
  | fuel + 1, k, s =>
    let t := s.target k
    if t.path.isSome then s
    else
      match t.pick with
      | none => s
      | some m => State.arbitrate fuel k ((s.setTarget k (t.grant m)).tryPath k true)

/-- An access of a master reaches its target port. -/
def State.submit (s : State) (m : Master) (c : Instr) : State :=
  match accessAt c with
  | none => s
  | some (off, _) =>
    let k := s.portOf m off
    let t := s.target k
    let s := s.setTarget k { t with waits := t.waits ++ [{ who := m, cmd := c, orphan := false }] }
    State.arbitrate (t.waits.length + 1) k s

/-- The bursts of the HCP in one direction that are accepted and not yet answered (R272). -/
def State.hcpBursts (s : State) (write : Bool) : Nat :=
  let mine (a : MAccess) : Bool := decide (a.who = Master.hcp) && !a.orphan && decide ((accessAt a.cmd).map (·.2) = some write)
  (s.mp.targets.map (fun e => ((match e.2.path with | some a => [a] | none => []) ++ e.2.waits).countP mine)).foldl (· + ·) 0

/-- The HCP accepts what it has been offered while fewer than 16 bursts of that direction are outstanding (R272). -/
def State.acceptOffers : Nat → State → State
  | 0, s => s
  | fuel + 1, s =>
    let room (c : Instr) : Bool := match accessAt c with | some (_, w) => decide (s.hcpBursts w < 16) | none => true
    match s.hcp.offers.find? room with
    | none => s
    | some c => State.acceptOffers fuel ({ s with hcp := { s.hcp with offers := s.hcp.offers.erase c } }.submit .hcp c)

/-- An access offered on the HCP. -/
def State.offer (s : State) (c : Instr) : State :=
  let s := { s with hcp := { s.hcp with offers := s.hcp.offers ++ [c] } }
  State.acceptOffers s.hcp.offers.length s

/-- The access `a` goes to region `g`. -/
def State.accessWaits (s : State) (g : Nat) (a : MAccess) : Bool :=
  match accessAt a.cmd with
  | some (off, _) => decide (s.targetOf a.who off = some g)
  | none => false

/-- A region is back in RUN: the accesses that hold their paths for it are served, their ports grant on, and the HCP accepts what
waits (R288, R294); a region that no path waits for loses the access vote. -/
def State.replay (s : State) : State :=
  let s := (List.range 32).foldl (fun s k =>
    let s := s.tryPath k false
    State.arbitrate (s.target k).waits.length k s) s
  let s := State.acceptOffers s.hcp.offers.length s
  let waits (g : Nat) : Bool := s.mp.targets.any (fun e => match e.2.path with | some a => s.accessWaits g a | none => false)
  (List.range 8).foldl (fun s g =>
    if (s.region g).access && decide ((s.region g).state = .run) && !waits g then s.onRegion g (fun r => { r with access := false }) else s) s

/-- An access of the HCP (R272, R285, R290, R294, R299) (DEDUCED, log entry 12) (DEDUCED, log entry 13). -/
def hcpAccess (c : Instr) (s : State) : Host.Outcome State Fault Refusal :=
  match accessAt c with
  | none => .next s
  | some (off, _) =>
    if s.pwr.blockOff then .fault .hcpUnpowered
    else if s.inReset then .next (settle s (s.resetAccess.blankRead c))
    else
      match s.verdict .hcp off with
      | .reset | .miss | .off _ => .next (settle s (s.offer c))
      | .stall _ | .pause _ | .serve => if s.accessReserved c then .refused (.reservedWrite off) else .next (settle s (s.offer c))

/-! ### HCP_RST_N (R292) -/

/-- HCP_RST_N: the bursts of the HCP that hold a path become orphans, and what was not granted is gone (DEDUCED, log entry 82). -/
def State.hcpReset (s : State) : State :=
  ({ s with hcp := { s.hcp with offers := [] } }.masterReset (fun m => decide (m = Master.hcp))).replay

end Sys2Proof.Machine
end

