-- ==== Sys2Proof/Machine/Access.lean ====
section
/-! DEFINITION. The rows that are accesses on the HCP, and what the control matrix does with accesses and resets (10, 11). -/

namespace Sys2Proof.Machine

/-! ### Accesses with an effect of their own -/

/-- GONG_ENABLE (R14). -/
def execGongEnable (s : State) : Host.Outcome State Fault Refusal :=
  hcpAccess (.gongEnable) s

/-- GONG_DISABLE (R15). -/
def execGongDisable (s : State) : Host.Outcome State Fault Refusal :=
  hcpAccess (.gongDisable) s

/-- GONG_MODE_WRITE (R15). -/
def execGongModeWrite (mode : Bool) (s : State) : Host.Outcome State Fault Refusal :=
  hcpAccess (.gongModeWrite mode) s

/-- GONG_TYPE_OVR_ARM (R20). -/
def execGongTypeOvrArm (type : BitVec 4) (s : State) : Host.Outcome State Fault Refusal :=
  hcpAccess (.gongTypeOvrArm type) s

/-- CLR_CNT (R32). -/
def execClrCnt (s : State) : Host.Outcome State Fault Refusal :=
  hcpAccess (.clrCnt) s

/-- CLR_MIN (R31). -/
def execClrMin (s : State) : Host.Outcome State Fault Refusal :=
  hcpAccess (.clrMin) s

/-- PAIR_HALF_WRITE (R227). -/
def execPairHalfWrite (p : PairId) (h : Half) (v : Word) (s : State) : Host.Outcome State Fault Refusal :=
  hcpAccess (.pairHalfWrite p h v) s

/-- REGISTER_WRITE (R7). -/
def execRegisterWrite (off : Nat) (v : DWord) (strb : BitVec 8) (s : State) : Host.Outcome State Fault Refusal :=
  hcpAccess (.registerWrite off v strb) s

/-- TRF_PART_WRITE (R59). -/
def execTrfPartWrite (pc : Nat) (part : Bool) (s : State) : Host.Outcome State Fault Refusal :=
  hcpAccess (.trfPartWrite pc part) s

/-- TRF_CNT_CLR (R7). -/
def execTrfCntClr (pc : Nat) (s : State) : Host.Outcome State Fault Refusal :=
  hcpAccess (.trfCntClr pc) s

/-- FAB_CNT_CLR (R7). -/
def execFabCntClr (pc : Nat) (s : State) : Host.Outcome State Fault Refusal :=
  hcpAccess (.fabCntClr pc) s

/-- ROUTE_TABLE_WRITE (R74). -/
def execRouteTableWrite (off : Nat) (v : DWord) (strb : BitVec 8) (s : State) : Host.Outcome State Fault Refusal :=
  hcpAccess (.routeTableWrite off v strb) s

/-- SHADOW_DIR_WRITE (R75). -/
def execShadowDirWrite (off : Nat) (v : DWord) (strb : BitVec 8) (s : State) : Host.Outcome State Fault Refusal :=
  hcpAccess (.shadowDirWrite off v strb) s

/-- ROUTE_UPD_ARM (R75). -/
def execRouteUpdArm (s : State) : Host.Outcome State Fault Refusal :=
  hcpAccess (.routeUpdArm) s

/-- ROUTE_UPD_DROP (R75). -/
def execRouteUpdDrop (s : State) : Host.Outcome State Fault Refusal :=
  hcpAccess (.routeUpdDrop) s

/-- SO_COUNT_WRITE (R135). -/
def execSoCountWrite (so : Nat) (v : Word) (strb : BitVec 4) (s : State) : Host.Outcome State Fault Refusal :=
  hcpAccess (.soCountWrite so v strb) s

/-- SO_ADD_WRITE (R135). -/
def execSoAddWrite (so : Nat) (v : Word) (strb : BitVec 4) (s : State) : Host.Outcome State Fault Refusal :=
  hcpAccess (.soAddWrite so v strb) s

/-- CVT_LFSR_WRITE (R162). -/
def execCvtLfsrWrite (pc : Nat) (v : Word) (s : State) : Host.Outcome State Fault Refusal :=
  hcpAccess (.cvtLfsrWrite pc v) s

/-- CVT_CNT_CLR (R7). -/
def execCvtCntClr (pc : Nat) (s : State) : Host.Outcome State Fault Refusal :=
  hcpAccess (.cvtCntClr pc) s

/-- HIST_CLR (R158). -/
def execHistClr (lc : Nat) (slot : Nat) (s : State) : Host.Outcome State Fault Refusal :=
  hcpAccess (.histClr lc slot) s

/-- POOL_WINDOW_READ (R168). -/
def execPoolWindowRead (off : Nat) (n : Nat) (s : State) : Host.Outcome State Fault Refusal :=
  hcpAccess (.poolWindowRead off n) s

/-- POOL_WINDOW_WRITE (R168). -/
def execPoolWindowWrite (off : Nat) (beats : List HcpBeat) (s : State) : Host.Outcome State Fault Refusal :=
  hcpAccess (.poolWindowWrite off beats) s

/-- STREAM_CNT_CLR (R7). -/
def execStreamCntClr (s : State) : Host.Outcome State Fault Refusal :=
  hcpAccess (.streamCntClr) s

/-- STALL_CNT_CLR (R189). -/
def execStallCntClr (pc : Nat) (s : State) : Host.Outcome State Fault Refusal :=
  hcpAccess (.stallCntClr pc) s

/-- LOAD (R217). -/
def execLoad (s : State) : Host.Outcome State Fault Refusal :=
  hcpAccess (.load) s

/-- ABORT (R217). -/
def execAbort (s : State) : Host.Outcome State Fault Refusal :=
  hcpAccess (.abort) s

/-- COMMIT (R220). -/
def execCommit (s : State) : Host.Outcome State Fault Refusal :=
  hcpAccess (.commit) s

/-- RESTORE (R233). -/
def execRestore (s : State) : Host.Outcome State Fault Refusal :=
  hcpAccess (.restore) s

/-- DROP (R217). -/
def execDrop (s : State) : Host.Outcome State Fault Refusal :=
  hcpAccess (.drop) s

/-- PAIR_DROP (R227). -/
def execPairDrop (s : State) : Host.Outcome State Fault Refusal :=
  hcpAccess (.pairDrop) s

/-- CFG_KEY_LOCK (R216). -/
def execCfgKeyLock (s : State) : Host.Outcome State Fault Refusal :=
  hcpAccess (.cfgKeyLock) s

/-- SET_CTRL_GO (R250). -/
def execSetCtrlGo (s : State) : Host.Outcome State Fault Refusal :=
  hcpAccess (.setCtrlGo) s

/-- RATE_NOM_WRITE (R250). -/
def execRateNomWrite (v : DWord) (s : State) : Host.Outcome State Fault Refusal :=
  hcpAccess (.rateNomWrite v) s

/-- TLB_INV_ALL (R276). -/
def execTlbInvAll (s : State) : Host.Outcome State Fault Refusal :=
  hcpAccess (.tlbInvAll) s

/-- XLP_PASID_WRITE (R276). -/
def execXlpPasidWrite (pasid : BitVec 20) (en : Bool) (s : State) : Host.Outcome State Fault Refusal :=
  hcpAccess (.xlpPasidWrite pasid en) s

/-- RGN_VOTE_SET (R301). -/
def execRgnVoteSet (g : Nat) (v : BitVec 16) (s : State) : Host.Outcome State Fault Refusal :=
  hcpAccess (.rgnVoteSet g v) s

/-- RGN_VOTE_CLR (R301). -/
def execRgnVoteClr (g : Nat) (v : BitVec 16) (s : State) : Host.Outcome State Fault Refusal :=
  hcpAccess (.rgnVoteClr g v) s

/-- LAST_WAKE_ACK (R306). -/
def execLastWakeAck (s : State) : Host.Outcome State Fault Refusal :=
  hcpAccess (.lastWakeAck) s

/-- BLOCK_OFF (R299). -/
def execBlockOff (s : State) : Host.Outcome State Fault Refusal :=
  hcpAccess (.blockOff) s

/-- RAIL_REQ_GO (R314). -/
def execRailReqGo (mv : BitVec 10) (s : State) : Host.Outcome State Fault Refusal :=
  hcpAccess (.railReqGo mv) s

/-- KNELL_REQ_GO (R335). -/
def execKnellReqGo (pc : BitVec 5) (s : State) : Host.Outcome State Fault Refusal :=
  hcpAccess (.knellReqGo pc) s

/-- INJ_ARM (R334). -/
def execInjArm (det : Nat) (v : Word) (s : State) : Host.Outcome State Fault Refusal :=
  hcpAccess (.injArm det v) s

/-- DIAG_GO (R340). -/
def execDiagGo (pc : BitVec 5) (s : State) : Host.Outcome State Fault Refusal :=
  hcpAccess (.diagGo pc) s

/-- UNKNELL (R341). -/
def execUnknell (pc : BitVec 5) (s : State) : Host.Outcome State Fault Refusal :=
  hcpAccess (.unknell pc) s

/-- FETCH (R360). -/
def execFetch (s : State) : Host.Outcome State Fault Refusal :=
  hcpAccess (.fetch) s

/-- RESTART (R367). -/
def execRestart (s : State) : Host.Outcome State Fault Refusal :=
  hcpAccess (.restart) s

/-- FSC_CLR (R366). -/
def execFscClr (s : State) : Host.Outcome State Fault Refusal :=
  hcpAccess (.fscClr) s

/-- MON_BIST (R369). -/
def execMonBist (coreFail : BitVec 18) (spineFail : Bool) (controlFail : Bool) (s : State) : Host.Outcome State Fault Refusal :=
  hcpAccess (.monBist coreFail spineFail controlFail) s

/-- MON_READ_RETENTION (R369). -/
def execMonReadRetention (arg : Word) (s : State) : Host.Outcome State Fault Refusal :=
  hcpAccess (.monReadRetention arg) s

/-- MON_RESERVED (R369). -/
def execMonReserved (cmd : BitVec 8) (s : State) : Host.Outcome State Fault Refusal :=
  hcpAccess (.monReserved cmd) s

/-! ### Accesses without a value (R285, R290, R294) -/

/-- HCP_ACCESS_IN_RESET (R285). -/
def execHcpAccessInReset (off : Nat) (write : Bool) (s : State) : Host.Outcome State Fault Refusal :=
  if s.pwr.blockOff then .fault .hcpUnpowered
  else .next (settle s (if s.inReset then s.resetAccess.blankRead (.hcpAccessInReset off write) else s))

/-- An access without a value that reaches the matrix: the HCP offers it, another master's goes to its target port. -/
def State.accessFrom (s : State) (m : Master) (c : Instr) : State :=
  if m = Master.hcp then s.offer c else if s.forwards m then s.submit m c else s

/-- DEFAULT_TARGET_ACCESS (R290). -/
def execDefaultTargetAccess (m : Master) (off : Nat) (write : Bool) (s : State) : Host.Outcome State Fault Refusal :=
  if s.pwr.blockOff then (if m = Master.hcp then .fault .hcpUnpowered else .next (settle s s))
  else .next (settle s (match s.verdict m off with
    | .miss => s.accessFrom m (.defaultTargetAccess m off write)
    | _ => s))

/-- REGION_OFF_ACCESS (R294). -/
def execRegionOffAccess (m : Master) (off : Nat) (write : Bool) (s : State) : Host.Outcome State Fault Refusal :=
  if s.pwr.blockOff then (if m = Master.hcp then .fault .hcpUnpowered else .next (settle s s))
  else .next (settle s (match s.verdict m off with
    | .off _ | .stall _ => s.accessFrom m (.regionOffAccess m off write)
    | _ => s))

/-- HCP_RESET (R292). -/
def execHcpReset (s : State) : Host.Outcome State Fault Refusal := .next (settle s s.hcpReset)

/-! ### Regions that come back to RUN -/

/-- WAKE_STEP_COMPLETE (R309): the accesses that stalled are served once the region runs (R294). -/
def execWakeStepComplete (g : Nat) (s : State) : Host.Outcome State Fault Refusal :=
  .next (settle s (if s.pwr.blockOff then s else (s.stepReady g).replay))

/-- REGION_RETURN_TO_RUN (R313). -/
def execRegionReturnToRun (g : Nat) (s : State) : Host.Outcome State Fault Refusal :=
  .next (settle s (s.regionReturn g).replay)

end Sys2Proof.Machine
end

