-- ==== Sys2Proof/Machine/Lists.lean ====
section
/-! DEFINITION. The rows of the list commands (R94 to R106): one for each opcode, and the order in which the two contexts of a
core issue (R23). -/

namespace Sys2Proof.Machine

/-- What the command of an opcode does at its issue point. -/
def bodyOf (opc : Nat) : Nat → Ctx → ListRef → List Word → State → State :=
  match opc with
  | 0x01 => bodyTld
  | 0x02 => bodyTst
  | 0x03 => bodyTmov
  | 0x10 => (bodyRouted true)
  | 0x11 => bodyPermx
  | 0x12 => bodyLinear
  | 0x13 => bodyLinear
  | 0x14 => (bodyRouted false)
  | 0x15 => (bodyRouted false)
  | 0x16 => bodyShuf
  | 0x17 => bodyLinear
  | 0x1C => bodyRedp
  | 0x1D => bodySort
  | 0x18 => bodyIlv
  | 0x19 => bodyDil
  | 0x1A => bodyRemap
  | 0x1B => bodyWin
  | 0x20 => bodyCvt
  | 0x21 => bodyScale
  | 0x22 => bodyQnt
  | 0x23 => bodyDqn
  | 0x30 => bodyHold
  | 0x31 => bodyWait
  | 0x32 => bodySig
  | 0x33 => bodyHpop
  | 0x34 => bodyHpush
  | 0x35 => bodyPdl
  | 0x36 => bodyAdmit
  | 0x37 => bodyStamp
  | 0x38 => bodyFence
  | 0x3F => bodyEnd
  | _ => fun _ _ _ _ s => s

/-- Whether the foreground context of a core has a command ready to issue (R23): its record would not end waiting
(DEDUCED, log entry 15). -/
def State.fgReady (s : State) (pc : Nat) : Bool :=
  match s.issuePoint pc .fg with
  | none => false
  | some (l, r, bad) =>
    if bad ∨ !opcodes.contains (recOpc r) then true
    else if recBarrier r ∧ !s.ctxDone pc .fg then false
    else if !shpOk r ∨ !flagsOk r ∨ (16383 ≤ ((s.core pc).ctx .fg).index ∧ recOpc r ≠ 0x3F) then true
    else ((bodyOf (recOpc r) pc .fg l r s).core pc).fg.wait.isNone

/-- What a row of the command table answers: a background row waits while the foreground has a command ready (R23); a record of
its opcode with a reserved field set is refused (R6); otherwise the row acts (DEDUCED, log entry 12)
(DEDUCED, log entry 15). -/
def issueRow (opc : Nat) (body : Nat → Ctx → ListRef → List Word → State → State) (pc : Nat) (c : Ctx) (s : State) :
    Host.Outcome State Fault Refusal :=
  if c = .bg ∧ s.fgReady pc then .next s
  else
    match s.issuePoint pc c with
    | some (_, r, false) => if recOpc r = opc ∧ reservedSet r then .refused .reservedRecord else .next (issue opc body pc c s)
    | _ => .next (issue opc body pc c s)

/-! ### The rows -/

/-- TLD (R109). -/
def execTld (pc : Nat) (c : Ctx) (s : State) : Host.Outcome State Fault Refusal := issueRow 0x01 bodyTld pc c s

/-- TST (R110). -/
def execTst (pc : Nat) (c : Ctx) (s : State) : Host.Outcome State Fault Refusal := issueRow 0x02 bodyTst pc c s

/-- TMOV (R111). -/
def execTmov (pc : Nat) (c : Ctx) (s : State) : Host.Outcome State Fault Refusal := issueRow 0x03 bodyTmov pc c s

/-- PERM (R114). -/
def execPerm (pc : Nat) (c : Ctx) (s : State) : Host.Outcome State Fault Refusal := issueRow 0x10 (bodyRouted true) pc c s

/-- PERMX (R118). -/
def execPermx (pc : Nat) (c : Ctx) (s : State) : Host.Outcome State Fault Refusal := issueRow 0x11 bodyPermx pc c s

/-- AXP (R117). -/
def execAxp (pc : Nat) (c : Ctx) (s : State) : Host.Outcome State Fault Refusal := issueRow 0x12 bodyLinear pc c s

/-- TRN (R117). -/
def execTrn (pc : Nat) (c : Ctx) (s : State) : Host.Outcome State Fault Refusal := issueRow 0x13 bodyLinear pc c s

/-- GTH (R115). -/
def execGth (pc : Nat) (c : Ctx) (s : State) : Host.Outcome State Fault Refusal := issueRow 0x14 (bodyRouted false) pc c s

/-- SCT (R115). -/
def execSct (pc : Nat) (c : Ctx) (s : State) : Host.Outcome State Fault Refusal := issueRow 0x15 (bodyRouted false) pc c s

/-- SHUF (R116). -/
def execShuf (pc : Nat) (c : Ctx) (s : State) : Host.Outcome State Fault Refusal := issueRow 0x16 bodyShuf pc c s

/-- BREV (R117). -/
def execBrev (pc : Nat) (c : Ctx) (s : State) : Host.Outcome State Fault Refusal := issueRow 0x17 bodyLinear pc c s

/-- REDP (R119). -/
def execRedp (pc : Nat) (c : Ctx) (s : State) : Host.Outcome State Fault Refusal := issueRow 0x1C bodyRedp pc c s

/-- SORT (R120). -/
def execSort (pc : Nat) (c : Ctx) (s : State) : Host.Outcome State Fault Refusal := issueRow 0x1D bodySort pc c s

/-- ILV (R122). -/
def execIlv (pc : Nat) (c : Ctx) (s : State) : Host.Outcome State Fault Refusal := issueRow 0x18 bodyIlv pc c s

/-- DIL (R122). -/
def execDil (pc : Nat) (c : Ctx) (s : State) : Host.Outcome State Fault Refusal := issueRow 0x19 bodyDil pc c s

/-- REMAP (R123). -/
def execRemap (pc : Nat) (c : Ctx) (s : State) : Host.Outcome State Fault Refusal := issueRow 0x1A bodyRemap pc c s

/-- WIN (R124). -/
def execWin (pc : Nat) (c : Ctx) (s : State) : Host.Outcome State Fault Refusal := issueRow 0x1B bodyWin pc c s

/-- CVT (R125). -/
def execCvt (pc : Nat) (c : Ctx) (s : State) : Host.Outcome State Fault Refusal := issueRow 0x20 bodyCvt pc c s

/-- SCALE (R125, R153). -/
def execScale (pc : Nat) (c : Ctx) (s : State) : Host.Outcome State Fault Refusal := issueRow 0x21 bodyScale pc c s

/-- QNT (R125, R150). -/
def execQnt (pc : Nat) (c : Ctx) (s : State) : Host.Outcome State Fault Refusal := issueRow 0x22 bodyQnt pc c s

/-- DQN (R125, R149). -/
def execDqn (pc : Nat) (c : Ctx) (s : State) : Host.Outcome State Fault Refusal := issueRow 0x23 bodyDqn pc c s

/-- HOLD (R126). -/
def execHold (pc : Nat) (c : Ctx) (s : State) : Host.Outcome State Fault Refusal := issueRow 0x30 bodyHold pc c s

/-- WAIT (R126). -/
def execWait (pc : Nat) (c : Ctx) (s : State) : Host.Outcome State Fault Refusal := issueRow 0x31 bodyWait pc c s

/-- SIG (R126). -/
def execSig (pc : Nat) (c : Ctx) (s : State) : Host.Outcome State Fault Refusal := issueRow 0x32 bodySig pc c s

/-- HPOP (R126). -/
def execHpop (pc : Nat) (c : Ctx) (s : State) : Host.Outcome State Fault Refusal := issueRow 0x33 bodyHpop pc c s

/-- HPUSH (R126). -/
def execHpush (pc : Nat) (c : Ctx) (s : State) : Host.Outcome State Fault Refusal := issueRow 0x34 bodyHpush pc c s

/-- PDL (R129). -/
def execPdl (pc : Nat) (c : Ctx) (s : State) : Host.Outcome State Fault Refusal := issueRow 0x35 bodyPdl pc c s

/-- ADMIT (R130). -/
def execAdmit (pc : Nat) (c : Ctx) (s : State) : Host.Outcome State Fault Refusal := issueRow 0x36 bodyAdmit pc c s

/-- STAMP (R126). -/
def execStamp (pc : Nat) (c : Ctx) (s : State) : Host.Outcome State Fault Refusal := issueRow 0x37 bodyStamp pc c s

/-- FENCE (R126). -/
def execFence (pc : Nat) (c : Ctx) (s : State) : Host.Outcome State Fault Refusal := issueRow 0x38 bodyFence pc c s

/-- END (R126). -/
def execEndList (pc : Nat) (c : Ctx) (s : State) : Host.Outcome State Fault Refusal := issueRow 0x3F bodyEnd pc c s

end Sys2Proof.Machine
end

