-- ==== Sys2Proof/Machine/Dispatch.lean ====
section
/-! DEFINITION. The one arm of each command. -/

namespace Sys2Proof.Machine

def exec (i : Instr) (s : State) : Host.Outcome State Fault Refusal :=
  match i with
  | .gong at_ => Sys2Proof.Machine.execGong at_ s
  | .stroke at_ => Sys2Proof.Machine.execStroke at_ s
  | .curfew at_ => Sys2Proof.Machine.execCurfew at_ s
  | .auditComplete at_ => Sys2Proof.Machine.execAuditComplete at_ s
  | .pairApply p => Sys2Proof.Machine.execPairApply p s
  | .gongEnable => Sys2Proof.Machine.execGongEnable s
  | .gongDisable => Sys2Proof.Machine.execGongDisable s
  | .gongModeWrite mode => Sys2Proof.Machine.execGongModeWrite mode s
  | .gongTypeOvrArm type => Sys2Proof.Machine.execGongTypeOvrArm type s
  | .clrCnt => Sys2Proof.Machine.execClrCnt s
  | .clrMin => Sys2Proof.Machine.execClrMin s
  | .pairHalfWrite p h v => Sys2Proof.Machine.execPairHalfWrite p h v s
  | .registerWrite off v strb => Sys2Proof.Machine.execRegisterWrite off v strb s
  | .trfPartWrite pc part => Sys2Proof.Machine.execTrfPartWrite pc part s
  | .trfPartApply pc => Sys2Proof.Machine.execTrfPartApply pc s
  | .trfCntClr pc => Sys2Proof.Machine.execTrfCntClr pc s
  | .tld pc ctx => Sys2Proof.Machine.execTld pc ctx s
  | .tst pc ctx => Sys2Proof.Machine.execTst pc ctx s
  | .tmov pc ctx => Sys2Proof.Machine.execTmov pc ctx s
  | .perm pc ctx => Sys2Proof.Machine.execPerm pc ctx s
  | .permx pc ctx => Sys2Proof.Machine.execPermx pc ctx s
  | .axp pc ctx => Sys2Proof.Machine.execAxp pc ctx s
  | .trn pc ctx => Sys2Proof.Machine.execTrn pc ctx s
  | .gth pc ctx => Sys2Proof.Machine.execGth pc ctx s
  | .sct pc ctx => Sys2Proof.Machine.execSct pc ctx s
  | .shuf pc ctx => Sys2Proof.Machine.execShuf pc ctx s
  | .brev pc ctx => Sys2Proof.Machine.execBrev pc ctx s
  | .ilv pc ctx => Sys2Proof.Machine.execIlv pc ctx s
  | .dil pc ctx => Sys2Proof.Machine.execDil pc ctx s
  | .remap pc ctx => Sys2Proof.Machine.execRemap pc ctx s
  | .win pc ctx => Sys2Proof.Machine.execWin pc ctx s
  | .redp pc ctx => Sys2Proof.Machine.execRedp pc ctx s
  | .sort pc ctx => Sys2Proof.Machine.execSort pc ctx s
  | .cvt pc ctx => Sys2Proof.Machine.execCvt pc ctx s
  | .scale pc ctx => Sys2Proof.Machine.execScale pc ctx s
  | .qnt pc ctx => Sys2Proof.Machine.execQnt pc ctx s
  | .dqn pc ctx => Sys2Proof.Machine.execDqn pc ctx s
  | .hold pc ctx => Sys2Proof.Machine.execHold pc ctx s
  | .wait pc ctx => Sys2Proof.Machine.execWait pc ctx s
  | .sig pc ctx => Sys2Proof.Machine.execSig pc ctx s
  | .hpop pc ctx => Sys2Proof.Machine.execHpop pc ctx s
  | .hpush pc ctx => Sys2Proof.Machine.execHpush pc ctx s
  | .pdl pc ctx => Sys2Proof.Machine.execPdl pc ctx s
  | .admission pc ctx => Sys2Proof.Machine.execAdmit pc ctx s
  | .stamp pc ctx => Sys2Proof.Machine.execStamp pc ctx s
  | .fence pc ctx => Sys2Proof.Machine.execFence pc ctx s
  | .endList pc ctx => Sys2Proof.Machine.execEndList pc ctx s
  | .malletGrant at_ => Sys2Proof.Machine.execMalletGrant at_ s
  | .tileComplete pc id => Sys2Proof.Machine.execTileComplete pc id s
  | .tileRestart pc id => Sys2Proof.Machine.execTileRestart pc id s
  | .rowReturn pc id row => Sys2Proof.Machine.execRowReturn pc id row s
  | .routeFetchComplete pc slot => Sys2Proof.Machine.execRouteFetchComplete pc slot s
  | .solveComplete pc slot => Sys2Proof.Machine.execSolveComplete pc slot s
  | .xcxContribution lc coll slice => Sys2Proof.Machine.execXcxContribution lc coll slice s
  | .xcxWaitLimitExpiry coll at_ => Sys2Proof.Machine.execXcxWaitLimitExpiry coll at_ s
  | .fabCntClr pc => Sys2Proof.Machine.execFabCntClr pc s
  | .routeTableWrite off v strb => Sys2Proof.Machine.execRouteTableWrite off v strb s
  | .shadowDirWrite off v strb => Sys2Proof.Machine.execShadowDirWrite off v strb s
  | .routeUpdArm => Sys2Proof.Machine.execRouteUpdArm s
  | .routeUpdDrop => Sys2Proof.Machine.execRouteUpdDrop s
  | .soCountWrite so v strb => Sys2Proof.Machine.execSoCountWrite so v strb s
  | .soAddWrite so v strb => Sys2Proof.Machine.execSoAddWrite so v strb s
  | .cvtLfsrWrite pc v => Sys2Proof.Machine.execCvtLfsrWrite pc v s
  | .cvtCntClr pc => Sys2Proof.Machine.execCvtCntClr pc s
  | .histClr lc slot => Sys2Proof.Machine.execHistClr lc slot s
  | .poolWindowRead off n => Sys2Proof.Machine.execPoolWindowRead off n s
  | .poolWindowWrite off beats => Sys2Proof.Machine.execPoolWindowWrite off beats s
  | .sinFrame port f => Sys2Proof.Machine.execSinFrame port f s
  | .soutFrame port => Sys2Proof.Machine.execSoutFrame port s
  | .soutCredit port n => Sys2Proof.Machine.execSoutCredit port n s
  | .ringPoll ring index descs at_ => Sys2Proof.Machine.execRingPoll ring index descs at_ s
  | .outboundRingCopy ring at_ => Sys2Proof.Machine.execOutboundRingCopy ring at_ s
  | .burstFlush chan => Sys2Proof.Machine.execBurstFlush chan s
  | .deadlockDetect at_ => Sys2Proof.Machine.execDeadlockDetect at_ s
  | .spillComplete q slot => Sys2Proof.Machine.execSpillComplete q slot s
  | .streamCntClr => Sys2Proof.Machine.execStreamCntClr s
  | .stallCntClr pc => Sys2Proof.Machine.execStallCntClr pc s
  | .load => Sys2Proof.Machine.execLoad s
  | .loadStaged => Sys2Proof.Machine.execLoadStaged s
  | .abort => Sys2Proof.Machine.execAbort s
  | .commit => Sys2Proof.Machine.execCommit s
  | .restore => Sys2Proof.Machine.execRestore s
  | .drop => Sys2Proof.Machine.execDrop s
  | .pairDrop => Sys2Proof.Machine.execPairDrop s
  | .cfgKeyLock => Sys2Proof.Machine.execCfgKeyLock s
  | .cfgCrcCheck at_ => Sys2Proof.Machine.execCfgCrcCheck at_ s
  | .imageResume => Sys2Proof.Machine.execImageResume s
  | .interpCalibrate k at_ => Sys2Proof.Machine.execInterpCalibrate k at_ s
  | .todWord w bits => Sys2Proof.Machine.execTodWord w bits s
  | .timePulse c at_ => Sys2Proof.Machine.execTimePulse c at_ s
  | .pulseTimeout at_ => Sys2Proof.Machine.execPulseTimeout at_ s
  | .setCtrlGo => Sys2Proof.Machine.execSetCtrlGo s
  | .rateNomWrite v => Sys2Proof.Machine.execRateNomWrite v s
  | .eventRingWrite ring n at_ => Sys2Proof.Machine.execEventRingWrite ring n at_ s
  | .ringConsumerPoll ring index at_ => Sys2Proof.Machine.execRingConsumerPoll ring index at_ s
  | .watermarkWrite ring at_ => Sys2Proof.Machine.execWatermarkWrite ring at_ s
  | .mpReadData port tag data resp poison last => Sys2Proof.Machine.execMpReadData port tag data resp poison last s
  | .mpWriteResponse port tag resp => Sys2Proof.Machine.execMpWriteResponse port tag resp s
  | .mpRetry port tag at_ => Sys2Proof.Machine.execMpRetry port tag at_ s
  | .xlpResponse id a => Sys2Proof.Machine.execXlpResponse id a s
  | .xlpRequestTimeout id at_ => Sys2Proof.Machine.execXlpRequestTimeout id at_ s
  | .xlpInvalidate pasid va count all => Sys2Proof.Machine.execXlpInvalidate pasid va count all s
  | .xlpRetry wait at_ => Sys2Proof.Machine.execXlpRetry wait at_ s
  | .flimitExpiry wait at_ => Sys2Proof.Machine.execFlimitExpiry wait at_ s
  | .tlbInvAll => Sys2Proof.Machine.execTlbInvAll s
  | .xlpPasidWrite pasid en => Sys2Proof.Machine.execXlpPasidWrite pasid en s
  | .quiesceReqRise => Sys2Proof.Machine.execQuiesceReqRise s
  | .quiesceReqFall => Sys2Proof.Machine.execQuiesceReqFall s
  | .resetQuiesceTimeout at_ => Sys2Proof.Machine.execResetQuiesceTimeout at_ s
  | .hcpAccessInReset off write => Sys2Proof.Machine.execHcpAccessInReset off write s
  | .defaultTargetAccess m off write => Sys2Proof.Machine.execDefaultTargetAccess m off write s
  | .regionOffAccess m off write => Sys2Proof.Machine.execRegionOffAccess m off write s
  | .hcpReset => Sys2Proof.Machine.execHcpReset s
  | .stateEntryComplete g => Sys2Proof.Machine.execStateEntryComplete g s
  | .aonCompareWake c at_ => Sys2Proof.Machine.execAonCompareWake c at_ s
  | .wakePin => Sys2Proof.Machine.execWakePin s
  | .wspFrame addr parity => Sys2Proof.Machine.execWspFrame addr parity s
  | .sinActivityWake port => Sys2Proof.Machine.execSinActivityWake port s
  | .wakeStepComplete g => Sys2Proof.Machine.execWakeStepComplete g s
  | .wakeStepTimeout g => Sys2Proof.Machine.execWakeStepTimeout g s
  | .rgnVoteSet g v => Sys2Proof.Machine.execRgnVoteSet g v s
  | .rgnVoteClr g v => Sys2Proof.Machine.execRgnVoteClr g v s
  | .lastWakeAck => Sys2Proof.Machine.execLastWakeAck s
  | .blockOff => Sys2Proof.Machine.execBlockOff s
  | .railReqGo mv => Sys2Proof.Machine.execRailReqGo mv s
  | .srpAnswer body parityOk => Sys2Proof.Machine.execSrpAnswer body parityOk s
  | .srpTimeout at_ => Sys2Proof.Machine.execSrpTimeout at_ s
  | .neighbourSample temps at_ => Sys2Proof.Machine.execNeighbourSample temps at_ s
  | .throttleEdge level => Sys2Proof.Machine.execThrottleEdge level s
  | .refSel level => Sys2Proof.Machine.execRefSel level s
  | .refStartTimeout at_ => Sys2Proof.Machine.execRefStartTimeout at_ s
  | .corePgFall => Sys2Proof.Machine.execCorePgFall s
  | .detectorReport r => Sys2Proof.Machine.execDetectorReport r s
  | .drainWindowEnd pc at_ => Sys2Proof.Machine.execDrainWindowEnd pc at_ s
  | .knellReqGo pc => Sys2Proof.Machine.execKnellReqGo pc s
  | .scrubRead k word c => Sys2Proof.Machine.execScrubRead k word c s
  | .watchdogProbe pc answered at_ => Sys2Proof.Machine.execWatchdogProbe pc answered at_ s
  | .injArm det v => Sys2Proof.Machine.execInjArm det v s
  | .injection det at_ => Sys2Proof.Machine.execInjection det at_ s
  | .lockstepMismatch pair => Sys2Proof.Machine.execLockstepMismatch pair s
  | .pairRestartComplete pair pass0 pass1 => Sys2Proof.Machine.execPairRestartComplete pair pass0 pass1 s
  | .duplicateStateMismatch => Sys2Proof.Machine.execDuplicateStateMismatch s
  | .diagGo pc => Sys2Proof.Machine.execDiagGo pc s
  | .diagComplete pass => Sys2Proof.Machine.execDiagComplete pass s
  | .unknell pc => Sys2Proof.Machine.execUnknell pc s
  | .ptestCycle failed at_ => Sys2Proof.Machine.execPtestCycle failed at_ s
  | .coldStart key inst => Sys2Proof.Machine.execColdStart key inst s
  | .warmStart key => Sys2Proof.Machine.execWarmStart key s
  | .bistComplete coreFail spineFail controlFail aonFail => Sys2Proof.Machine.execBistComplete coreFail spineFail controlFail aonFail s
  | .fetch => Sys2Proof.Machine.execFetch s
  | .limnyRunning selfTestPass => Sys2Proof.Machine.execLimnyRunning selfTestPass s
  | .bootWdogExpiry at_ => Sys2Proof.Machine.execBootWdogExpiry at_ s
  | .restart => Sys2Proof.Machine.execRestart s
  | .fscClr => Sys2Proof.Machine.execFscClr s
  | .monBist coreFail spineFail controlFail => Sys2Proof.Machine.execMonBist coreFail spineFail controlFail s
  | .monReadRetention arg => Sys2Proof.Machine.execMonReadRetention arg s
  | .monReserved cmd => Sys2Proof.Machine.execMonReserved cmd s
  | .jtagBypass => Sys2Proof.Machine.execJtagBypass s
  | .jtagIdcode => Sys2Proof.Machine.execJtagIdcode s
  | .jtagMbist coreFail spineFail controlFail => Sys2Proof.Machine.execJtagMbist coreFail spineFail controlFail s
  | .jtagScan => Sys2Proof.Machine.execJtagScan s
  | .warmReset => Sys2Proof.Machine.execWarmReset s
  | .powerOnReset => Sys2Proof.Machine.execPowerOnReset s
  | .regionReturnToRun g => Sys2Proof.Machine.execRegionReturnToRun g s

end Sys2Proof.Machine
end

