-- ==== Sys2Proof/Safety.lean ====
section
/-! DEFINITION. What counts as a sound state of the block, in the terms the statements use: the canonical form of
every memory, which every command keeps. -/

namespace Sys2Proof.Machine

/-- Every byte memory of the block is in canonical form. -/
def State.memWf (s : State) : Prop :=
  s.st.pool.wf = true ∧ s.routes.table.wf = true ∧ s.retain.wf = true
    ∧ (∀ q : Nat, (s.seq q).wf = true) ∧ (∀ pc : Nat, (s.core pc).staging.wf = true)

/-- Nothing is in the way of an access of the HCP at this offset: nothing waits at the HCP, fewer than 16 of its bursts are
outstanding in each direction (R272), and no burst holds or waits for the path to its target port (R287, R288). -/
def State.pathFree (s : State) (off : Nat) : Bool :=
  let t := s.target (s.portOf .hcp off)
  s.hcp.offers.isEmpty && t.path.isNone && t.waits.isEmpty && decide (s.hcpBursts true < 16) && decide (s.hcpBursts false < 16)

/-- The control matrix serves an access of the HCP at this offset at once: the block is powered and out of reset, the
offset has a target, the region of the target runs with no pair being applied, and the path is free (R285, R286, R288, R294, R299, R313). -/
def State.serves (s : State) (off : Nat) : Bool := !s.pwr.blockOff && decide (s.verdict .hcp off = .serve) && s.pathFree off

/-- An access without a value of a master reaches its target port at once: for the HCP with its path free, for another master where the
matrix forwards its port and no burst holds or waits for the path (R286, R288). -/
def State.reaches (s : State) (m : Master) (off : Nat) : Bool :=
  let t := s.target (s.portOf m off)
  if m = .hcp then s.pathFree off else s.forwards m && t.path.isNone && t.waits.isEmpty

/-- The state once the target port of an offset has granted a master and its burst has passed: the port parks on it (R287). -/
def State.grantedTo (s : State) (m : Master) (off : Nat) : State :=
  s.setTarget (s.portOf m off) { last := some m, park := some m, smRun := 0, path := none, waits := [] }

/-- The same for the HCP. -/
def State.granted (s : State) (off : Nat) : State := s.grantedTo .hcp off

/-- The state with the answer of the last access on the HCP. -/
def State.respond (s : State) (r : Resp) : State := { s with hcp := { s.hcp with resp := r } }

/-- The record `r` of list `l` stands at the issue point of a context, and it is a command of opcode `opc` that the checks of
R94, R98 and R100 let through: no reserved field set, its BARRIER met, its shape code and flags valid, its index in range (END may be
the last record of the longest list); the foreground, which issues first, has no command ready (R23). -/
def State.atIssue (s : State) (pc : Nat) (c : Ctx) (opc : Nat) (l : ListRef) (r : List Word) : Prop :=
  s.issuePoint pc c = some (l, r, false) ∧ recOpc r = opc ∧ opcodes.contains opc = true ∧ reservedSet r = false
    ∧ (recBarrier r = true → s.ctxDone pc c = true) ∧ shpOk r = true ∧ flagsOk r = true
    ∧ (opc = 0x3F ∨ ((s.core pc).ctx c).index < 16383) ∧ (c = .bg → s.fgReady pc = false)

/-- A tile command meets no wait and breaks no rule that is judged at issue (R23, R41, R50, R105, R131). -/
def State.tileClean (s : State) (pc : Nat) (c : Ctx) (dest : Option Nat) (srcs : List Nat) (errs : List (Bool × Nat))
    (shapes : List (Bool × Nat × Nat)) : Prop :=
  s.tileWait pc c dest srcs = none ∧ lowestErr errs = none ∧ firstShape shapes = none

/-- A light command needs no mallet; a heavy one goes with what `need` gives it (R25, R107, R130). -/
def State.malletFor (s : State) (pc : Nat) (c : Ctx) (l : ListRef) (r : List Word) (heavy : Bool) (m : Option Mallet) : Prop :=
  if heavy then s.need pc c l (wclass r) = .go m else m = none

/-- The routes that a fabric command wants are there (R69, R71): none is in error, and `u` is the state with them looked up. -/
def State.routesReady (s : State) (pc : Nat) (ws : List Want) (got : List (Route × Kinds)) (u : State) : Prop :=
  s.firstRouteErr pc ws = none ∧ u = ws.foldl (fun s w => s.seek pc w) s ∧ ws.mapM (fun w => u.wantGot pc w) = some got

/-- The commands that may move the GSN (R14, R17, R254, R299, R358): a gong, whatever lets presented time step (a pulse, an access of the
control matrix, served at once or where a region that runs or a reset of its master lets a waiting one pass), and what loses all state. -/
def movesGsn (c : Instr) : Bool :=
  (accessAt c).isSome ||
    match c with
    | .gong _ | .timePulse _ _ | .hcpReset | .wakeStepComplete _ | .regionReturnToRun _ | .powerOnReset | .wakePin | .wspFrame _ _ => true
    | _ => false

end Sys2Proof.Machine
end

