-- ==== Sys2Proof/Certificates/Slice0/Obligations.lean ====
section
/-! DEFINITION. The statements about the block, one for each property of the rules of the spec that the model must have. -/

open Sys2Proof Sys2Proof.Machine

/-! ### The step, the reset state, the queue -/

/-- A step takes the command at the front of the queue and runs its effect with the queue's rest. -/
def Obligations.StepRunsTheFrontCommand : Prop :=
  ∀ (s : State) (c : Instr) (rest : List Instr), s.pending = c :: rest → step s = exec c { s with pending := rest }

/-- On an empty queue the block idles for one reference tick (log entry 10, the model's choice): the LTC counts one edge of
CLK_REF (R239) while AON is powered and CLK_REF runs, and stands while AON is off. -/
def Obligations.EmptyQueueLetsOneTickPass : Prop :=
  ∀ s : State, s.pending = [] →
    (s.pwr.blockOff = false → s.tu.onSlow = false →
      ∃ t, step s = .next t ∧ t.tu.ltc = (s.tu.ltc + 1) % 2 ^ 64 ∧ t.gong.gsn = s.gong.gsn ∧ t.st = s.st ∧ t.cfg = s.cfg ∧ t.regs = s.regs
        ∧ t.pending = [])
    ∧ (s.pwr.blockOff = true → step s = .next s)

/-- What the register tables and rules give for reset (the values that log entries choose are not among these): the grid and
the GSN (R17, 02), the time unit (R264, 09), the conversion registers of every core (06), the configuration unit (08), the
ports and the power unit (10, 11), the safety manager (12), and a cold start that is due (R358);
no memory lists anything, so each is in canonical form (log entry 5). -/
def Obligations.ResetLeavesTheStatedValues : Prop :=
  let s := State.reset
  s.gong.en = false ∧ s.gong.gsn = 0 ∧ s.gong.period = 500000 ∧ s.gong.strokes = 14 ∧ s.gong.curfew = 2000 ∧ s.gong.skipCnt = 0
    ∧ s.tu.ltc = 0 ∧ s.tu.invalid = true ∧ s.tu.epoch = 0 ∧ s.tu.offset = 0 ∧ s.tu.rate = 0x001A0AAAAAAAAAAB
    ∧ (∀ pc : Nat, (s.core pc).lfsr = 1 ∧ (s.core pc).part = false ∧ (s.core pc).cnt = CoreCounters.reset)
    ∧ (∀ n : Nat, (s.lc n).marginLast = 0x7FFFFFFF ∧ (s.lc n).marginMin = 0x7FFFFFFF ∧ (s.lc n).pc = none)
    ∧ (∀ h : Nat, h < 256 → s.reg (0x41000 + 8 * h) = 0x0000AA13)
    ∧ (∀ q : Nat, (s.queue q).handles = [] ∧ (s.queue q).valid = false)
    ∧ (∀ n : Nat, (s.sync n).count = 0)
    ∧ s.cfg.state = .empty ∧ s.cfg.active = none ∧ s.sm.fenced = 0 ∧ s.mp.cmMiss = 0 ∧ s.pwr.admitted = 0
    ∧ s.boot.state = .check ∧ s.boot.ready = false ∧ s.boot.fsc = 0 ∧ s.inReset = true ∧ s.pending = [] ∧ s.memWf

/-! ### Accesses on the HCP -/

/-- An access that the control matrix does not serve: nothing drives the HCP in block OFF (R299); while the block
stands in reset, and, with the path free (R288), at the default target and at a region that is off and does not wake for it, the answer
is NO_TARGET, a read returns data 0 on every beat, and the access counts (R285, R290, R294), with the address, master and code of
the last one kept.  In reset the access itself makes no record and changes nothing but the answer and the count (R285);
`settle` is what follows every effect. -/
def Obligations.AccessNotServedAnswersNoTarget : Prop :=
  ∀ (s : State) (c : Instr) (off : Nat) (w : Bool), accessAt c = some (off, w) → (∀ m o b, c ≠ .regionOffAccess m o b) →
    (∀ m o b, c ≠ .defaultTargetAccess m o b) →
    let answer : HcpPort := match c with
      | .poolWindowRead _ n => { s.hcp with resp := .noTarget, data := List.replicate n 0, poison := List.replicate n false }
      | _ => { s.hcp with resp := .noTarget }
    (s.pwr.blockOff = true → exec c s = .fault .hcpUnpowered)
    ∧ (s.pwr.blockOff = false →
        (s.inReset = true →
          exec c s = .next (settle s { s with mp := { s.mp with hcpRst := min (s.mp.hcpRst + 1) 0xFFFFFFFF }, hcp := answer }))
        ∧ (s.verdict .hcp off = .miss → s.pathFree off = true →
          ∃ t, exec c s = .next t ∧ t.hcp = answer ∧ t.mp.cmMiss = min (s.mp.cmMiss + 1) 0xFFFFFFFF
            ∧ t.mp.cmLastAddr = off % 0x4000000 ∧ t.mp.cmLastMst = 0 ∧ t.mp.cmLastCode = 0x0408
            ∧ t.regs = s.regs ∧ t.gong = s.gong ∧ t.cores = s.cores ∧ t.cfg = s.cfg)
        ∧ (∀ g, s.verdict .hcp off = .off g → s.pathFree off = true →
          ∃ t, exec c s = .next t ∧ t.hcp = answer ∧ t.mp.cmOff = min (s.mp.cmOff + 1) 0xFFFFFFFF
            ∧ t.mp.cmLastAddr = off % 0x4000000 ∧ t.mp.cmLastMst = 0 ∧ t.mp.cmLastCode = 0x0409
            ∧ t.regs = s.regs ∧ t.gong = s.gong ∧ t.cores = s.cores ∧ t.cfg = s.cfg))

/-- The rows that name an access without a value do the same, for the HCP and for the other masters that the matrix forwards (which have
no answer on the HCP); an access to a region in IDLE or SLEEP that wakes for accesses counts and holds its path until the region runs
(R288, R294).  A path that is held lets no other access in: it waits for its grant; the SM is granted first, four times at most while
another waits, and then the next master in the round after the one last granted (R287).  HCP_RST_N discards every access of the HCP that
holds no path and makes the others orphans (R292), and changes nothing else where no access is under way; an orphan whose region runs
is finished and counted. -/
def Obligations.AccessRowsWithoutAValue : Prop :=
  (∀ (s : State) (m : Master) (off : Nat) (w : Bool), s.pwr.blockOff = false →
    let answer : HcpPort := if w = true then { s.hcp with resp := .noTarget }
      else { s.hcp with resp := .noTarget, data := [0], poison := [false] }
    (s.inReset = true → exec (.hcpAccessInReset off w) s
      = .next (settle s { s with mp := { s.mp with hcpRst := min (s.mp.hcpRst + 1) 0xFFFFFFFF }, hcp := answer }))
    ∧ (s.verdict m off = .miss → s.reaches m off = true →
        ∃ t, exec (.defaultTargetAccess m off w) s = .next t ∧ t.mp.cmMiss = min (s.mp.cmMiss + 1) 0xFFFFFFFF
          ∧ t.mp.cmLastAddr = off % 0x4000000 ∧ t.mp.cmLastCode = 0x0408
          ∧ t.hcp = (if m = .hcp then answer else s.hcp) ∧ t.regs = s.regs)
    ∧ (∀ g, s.verdict m off = .off g → s.reaches m off = true →
        ∃ t, exec (.regionOffAccess m off w) s = .next t ∧ t.mp.cmOff = min (s.mp.cmOff + 1) 0xFFFFFFFF
          ∧ t.mp.cmLastAddr = off % 0x4000000 ∧ t.mp.cmLastCode = 0x0409
          ∧ t.hcp = (if m = .hcp then answer else s.hcp) ∧ t.regs = s.regs)
    ∧ (∀ g, s.verdict m off = .stall g → s.reaches m off = true → (s.region g).entering = none →
        ∃ t, exec (.regionOffAccess m off w) s = .next t ∧ t.mp.cmOff = min (s.mp.cmOff + 1) 0xFFFFFFFF
          ∧ (t.target (s.portOf m off)).path = some { who := m, cmd := .regionOffAccess m off w, orphan := false }
          ∧ t.hcp = s.hcp ∧ t.regs = s.regs)
    ∧ (∀ g a, s.verdict m off = .stall g ∨ s.verdict m off = .off g → m ≠ .hcp → s.forwards m = true →
        let k := s.portOf m off
        (s.target k).path = some a → exec (.regionOffAccess m off w) s = .next (settle s (s.setTarget k { s.target k with
          waits := (s.target k).waits ++ [{ who := m, cmd := .regionOffAccess m off w, orphan := false }] }))))
    ∧ (∀ t : Target,
      (t.waits.any (fun a => decide (a.who = .sm)) = true → t.smRun < 4 ∨ (∀ a ∈ t.waits, a.who = .sm) → t.pick = some .sm)
      ∧ ((∀ a ∈ t.waits, a.who ≠ .sm) ∨ 4 ≤ t.smRun → ∀ m n : Master, t.last = some m → n ≠ .sm → (∃ a ∈ t.waits, a.who = n) →
          (∀ a ∈ t.waits, a.who ≠ .sm → (masterCode n + 5 - masterCode m) % 6 ≤ (masterCode a.who + 5 - masterCode m) % 6) →
          t.pick = some n))
    ∧ ∀ s : State, (∃ t, exec .hcpReset s = .next t ∧ t.hcp.offers = []
        ∧ ∀ k, (∀ a ∈ (t.target k).waits, a.who ≠ .hcp) ∧ ∀ a, (t.target k).path = some a → a.who = .hcp → a.orphan = true)
      ∧ ((∀ e ∈ s.mp.targets, e.2.path = none ∧ e.2.waits = []) → (∀ g, g < 8 → (s.region g).access = false) →
        exec .hcpReset s = .next (settle s { s with hcp := { s.hcp with offers := [] } }))
      ∧ ∀ (k off : Nat) (w : Bool) (a : MAccess), (s.target k).path = some a → a.orphan = true → accessAt a.cmd = some (off, w) →
        s.verdict a.who off = .serve → let t := s.tryPath k false
          t.mp.cmOrphan = min (s.mp.cmOrphan + 1) 0xFFFFFFFF ∧ (t.target k).path = none ∧ t.regs = s.regs ∧ t.hcp = s.hcp ∧ t.cores = s.cores
            ∧ t.gong = s.gong ∧ t.cfg = s.cfg


/-! ### Registers of the gong unit and the counters -/

/-- GONG_ENABLE, GONG_DISABLE, GONG_MODE_WRITE and GONG_TYPE_OVR_ARM, served: EN set starts gongs at the next boundary, or in
free-run mode 1 µs later (R14); EN cleared stops them, ends the curfew, leaves every released list without a deadline and lets
a waiting MODE take effect (R15); MODE takes effect at once only while EN is 0 (R15); ARM holds the written TYPE for the next
gong (R20).  Nothing else changes but the answer, the port that the access was granted (R287, `granted`) and what follows every effect. -/
def Obligations.GongControlWrites : Prop :=
  ∀ s : State,
    (s.serves 0x10400 = true → let u := s.granted 0x10400
      exec .gongEnable s = .next (settle s ((if s.gong.en then u else { u with gong := { s.gong with
          en := true, running := false, nextN := (s.nowNs - s.alignNs) / (s.gong.period : Int) + 1
          freeAcc := 0, freeNext := 1000 * 2 ^ 64, freeN := 0 } }).respond .ok))
      ∧ exec .gongDisable s = .next (settle s ((if s.gong.en then { u with
          gong := { s.gong with en := false, inCurfew := false, mode := s.gong.modePend }
          cores := s.cores.map (fun e => (e.1, { e.2 with fg := e.2.fg.releaseLists, bg := e.2.bg.releaseLists })) }
          else u).respond .ok))
      ∧ ∀ m : Bool, exec (.gongModeWrite m) s = .next (settle s ({ u with
          gong := { s.gong with modePend := m, mode := if s.gong.en then s.gong.mode else m } }.respond .ok)))
    ∧ (s.serves 0x10420 = true → ∀ ty : BitVec 4,
        exec (.gongTypeOvrArm ty) s = .next (settle s
          (({ s.granted 0x10420 with gong := { s.gong with arm := true } }.setReg 0x10420 (ty.setWidth 32)).respond .ok)))

/-- The counter clears of the register tables (02, 03, 04, 06, 07), served: exactly the counters of the unit read 0 after
(`granted`: the port that served the access, R287). -/
def Obligations.CounterClears : Prop :=
  ∀ s : State,
    (s.serves 0x10440 = true → let u := s.granted 0x10440
      exec .clrCnt s = .next (settle s (({ u with gong := { s.gong with skipCnt := 0, overrun := 0, lateCnt := 0 } }.onLcs
        (fun l => { l with cuts := 0 })).respond .ok))
      ∧ exec .clrMin s = .next (settle s ((u.onLcs (fun l => { l with marginMin := 0x7FFFFFFF })).respond .ok)))
    ∧ (s.serves 0x6003C = true → exec .streamCntClr s = .next (settle s
        ({ s.granted 0x6003C with st := { s.st with dlCnt := 0, spillCnt := 0, abortCnt := 0, genErr := 0 } }.respond .ok)))
    ∧ ∀ pc : Nat, s.hasCore pc = true →
      (s.serves (0x100120 + 0x10000 * pc) = true → exec (.trfCntClr pc) s = .next (settle s
        (((s.granted (0x100120 + 0x10000 * pc)).onCnt pc (fun c => { c with latchHit := 0, latchMiss := 0, restart := 0 })).respond .ok)))
      ∧ (s.serves (0x10021C + 0x10000 * pc) = true → exec (.fabCntClr pc) s = .next (settle s
        (((s.granted (0x10021C + 0x10000 * pc)).onCnt pc (fun c => { c with fabPass := 0, fabCheck := 0, solves := 0, redpSat := 0, routeMiss := 0 })).respond .ok)))
      ∧ (s.serves (0x10041C + 0x10000 * pc) = true → exec (.cvtCntClr pc) s = .next (settle s
        (((s.granted (0x10041C + 0x10000 * pc)).onCnt pc (fun c => { c with cvtSat := 0, cvtNan := 0, cvtMiss := 0, rescale := 0, under := 0, rerun := 0 })).respond .ok)))
      ∧ (s.serves (0x100580 + 0x10000 * pc) = true → exec (.stallCntClr pc) s = .next (settle s
        (((s.granted (0x100580 + 0x10000 * pc)).onCore pc (fun k => { k with stall := [] })).respond .ok)))

/-- The writes to a core bank that are not clears, and HIST_CFG.CLR, served: TRF_PART of the present value has no effect and of
the other one waits for the core to drain (R59); CVT_LFSR takes the value, and 1 for 0 (R162); CLR waits for the gong (R158). -/
def Obligations.CoreBankWrites : Prop :=
  ∀ (s : State) (pc : Nat), s.hasCore pc = true →
    (s.serves (0x100100 + 0x10000 * pc) = true → ∀ p : Bool,
      (p = (s.core pc).part → exec (.trfPartWrite pc p) s = .next (settle s (((s.granted (0x100100 + 0x10000 * pc)).setCore pc (s.core pc)).respond .ok)))
      ∧ (p ≠ (s.core pc).part → ∃ t, exec (.trfPartWrite pc p) s = .next t ∧ (t.core pc).partPend = some p
          ∧ (t.core pc).part = (s.core pc).part ∧ (t.core pc).tiles = (s.core pc).tiles ∧ (t.core pc).flight = (s.core pc).flight
          ∧ (∀ n, n ≠ pc → t.core n = s.core n) ∧ t.regs = s.regs ∧ t.gong = s.gong ∧ t.lcs = s.lcs))
    ∧ (s.serves (0x100418 + 0x10000 * pc) = true → ∀ v : Word,
      exec (.cvtLfsrWrite pc v) s = .next (settle s (((s.granted (0x100418 + 0x10000 * pc)).onCore pc (fun k => { k with lfsr := if v = 0 then 1 else v })).respond .ok)))
    ∧ ∀ lc h : Nat, lc < 16 → h < 16 → s.serves (0x41000 + 0x80 * lc + 8 * h) = true →
      exec (.histClr lc h) s = .next (settle s (((s.granted (0x41000 + 0x80 * lc + 8 * h)).setHist lc h { s.histOf lc h with clr := true }).respond .ok))

/-! ### Plain registers and agreement pairs -/

/-- A write of one beat, served (R6, R7, R272): it completes where no reserved field is given a value other than 0; to a register bank it
is one whole register, or two in ascending address order, and any other pattern of strobes changes nothing and answers DATA_ERR;
a whole register of plain RW fields without another effect takes exactly the RW bits, which it then holds, every other register
keeping its value (R7).  A write that gives a reserved field another value than 0 stops: the spec does not define what it does (R6). -/
def Obligations.RegisterWriteSetsTheField : Prop :=
  ∀ (s : State) (off : Nat) (v : DWord) (strb : BitVec 8), s.serves off = true →
    let word : Word := if off % 8 = 0 then v.setWidth 32 else (v >>> 32).setWidth 32
    let whole : BitVec 8 := if off % 8 = 0 then 0x0F else 0xF0
    let u := s.granted off
    (s.accessReserved (.registerWrite off v strb) = false → ∃ t, exec (.registerWrite off v strb) s = .next t)
    ∧ (off < 0x220000 →
      (¬ (off % 8 = 0 ∧ (strb = 0x0F ∨ strb = 0xFF)) → ¬ (off % 8 = 4 ∧ strb = 0xF0) →
        exec (.registerWrite off v strb) s = .next (settle s (u.respond .dataErr)))
      ∧ (off % 8 = 0 → reservedBits off (v.setWidth 32) = false → reservedBits (off + 4) ((v >>> 32).setWidth 32) = false →
        exec (.registerWrite off v 0xFF) s
          = .next (settle s (((u.bankWrite off (v.setWidth 32)).bankWrite (off + 4) ((v >>> 32).setWidth 32)).respond .ok)))
      ∧ (off ∈ [0x44, 0x48, 0x10050, 0x10058, 0x10060, 0x10410, 0x20008, 0x20014, 0x20308, 0x40000, 0x40004, 0x50200, 0x50404,
          0x70200, 0x70248, 0x80000, 0x80034] → reservedBits off word = false →
        ∃ t, exec (.registerWrite off v whole) s = .next t
          ∧ t.reg off = (s.reg off &&& ~~~s.rwMask off) ||| (word &&& s.rwMask off) ∧ (∀ r, r ≠ off → t.reg r = s.reg r)
          ∧ t.hcp = { s.hcp with resp := .ok } ∧ t.cores = s.cores ∧ t.gong = s.gong ∧ t.cfg = s.cfg ∧ t.mp = u.mp)
      ∧ (off % 4 = 0 → s.hasReg off = true → reservedBits off word = true →
        exec (.registerWrite off v whole) s = .refused (.reservedWrite off)))

/-- A write to one half of an agreement pair, served, with a value of the field's width: the half becomes pending with that
value, the other half stays as it is, and no other pair and nothing in force changes (R7, R227).  PAIR_DROP leaves no pair
OPEN and leaves COMPLETE pairs (R227). -/
def Obligations.PairHalvesWaitForEachOther : Prop :=
  ∀ s : State,
    (∀ (i : PairId) (v : Word), s.hasPair i = true → v.toNat < 2 ^ pairWidth i .a → s.serves (pairOff i .a) = true →
      ∃ t, exec (.pairHalfWrite i .a v) s = .next t ∧ (t.pair i).a = some v.toNat ∧ (t.pair i).b = (s.pair i).b
        ∧ (∀ j, j ≠ i → t.pair j = s.pair j) ∧ t.gong = s.gong ∧ t.lcs = s.lcs ∧ t.cores = s.cores ∧ t.regs = s.regs)
    ∧ (∀ (i : PairId) (v : Word), s.hasPair i = true → v.toNat < 2 ^ pairWidth i .b → s.serves (pairOff i .b) = true →
      ∃ t, exec (.pairHalfWrite i .b v) s = .next t ∧ (t.pair i).b = some v.toNat ∧ (t.pair i).a = (s.pair i).a
        ∧ (∀ j, j ≠ i → t.pair j = s.pair j) ∧ t.gong = s.gong ∧ t.lcs = s.lcs ∧ t.cores = s.cores ∧ t.regs = s.regs)
    ∧ (s.serves 0x4000C = true → ∃ t, exec .pairDrop s = .next t
        ∧ (∀ i, (t.pair i) = if (s.pair i).open_ then .closed else s.pair i)
        ∧ t.gong = s.gong ∧ t.lcs = s.lcs ∧ t.cores = s.cores ∧ t.regs = s.regs)

/-! ### Windows of the spine -/

/-- The route table and the directories through their windows, served: a write into a group of a live route changes nothing,
counts in ROUTE_WR_ERR and answers DATA_ERR (R74); any other write stores the strobed bytes; a write to the shadow directory
makes its entry dirty; ARM lets the update apply at the next gong; DROP restores the shadow, but not while one is armed (R75). -/
def Obligations.RouteTableAndDirectoryWrites : Prop :=
  ∀ s : State,
    (∀ (off : Nat) (v : DWord) (strb : BitVec 8), off < 0x400000 → s.serves (0xC00000 + off) = true →
      (s.groupLive (off / 8) = true → ∃ t, exec (.routeTableWrite off v strb) s = .next t
        ∧ t.routes = { s.routes with wrErr := min (s.routes.wrErr + 1) 0xFFFF } ∧ t.hcp = { s.hcp with resp := .dataErr })
      ∧ (s.groupLive (off / 8) = false → exec (.routeTableWrite off v strb) s = .next (settle s ({ s.granted (0xC00000 + off) with routes := { s.routes with
          table := s.routes.table.putStrobed (8 * (off / 8)) (leBytes 8 v.toNat) strb.toNat } }.respond .ok))))
    ∧ (∀ (off : Nat) (v : DWord) (strb : BitVec 8), off < 0x8000 → s.serves (0x808000 + off) = true →
      exec (.shadowDirWrite off v strb) s = .next (settle s ({ s.granted (0x808000 + off) with routes := { s.routes with
        shadow := SMap.set s.routes.shadow 0 (off / 8) (mergeBytes (SMap.get s.routes.shadow 0 (off / 8)) v strb)
        dirty := insNat (off / 8) s.routes.dirty } }.respond .ok)))
    ∧ (s.serves 0x810000 = true → let u := s.granted 0x810000
      exec .routeUpdArm s = .next (settle s ({ u with routes := { s.routes with armed := true } }.respond .ok))
      ∧ exec .routeUpdDrop s = .next (settle s ((if s.routes.armed then u
          else { u with routes := { s.routes with shadow := s.routes.active, dirty := [] } }).respond .ok)))

/-- A window write of a whole word to SO_COUNT sets the count, one to SO_ADD adds modulo 2^32 (R135), each naming 0x1F as the last
updater; no other object, core or list changes.  A write with a strobe missing has no effect and answers DATA_ERR, one with
none answers OKAY.  A 64-bit write is two 32-bit writes in ascending order with one answer: DATA_ERR where either half is partial. -/
def Obligations.SyncObjectWrites : Prop :=
  ∀ (s : State) (n : Nat) (v : Word) (strb : BitVec 4), n < 32768 →
    (s.serves (0x400000 + 16 * n) = true →
      (strb = 0xF → ∃ t, exec (.soCountWrite n v strb) s = .next t ∧ t.sync n = { s.sync n with count := v, lastPc := 0x1F, lastInc := 0 }
        ∧ (∀ m, m ≠ n → t.sync m = s.sync m) ∧ t.cores = s.cores ∧ t.lcs = s.lcs ∧ t.hcp = { s.hcp with resp := .ok })
      ∧ (strb ≠ 0xF → exec (.soCountWrite n v strb) s = .next (settle s ((s.granted (0x400000 + 16 * n)).respond (if strb = 0 then .ok else .dataErr)))))
    ∧ (s.serves (0x400004 + 16 * n) = true →
      (strb = 0xF → ∃ t, exec (.soAddWrite n v strb) s = .next t
        ∧ t.sync n = { s.sync n with count := (s.sync n).count + v, lastPc := 0x1F, lastInc := 0 }
        ∧ (∀ m, m ≠ n → t.sync m = s.sync m) ∧ t.cores = s.cores ∧ t.lcs = s.lcs ∧ t.hcp = { s.hcp with resp := .ok })
      ∧ (strb ≠ 0xF → exec (.soAddWrite n v strb) s = .next (settle s ((s.granted (0x400004 + 16 * n)).respond (if strb = 0 then .ok else .dataErr)))))
    ∧ (s.serves (0x400000 + 16 * n) = true → ∀ (d : DWord) (m : BitVec 8),
      (∃ t, exec (.registerWrite (0x400000 + 16 * n) d 0xFF) s = .next t
        ∧ (t.sync n).count = d.setWidth 32 + (d >>> 32).setWidth 32 ∧ (∀ k, k ≠ n → t.sync k = s.sync k) ∧ t.hcp = { s.hcp with resp := .ok })
      ∧ ∃ t, exec (.registerWrite (0x400000 + 16 * n) d m) s = .next t
        ∧ (t.hcp.resp = .dataErr ↔ ¬ ((m &&& 0x0F = 0 ∨ m &&& 0x0F = 0x0F) ∧ (m &&& 0xF0 = 0 ∨ m &&& 0xF0 = 0xF0))))

/-- The pool window (R168, R272), served: a read burst answers the bytes of the pool, with POISON for the beats of words in poison
form, and leaves every byte as it is; a write burst stores its strobed bytes, and a full beat exactly its eight bytes. -/
def Obligations.PoolWindowAccesses : Prop :=
  ∀ (s : State) (off : Nat), off < 0x1000000 → s.serves (0x1000000 + off) = true →
    let u := s.granted (0x1000000 + off)
    (∀ n : Nat, exec (.poolWindowRead off n) s = .next (settle s { u with hcp := { s.hcp with
        resp := .ok
        data := (List.range n).map (fun i => BitVec.ofNat 64 (leNat (s.st.pool.read (off / 8 * 8 + 8 * i) 8)))
        poison := (List.range n).map (fun i => s.st.pool.isBad ((off / 8 * 8 + 8 * i) / 32)) } }))
    ∧ (∀ bs : List HcpBeat, exec (.poolWindowWrite off bs) s = .next (settle s ((u.poolWrite (off / 8 * 8) bs).respond .ok)))
    ∧ (∀ (b : HcpBeat), b.strb = 0xFF → ∀ a : Nat,
        (s.poolWrite (off / 8 * 8) [b]).st.pool.byte a
          = if off / 8 * 8 ≤ a ∧ a < off / 8 * 8 + 8 then b.data.extractLsb' (8 * (a - off / 8 * 8)) 8 else s.st.pool.byte a)

/-! ### Commands of the configuration unit -/

/-- The commands of CFG_CTRL that touch a load (R217, R220, R233) and CFG_KEY_LOCK (R216), served: LOAD of a length of 0 or a
misaligned address fails with 0x0201, and is ignored while a load, a commit or a resumption is under way; ABORT fails a load with
0x020A; COMMIT is latched during a load; RESTORE waits for the gong; DROP discards a staged image with 0x0210. -/
def Obligations.ConfigurationCommands : Prop :=
  ∀ s : State, (s.serves 0x4000C = true → let u := s.granted 0x4000C
      exec .load s = .next (settle s (u.load.respond .ok))
      ∧ (s.boot.state ≠ .minimal → s.cfg.resume = false → s.cfg.state = .empty ∨ s.cfg.state = .failed →
          fld (s.reg 0x40008) 0 24 = 0 ∨ s.imgAddr % 64 ≠ 0 →
          ∃ t, exec .load s = .next t ∧ t.cfg.state = .failed ∧ t.cfg.code = 0x0201 ∧ t.cfg.staged = none ∧ t.cfg.active = s.cfg.active
            ∧ t.gong = s.gong ∧ t.cores = s.cores ∧ t.lcs = s.lcs)
      ∧ (s.cfg.resume = true ∨ s.cfg.state = .loading ∨ s.cfg.state = .verify ∨ s.cfg.state = .writing
          ∨ s.cfg.state = .armed → exec .load s = .next (settle s (u.respond .ok)))
      ∧ (s.cfg.state = .loading ∨ s.cfg.state = .verify ∨ s.cfg.state = .writing →
          (∃ t, exec .abort s = .next t ∧ t.cfg.state = .failed ∧ t.cfg.code = 0x020A ∧ t.cfg.staged = none ∧ t.cfg.latched = false
            ∧ t.cfg.active = s.cfg.active ∧ t.gong = s.gong ∧ t.cores = s.cores ∧ t.lcs = s.lcs)
          ∧ exec .commit s = .next (settle s ({ u with cfg := { s.cfg with latched := true } }.respond .ok))
          ∧ exec .drop s = .next (settle s ({ u with cfg := { s.cfg with latched := false } }.respond .ok)))
      ∧ (s.cfg.state = .staged → exec .commit s = .next (settle s (u.arm.respond .ok)))
      ∧ (s.cfg.state = .staged ∨ s.cfg.state = .armed →
          ∃ t, exec .drop s = .next t ∧ t.cfg.state = .empty ∧ t.cfg.code = 0x0210 ∧ t.cfg.staged = none ∧ t.cfg.active = s.cfg.active
            ∧ t.gong = s.gong ∧ t.cores = s.cores ∧ t.lcs = s.lcs)
      ∧ exec .restore s = .next (settle s ({ u with cfg := { s.cfg with restore := true } }.respond .ok)))
    ∧ (s.serves 0x400B0 = true → exec .cfgKeyLock s = .next (settle s ({ s.granted 0x400B0 with cfg := { s.cfg with keyLock := true } }.respond .ok)))

/-! ### Commands of the time unit, the ports and the power unit -/

/-- RATE_NOM and SET_CTRL.GO, served: a written RATE_NOM waits (R250); GO with SET_NS of a whole second or more has no effect, any
other makes one time step: the epoch counts modulo 256, STEP_CNT counts and TIME_INVALID clears (R247, R250). -/
def Obligations.TimeUnitWrites : Prop :=
  ∀ s : State,
    (s.serves 0x10020 = true → ∀ v : DWord, ∃ t, exec (.rateNomWrite v) s = .next t ∧ t.tu = { s.tu with ratePend := true }
      ∧ t.reg 0x10020 = v.setWidth 32 ∧ t.reg 0x10024 = (v >>> 32).setWidth 32 ∧ (∀ r, r ≠ 0x10020 → r ≠ 0x10024 → t.reg r = s.reg r)
      ∧ t.gong = s.gong ∧ t.cores = s.cores ∧ t.cfg = s.cfg ∧ t.hcp = { s.hcp with resp := .ok })
    ∧ (s.serves 0x1004C = true →
      (999999999 < fld (s.reg 0x10048) 0 30 → exec .setCtrlGo s = .next (settle s ((s.granted 0x1004C).respond .ok)))
      ∧ (fld (s.reg 0x10048) 0 30 ≤ 999999999 → ∃ t, exec .setCtrlGo s = .next t ∧ t.tu.epoch = (s.tu.epoch + 1) % 256
          ∧ t.tu.stepCnt = min (s.tu.stepCnt + 1) 0xFFFFFFFF ∧ t.tu.invalid = false))

/-- TLB_INV.ALL and XLP_CFG, served (R276): INV removes every translation of the pair TLBs and the core slices; a write of XLP_CFG
with the same PASID changes the register alone. -/
def Obligations.TranslationRegisterWrites : Prop :=
  ∀ s : State,
    (s.serves 0x5040C = true → ∃ t, exec .tlbInvAll s = .next t ∧ t.mp = { (s.granted 0x5040C).mp with tlbs := [] }
      ∧ (∀ pc, t.core pc = { s.core pc with slice := [] }) ∧ t.regs = s.regs ∧ t.gong = s.gong ∧ t.lcs = s.lcs ∧ t.cfg = s.cfg)
    ∧ (s.serves 0x50400 = true → ∀ (p : BitVec 20) (en : Bool),
      (∃ t, exec (.xlpPasidWrite p en) s = .next t)
      ∧ (fld (s.reg 0x50400) 0 20 = p.toNat → exec (.xlpPasidWrite p en) s
          = .next (settle s (((s.granted 0x50400).setReg 0x50400 (pack [(0, 20, p.toNat), (31, 1, b2n en)])).respond .ok))))

/-- Votes, LAST_WAKE.ACK and RAIL_REQ.GO, served: a vote write sets or clears the driver bits it names (R301); ACK clears the wake
hold (R306); GO with a request under way changes its register alone, one for a voltage out of range, or without SRP_EN, is not
sent (R314), and one for a multiple of 5 mV within the range that is fit for every region sends the request (R379). -/
def Obligations.PowerUnitWrites : Prop :=
  ∀ s : State,
    (∀ (g : Nat) (v : BitVec 16), g < 8 → s.hasRegion g = true →
      (s.serves (0x20208 + 0x10 * g) = true → exec (.rgnVoteSet g v) s
        = .next (settle s (((s.granted (0x20208 + 0x10 * g)).onRegion g (fun r => { r with driver := r.driver ||| v })).respond .ok)))
      ∧ (s.serves (0x2020C + 0x10 * g) = true → exec (.rgnVoteClr g v) s
        = .next (settle s (((s.granted (0x2020C + 0x10 * g)).onRegion g (fun r => { r with driver := r.driver &&& ~~~v })).respond .ok))))
    ∧ (s.serves 0x20018 = true → exec .lastWakeAck s = .next (settle s ({ s.granted 0x20018 with pwr := { s.pwr with wakeHold := false } }.respond .ok)))
    ∧ (s.serves 0x20028 = true → ∀ mv : BitVec 10,
      (s.pwr.srpBusy = true → exec (.railReqGo mv) s = .next (settle s (((s.granted 0x20028).putLow 0x20028 0x3FF (mv.setWidth 32)).respond .ok)))
      ∧ (s.pwr.srpBusy = false → s.par.srpEn = true → 600 ≤ mv.toNat → mv.toNat ≤ 800 → mv.toNat % 5 = 0 → s.railOk mv.toNat = true →
          ∃ t, exec (.railReqGo mv) s = .next t ∧ t.pins = { s.pins with srpTx := some (BitVec.ofNat 8 (mv.toNat / 5)) }
            ∧ t.gong = s.gong ∧ t.cores = s.cores ∧ t.tu = s.tu)
      ∧ (s.pwr.srpBusy = false → s.par.srpEn = false ∨ mv.toNat < 600 ∨ 800 < mv.toNat →
          ∃ t, exec (.railReqGo mv) s = .next t ∧ t.pins = s.pins ∧ t.gong = s.gong ∧ t.cores = s.cores ∧ t.tu = s.tu))

/-- PWR_CTRL.BLOCK_OFF, served (R299): with every region in OFF the block goes off and all state is lost; with one that is not, the
request is refused and nothing is lost. -/
def Obligations.BlockOffNeedsEveryRegionOff : Prop :=
  ∀ s : State, s.serves 0x20004 = true →
    ((∀ g, g < 8 → s.hasRegion g = true → (s.region g).state = .off) →
      ∃ t, exec .blockOff s = .next t ∧ t.pins.blkOff = true ∧ t.tu = TimeUnit.reset ∧ t.gong = Gong.reset ∧ t.cores = [] ∧ t.cfg = CfgUnit.reset
        ∧ t.retain = Memory.reset ∧ t.par = s.par ∧ t.pending = s.pending)
    ∧ (∀ g, g < 8 → s.hasRegion g = true → (s.region g).state ≠ .off →
      ∃ t, exec .blockOff s = .next t ∧ t.pins = s.pins ∧ t.tu = s.tu ∧ t.gong = s.gong ∧ t.cores = s.cores ∧ t.cfg = s.cfg)

/-! ### Commands of the safety manager and the boot unit -/

/-- KNELL_REQ.GO of a core that is not fenced, served (R335, R337): the core is fenced, its incarnation advances modulo 16, and KNELL_CNT
counts; of a core that is fenced, or that the configuration does not have, nothing but the register changes. -/
def Obligations.KnellRequestFencesTheCore : Prop :=
  ∀ (s : State) (pc : BitVec 5), s.serves 0x30040 = true →
    (s.hasCore pc.toNat = true → s.fenced pc.toNat = false →
      ∃ t, exec (.knellReqGo pc) s = .next t ∧ t.sm.fenced = s.sm.fenced ||| BitVec.ofNat 18 (2 ^ pc.toNat)
        ∧ t.incOf pc.toNat = (s.incOf pc.toNat + 1) % 16 ∧ (∀ n, n ≠ pc.toNat → t.incOf n = s.incOf n)
        ∧ t.sm.knells = min (s.sm.knells + 1) 0xFFFF ∧ t.tu = s.tu ∧ t.gong.gsn = s.gong.gsn)
    ∧ (s.hasCore pc.toNat = false ∨ s.fenced pc.toNat = true →
      exec (.knellReqGo pc) s = .next (settle s (((s.granted 0x30040).putLow 0x30040 0x1F (pc.setWidth 32)).respond .ok)))

/-- Injection, diagnostics and unknell, served: INJ_CTRL arms only under INJ_EN, with a mode of R334 and a unit of the block; DIAG_CTRL.GO
starts only on a fenced core while none runs (R340); UNKNELL.GO waits for the gong only for a fenced core whose diagnostics have
passed (R341). -/
def Obligations.SafetyManagerWrites : Prop :=
  ∀ s : State,
    (∀ (d : Nat) (v : Word), d < 16 → s.serves (0x30300 + 8 * d) = true → exec (.injArm d v) s = .next (settle s
      ((((s.granted (0x30300 + 8 * d)).setReg (0x30300 + 8 * d) v).setInj d { s.inj d with
        armed := bit (s.reg 0x30000) 0 && decide (fld v 0 2 = 1 ∨ fld v 0 2 = 2) && s.injUnit (fld v 2 6) }).respond .ok)))
    ∧ (s.serves 0x30048 = true → ∀ pc : BitVec 5, let u := (s.granted 0x30048).putLow 0x30048 0x1F (pc.setWidth 32)
      exec (.diagGo pc) s = .next (settle s
      ((if s.sm.diagBusy || !s.hasCore pc.toNat || !s.fenced pc.toNat then u
        else { u with sm := { s.sm with diagBusy := true, diagPc := pc.toNat } }).respond .ok)))
    ∧ (s.serves 0x30050 = true → ∀ pc : BitVec 5,
      (s.fenced pc.toNat = true → s.sm.diagOk.getLsbD pc.toNat = true →
        exec (.unknell pc) s = .next (settle s ({ (s.granted 0x30050).putLow 0x30050 0x1F (pc.setWidth 32) with
          sm := { s.sm with unknell := if pc.toNat ∈ s.sm.unknell then s.sm.unknell else s.sm.unknell ++ [pc.toNat] } }.respond .ok)))
      ∧ (s.fenced pc.toNat = false ∨ s.sm.diagOk.getLsbD pc.toNat = false →
        ∃ t, exec (.unknell pc) s = .next t ∧ t.sm = s.sm ∧ t.cores = s.cores ∧ t.lcs = s.lcs))

/-- RESTART acts only while STATE is FAILED or MINIMAL: a start of kind restart is then due; at any other time it is ignored (R367). -/
def Obligations.RestartActsOnlyWhenFailedOrMinimal : Prop :=
  ∀ s : State, s.serves 0x80008 = true →
    (s.boot.state = .failed ∨ s.boot.state = .minimal →
      ∃ t, exec .restart s = .next t ∧ t.boot.pend = some 3 ∧ t.boot.state = .check ∧ t.boot.ready = false ∧ t.tu.ltc = s.tu.ltc
        ∧ t.boot.fsc = s.boot.fsc ∧ t.cfg.active = s.cfg.active)
    ∧ (s.boot.state ≠ .failed → s.boot.state ≠ .minimal → exec .restart s = .next (settle s ((s.granted 0x80008).respond .ok)))

/-- The other commands of BOOT_CTRL and the monitor, served: FETCH sets ADDR_VALID, and starts the fetch of a start that waits for it
(R360); FSC_CLR clears the failed-start count only when READY is 1 or in MINIMAL (R366); in MINIMAL a BIST wipes what it tests, a
retention word is read (a free value where the block has saved data there, log entry 7), and a reserved command sets MON_ERR;
outside MINIMAL a reserved command changes nothing of the boot unit (R369). -/
def Obligations.BootUnitWrites : Prop :=
  ∀ s : State,
    (s.serves 0x80008 = true → let u := s.granted 0x80008
      (s.boot.state ≠ .waitFetch → exec .fetch s = .next (settle s ({ u with boot := { s.boot with addrValid := true } }.respond .ok)))
      ∧ (s.boot.state = .waitFetch → ∃ t, exec .fetch s = .next t ∧ t.boot.state = .verify ∧ t.boot.addrValid = true ∧ t.boot.fetchAt = s.tu.ltc)
      ∧ (s.boot.ready = true ∨ s.boot.state = .minimal →
          exec .fscClr s = .next (settle s ({ u with boot := { s.boot with fsc := 0, fscInv := 3 } }.respond .ok)))
      ∧ (s.boot.ready = false → s.boot.state ≠ .minimal → exec .fscClr s = .next (settle s (u.respond .ok))))
    ∧ (s.serves 0x80030 = true → s.boot.state = .minimal →
      (∀ (c : BitVec 18) (sp ct : Bool), ∃ t, exec (.monBist c sp ct) s = .next t ∧ t.routes.table = Memory.reset ∧ t.seqMem = [] ∧ t.so = []
          ∧ t.retain = s.retain ∧ t.boot = { s.boot with bist := s.bistWord c sp ct, monErr := false })
      ∧ (∀ a : Word, a.toNat % 4 = 0 → a.toNat < 262144 → s.tu.saved = none → s.tu.ledger = [] →
          ∃ t, exec (.monReadRetention a) s = .next t ∧ t.retain = s.retain
            ∧ t.boot = { s.boot with monErr := false, monData := BitVec.ofNat 32 (leNat (s.retain.read a.toNat 4)) })
      ∧ (∀ a : Word, ¬ (a.toNat % 4 = 0 ∧ a.toNat < 262144 ∧ s.tu.saved = none ∧ s.tu.ledger = []) →
          ∃ t, exec (.monReadRetention a) s = .next t ∧ t.boot.monErr = false ∧ t.freeCnt = s.freeCnt + 1)
      ∧ (∀ c : BitVec 8, 3 ≤ c.toNat → ∃ t, exec (.monReserved c) s = .next t ∧ t.boot = { s.boot with monErr := true }))
    ∧ (s.serves 0x80030 = true → s.boot.state ≠ .minimal → s.inReset = false → ∀ (c : BitVec 8), 3 ≤ c.toNat →
        ∃ t, exec (.monReserved c) s = .next t ∧ t.boot = s.boot)

/-! ### Control commands -/

/-- Advancing moves a context one record on and ends its wait (R95); holding keeps it at its record with the cause (R189).  Neither
touches the other context, another core, a sync object or a queue. -/
def Obligations.AdvanceMovesOneRecord : Prop :=
  ∀ (s : State) (pc : Nat) (c : Ctx),
    let t := s.advance pc c
    ((t.core pc).ctx c).index = ((s.core pc).ctx c).index + 1 ∧ ((t.core pc).ctx c).run = ((s.core pc).ctx c).run + 1
      ∧ ((t.core pc).ctx c).wait = none ∧ ((t.core pc).ctx c).list = ((s.core pc).ctx c).list
      ∧ ((t.core pc).ctx c).hregs = ((s.core pc).ctx c).hregs ∧ (∀ n, n ≠ pc → t.core n = s.core n)
      ∧ (t.core pc).flight = (s.core pc).flight ∧ (t.core pc).tiles = (s.core pc).tiles ∧ t.so = s.so ∧ t.st.queues = s.st.queues
      ∧ t.gong = s.gong ∧ t.lcs = s.lcs ∧ t.routes = s.routes ∧ t.cfg = s.cfg
      ∧ ∀ w o : Nat, let h := s.hold pc c w o
        ((h.core pc).ctx c).index = ((s.core pc).ctx c).index ∧ ((h.core pc).ctx c).wait = some w ∧ ((h.core pc).ctx c).waitObj = o
          ∧ (∀ n, n ≠ pc → h.core n = s.core n) ∧ (h.core pc).flight = (s.core pc).flight ∧ h.so = s.so ∧ h.st.queues = s.st.queues
          ∧ h.gong = s.gong ∧ h.lcs = s.lcs

/-- HOLD, WAIT and SIG at the issue point (R126, R127): a WAIT or a conditional HOLD whose condition on the sync object's count
holds moves on, one whose condition does not hold is held; a SIG issues only once every earlier command of its context has
completed, and then sets or adds to the count (R133, R134). -/
def Obligations.SyncCommandsWaitAndSignal : Prop :=
  ∀ (s : State) (pc : Nat) (c : Ctx) (l : ListRef) (r : List Word),
    (s.atIssue pc c 0x30 l r → ctCond r < 2 →
      (ctBit15 r = false ∨ condHolds (ctCond r) (s.sync (ctSo r)).count (ctValue r) = true →
        exec (.hold pc c) s = .next (settle s (s.advance pc c).prefetch))
      ∧ (ctBit15 r = true → condHolds (ctCond r) (s.sync (ctSo r)).count (ctValue r) = false →
        exec (.hold pc c) s = .next (settle s (s.hold pc c 11 (ctSo r)).prefetch)))
    ∧ (s.atIssue pc c 0x31 l r → ctCond r < 2 →
      (condHolds (ctCond r) (s.sync (ctSo r)).count (ctValue r) = true →
        exec (.wait pc c) s = .next (settle s (s.advance pc c).prefetch))
      ∧ (condHolds (ctCond r) (s.sync (ctSo r)).count (ctValue r) = false →
        exec (.wait pc c) s = .next (settle s (s.hold pc c 4 (ctSo r)).prefetch)))
    ∧ (s.atIssue pc c 0x32 l r →
      (s.ctxDone pc c = true → exec (.sig pc c) s
        = .next (settle s ((s.signal pc (ctSo r) (ctBit15 r) (ctValue r)).advance pc c).prefetch))
      ∧ (s.ctxDone pc c = false → exec (.sig pc c) s = .next (settle s (s.hold pc c 15 0).prefetch)))

/-- A signal from a core that is not stale sets the count to the value, or adds the value modulo 2^32, and names the core and its
incarnation as the last updater (R134, R135); no other object changes. -/
def Obligations.SignalSetsOrAddsTheCount : Prop :=
  ∀ (s : State) (pc n : Nat) (v : Word), s.stale pc = false →
    (s.signal pc n true v).sync n = { s.sync n with count := v, lastPc := pc, lastInc := (s.core pc).inc }
      ∧ (s.signal pc n false v).sync n = { s.sync n with count := (s.sync n).count + v, lastPc := pc, lastInc := (s.core pc).inc }
      ∧ (∀ b m, m ≠ n → (s.signal pc n b v).sync m = s.sync m)
      ∧ ∀ b, (s.signal pc n b v).cores = s.cores ∧ (s.signal pc n b v).st = s.st ∧ (s.signal pc n b v).gong = s.gong

/-- HPOP and HPUSH at the issue point (R126 to R128): HPOP of an occupied register and HPUSH of an empty one are command error 5; an
HPOP takes the oldest handle of the queue into the register, with its SIDE word, and is held where the queue gives none; once
no earlier command of its context moves data through the register, an HPUSH with RELEASE gives the handle back, and one
without pushes it where the queue takes it. -/
def Obligations.HandleCommandsMoveHandles : Prop :=
  ∀ (s : State) (pc : Nat) (c : Ctx) (l : ListRef) (r : List Word),
    (s.atIssue pc c 0x33 l r →
      (((s.core pc).ctx c).hreg (ctH r) = none → s.consumer (ctHq r) l.lc c = true →
        (∀ u h side, s.pop (ctHq r) true = (u, .handle h side) → exec (.hpop pc c) s = .next (settle s
          (((u.onCtx pc c (fun x => x.setHreg (ctH r) (some { handle := h, side := side, input := true, bound := none, reserved := [] }))).complete
            pc c r)).prefetch))
        ∧ (∀ u w, s.pop (ctHq r) true = (u, .wait w) → exec (.hpop pc c) s = .next (settle s (u.hold pc c w (ctHq r)).prefetch)))
      ∧ ((((s.core pc).ctx c).hreg (ctH r)).isSome = true →
        exec (.hpop pc c) s = .next (settle s (s.cmdError pc c r 5).prefetch)))
    ∧ (s.atIssue pc c 0x34 l r →
      (∀ y, ((s.core pc).ctx c).hreg (ctH r) = some y → ctRelease r = true →
        ((s.core pc).inFlight c).any (movesThrough (s.core pc).part (ctH r)) = false →
        exec (.hpush pc c) s = .next (settle s (((s.giveBack pc c l.lc (ctH r) y).complete pc c r)).prefetch))
      ∧ (∀ y, ((s.core pc).ctx c).hreg (ctH r) = some y → ctRelease r = false → s.producer (ctHq r) l.lc c = true →
        ((s.core pc).inFlight c).any (movesThrough (s.core pc).part (ctH r)) = false →
        (s.staleCode y.handle).isSome = true ∨ s.pushWait (ctHq r) (y.heldFor (ctHq r)) = none →
        exec (.hpush pc c) s = .next (settle s (((s.pushFrom pc c l.lc (ctHq r) (ctH r) y).complete pc c r)).prefetch))
      ∧ (((s.core pc).ctx c).hreg (ctH r) = none → exec (.hpush pc c) s = .next (settle s (s.cmdError pc c r 5).prefetch)))

/-- PDL at the issue point (R129): without ATGONG it inverts the role of its pair at once, with ATGONG the swap waits for the gong;
a pair that the image does not define is command error 6. -/
def Obligations.PairSwapCommand : Prop :=
  ∀ (s : State) (pc : Nat) (c : Ctx) (l : ListRef) (r : List Word), s.atIssue pc c 0x35 l r →
    (prValid (s.pairRec l.lc (ctPair r)) = false → exec (.pdl pc c) s = .next (settle s (s.cmdError pc c r 6).prefetch))
    ∧ (prValid (s.pairRec l.lc (ctPair r)) = true → ((s.core pc).inFlight c) = [] → s.fetchingInto (s.pairRec l.lc (ctPair r)) = false →
      (ctAtgong r = false → exec (.pdl pc c) s = .next (settle s ((s.invertRole l.lc (ctPair r)).complete pc c r).prefetch))
      ∧ (ctAtgong r = true → exec (.pdl pc c) s = .next (settle s
          (((s.onLc l.lc (fun n => { n with swaps := n.swaps ++ [ctPair r] })).complete pc c r)).prefetch)))

/-- ADMIT, STAMP and FENCE at the issue point (R25, R126, R127, R130): ADMIT gives its held mallet back and takes the granted one,
or waits for one, under the curfew with its own cause; STAMP makes one event record; FENCE waits for the commands before it. -/
def Obligations.AdmitStampAndFence : Prop :=
  ∀ (s : State) (pc : Nat) (c : Ctx) (l : ListRef) (r : List Word),
    (s.atIssue pc c 0x36 l r →
      let u := (s.releaseMallet ((s.core pc).ctx c).held).onCtx pc c (fun x => { x with held := none })
      (ctRel r = true → exec (.admission pc c) s = .next (settle s (u.complete pc c r).prefetch))
      ∧ (∀ m, ctRel r = false → ((s.core pc).ctx c).granted = some m → exec (.admission pc c) s = .next (settle s
          (((u.onCtx pc c (fun x => { x with held := some m, granted := none, requested := false })).complete pc c r)).prefetch))
      ∧ (ctRel r = false → ((s.core pc).ctx c).granted = none → u.curfewHolds l = true →
          exec (.admission pc c) s = .next (settle s (u.hold pc c 10 0).prefetch))
      ∧ (ctRel r = false → ((s.core pc).ctx c).granted = none → u.curfewHolds l = false → ((s.core pc).ctx c).requested = false →
          exec (.admission pc c) s = .next (settle s ((u.askMallet pc c (wclass r) true).hold pc c 3 0).prefetch))
      ∧ (ctRel r = false → ((s.core pc).ctx c).granted = none → u.curfewHolds l = false → ((s.core pc).ctx c).requested = true →
          exec (.admission pc c) s = .next (settle s (u.hold pc c 3 0).prefetch)))
    ∧ (s.atIssue pc c 0x37 l r → exec (.stamp pc c) s = .next (settle s ((s.evt 0x0053 pc [(0, 5, pc), (5, 4, l.lc),
        (9, 1, b2n (decide (c = .bg))), (10, 14, ((s.core pc).ctx c).index), (24, 32, (rw r 3).toNat)]).complete pc c r).prefetch))
    ∧ (s.atIssue pc c 0x38 l r → ((s.core pc).ctx c).fence = none →
      let u := s.onCtx pc c (fun x => { x with fence := some (s.core pc).nextId })
      (u.ctxDone pc c = false → exec (.fence pc c) s = .next (settle s (u.hold pc c 15 0).prefetch))
      ∧ (u.ctxDone pc c = true → ctXctx r = false ∨ u.olderThan pc (otherCtx c) (s.core pc).nextId = false →
          exec (.fence pc c) s = .next (settle s (u.complete pc c r).prefetch)))

/-- END at the issue point (R96, R126, R127): held up until every earlier command of its context has completed; then the list ends,
and, where no handle is held, the context goes over to its next list and no other core changes. -/
def Obligations.EndOfAList : Prop :=
  ∀ (s : State) (pc : Nat) (c : Ctx) (l : ListRef) (r : List Word), s.atIssue pc c 0x3F l r →
    (s.ctxDone pc c = false → exec (.endList pc c) s = .next (settle s (s.hold pc c 15 0).prefetch))
    ∧ (s.ctxDone pc c = true →
      exec (.endList pc c) s = .next (settle s (bodyEnd pc c l r s).prefetch)
        ∧ (((s.core pc).ctx c).hregs = [] → ((bodyEnd pc c l r s).core pc).ctx c = (((s.core pc).ctx c).next)
          ∧ (∀ n, n ≠ pc → (bodyEnd pc c l r s).core n = s.core n)))

/-- The checks of a record at the issue point, for the row of HOLD (R94, R98, R100, R105): a record that cannot be read and an opcode
that the table does not have are command error 1, a shape code that the opcode does not allow 2, a flag that it does not allow 3, a
record 16383 that is not END 4; a reserved field that is set stops, since the spec does not define it (R6); a core with no
record at its issue point does nothing, and a background context waits while the foreground has a command ready (R23). -/
def Obligations.BadRecordsAreCommandErrors : Prop :=
  ∀ (s : State) (pc : Nat) (c : Ctx) (l : ListRef) (r : List Word),
    (c = .bg → s.fgReady pc = true → exec (.hold pc c) s = .next s)
    ∧ ((c = .bg → s.fgReady pc = false) →
    (s.issuePoint pc c = some (l, r, true) → exec (.hold pc c) s = .next (settle s (s.cmdError pc c r 1)))
    ∧ (s.issuePoint pc c = some (l, r, false) → recOpc r = 0x30 → reservedSet r = true → exec (.hold pc c) s = .refused .reservedRecord)
    ∧ (s.issuePoint pc c = some (l, r, false) → recOpc r = 0x30 → reservedSet r = false → recBarrier r = false →
      (shpOk r = false → exec (.hold pc c) s = .next (settle s (s.cmdError pc c r 2)))
      ∧ (shpOk r = true → flagsOk r = false → exec (.hold pc c) s = .next (settle s (s.cmdError pc c r 3)))
      ∧ (shpOk r = true → flagsOk r = true → 16383 ≤ ((s.core pc).ctx c).index →
          exec (.hold pc c) s = .next (settle s (s.cmdError pc c r 4))))
    ∧ (s.issuePoint pc c = some (l, r, false) → opcodes.contains (recOpc r) = false →
        exec (.hold pc c) s = .next (settle s (s.cmdError pc c r 1)))
    ∧ (s.issuePoint pc c = none → exec (.hold pc c) s = .next s))

/-! ### Tile commands -/

/-- Launching puts exactly one instruction in flight (R50, R95): the record's words, its destination with the first free commit slot,
the registers it reads; the context moves one record on, a mallet it goes with leaves the grant, and no tile register, other core,
sync object, route or queue changes. -/
def Obligations.LaunchPutsOneInstructionInFlight : Prop :=
  ∀ (s : State) (pc : Nat) (c : Ctx) (l : ListRef) (r : List Word) (dest : Option Nat) (srcs : List Nat) (rd wr : Regions)
    (m : Option Mallet) (x : Tile) (n : CvtStats) (ph : Phase) (kept : List Tile),
    let t := s.launch pc c l r dest srcs rd wr m x n ph kept
    (∃ f : InFlight, (t.core pc).flight = (s.core pc).flight ++ [f] ∧ f.words = r ∧ f.list = l ∧ f.ctx = c ∧ f.dest = dest
        ∧ f.slot = (dest.bind fun _ => (s.core pc).freeSlots.head?) ∧ f.id = (s.core pc).nextId ∧ f.index = ((s.core pc).ctx c).index
        ∧ f.result = x ∧ f.phase = ph ∧ f.mallet = m ∧ f.stats = n ∧ f.late = false)
      ∧ ((t.core pc).ctx c).index = ((s.core pc).ctx c).index + 1 ∧ ((t.core pc).ctx c).wait = none
      ∧ (m.isSome = true → ((t.core pc).ctx c).granted = none) ∧ (m = none → ((t.core pc).ctx c).granted = ((s.core pc).ctx c).granted)
      ∧ (t.core pc).nextId = (s.core pc).nextId + 1 ∧ (t.core pc).tiles = (s.core pc).tiles
      ∧ (∀ k, k ≠ pc → t.core k = s.core k) ∧ t.so = s.so ∧ t.routes = s.routes ∧ t.lcs = s.lcs ∧ t.gong = s.gong
      ∧ t.st.queues = s.st.queues ∧ t.st.pool = s.st.pool

/-- CVT, SCALE, QNT and DQN at the issue point (R104, R122 to R125, R150 to R153): where no wait, command error or shape error stops
the record, and the mallet a heavy one needs is there, it is launched with what its conversion makes. -/
def Obligations.NumberCommandsLaunch : Prop :=
  ∀ (s : State) (pc : Nat) (c : Ctx) (l : ListRef) (r : List Word) (m : Option Mallet),
    let p := (s.core pc).part
    let sop := descS p r
    let dop := descD p r
    let a := (s.core pc).tile (recSa r)
    let b := (s.core pc).tile (recSb r)
    (s.atIssue pc c 0x20 l r → s.tileClean pc c (some (recD r)) [recSa r] [rndErr r]
        (operandShapes p r ++ convShapes p sop dop ++ [(decide (elems sop ≠ elems dop), 0, dop.ty)]) →
      s.malletFor pc c l r (coversAll p sop) m →
      exec (.cvt pc c) s = .next (settle s (s.launchMade pc c l r [recSa r] m (s.makeCvt pc l.lc r a) [a]).prefetch))
    ∧ (s.atIssue pc c 0x21 l r → (∃ sg z e, fp32Val (rw r 3).toNat = .num sg z e) →
      s.tileClean pc c (some (recD r)) [recSa r] [rndErr r]
        (operandShapes p r ++ [(decide (tyGroup dop.ty = 2), 0, dop.ty), (decide (tyGroup sop.ty = 2), 1, sop.ty)]
          ++ convShapes p sop dop ++ [(decide (elems sop ≠ elems dop), 0, dop.ty)]) →
      exec (.scale pc c) s = .next (settle s (s.launchMade pc c l r [recSa r] none (s.makeScale pc l.lc r a) []).prefetch))
    ∧ (s.atIssue pc c 0x22 l r → s.tileClean pc c (some (recD r)) [recSa r, recSb r] [rndErr r, row0Err dop.ty r]
        (operandShapes p r ++
          [ (decide (tyGroup dop.ty ≠ 2), 0, dop.ty), (decide (sop.ty ≠ tyFP16 ∧ sop.ty ≠ tyFP32), 1, sop.ty),
            (decide (elems sop % 1024 ≠ 0), 1, sop.ty), (decide (dop.rows < recRow0 r + elems sop / dop.cols), 0, dop.ty),
            (decide (regCount p ≤ recSb r), 2, dop.ty) ]) →
      s.malletFor pc c l r (coversAll p sop) m →
      exec (.qnt pc c) s = .next (settle s (s.launchMade pc c l r [recSa r, recSb r] m (s.makeQnt pc l.lc r a b) [a, b]).prefetch))
    ∧ (s.atIssue pc c 0x23 l r → s.tileClean pc c (some (recD r)) [recSa r] [rndErr r, row0Err sop.ty r]
        (operandShapes p r ++
          [ (decide (dop.ty ≠ tyFP16 ∧ dop.ty ≠ tyFP32), 0, dop.ty), (decide (tyGroup sop.ty ≠ 2), 1, sop.ty),
            (decide (elems dop % 1024 ≠ 0), 0, dop.ty), (decide (sop.rows < recRow0 r + elems dop / sop.cols), 1, sop.ty) ]) →
      exec (.dqn pc c) s = .next (settle s (s.launchMade pc c l r [recSa r] none (s.makeDqn pc l.lc r a) []).prefetch))

/-- TMOV, TLD and TST at the issue point (R109 to R111): where no wait, error or busy region stops the record (and, for a TST that
takes slots, its partition has them and its queue room), the move begins. -/
def Obligations.MoveCommandsLaunch : Prop :=
  ∀ (s : State) (pc : Nat) (c : Ctx) (l : ListRef) (r : List Word),
    let p := (s.core pc).part
    let d := descD p r
    let ds := descS p r
    let srcs := if recCmod0 r then [recSa r, recSb r] else [recSa r]
    (s.atIssue pc c 0x01 l r → s.tileClean pc c (some (recD r)) [] (s.accessErrs pc c l.lc r (movedRows p d) false)
        [(badOperand p (recD r) d, 0, d.ty)] → shapeOk p d = true →
      (s.core pc).regionBusy c (s.regionsOf pc c l.lc r (movedRows p d)) [] = false →
      exec (.tld pc c) s = .next (settle s (startTld pc c l r d s).prefetch))
    ∧ (s.atIssue pc c 0x02 l r → shapeOk p ds = true → badOperand p (recSa r) ds = false → s.tileWait pc c none [recSa r] = none →
      lowestErr (s.accessErrs pc c l.lc r (movedRows p ds) true) = none →
      (mvAlloc r = true → (∀ i, i < allocCount r (movedRows p ds) → ((s.core pc).ctx c).hreg (mvH r + i) = none)
        ∧ (s.part (mvPart r)).size ≠ 0 ∧ (s.part (mvPart r)).reserved = false ∧ (s.queue (recChq r)).valid = true
        ∧ allocCount r (movedRows p ds) ≤ (s.part (mvPart r)).free.length
        ∧ s.canReserve (recChq r) (allocCount r (movedRows p ds)) = true) →
      (recCpush r = true → s.producer (recChq r) l.lc c = true ∧ ∀ i, i < recCn r → recCh r + i ≤ 15
        ∧ ((((s.core pc).ctx c).hreg (recCh r + i)).isSome = true
          ∨ mvAlloc r = true ∧ mvH r ≤ recCh r + i ∧ recCh r + i < mvH r + allocCount r (movedRows p ds))) →
      (s.core pc).regionBusy c [] (s.regionsOf pc c l.lc r (movedRows p ds)) = false →
      exec (.tst pc c) s = .next (settle s (startTst pc c l r ds s).prefetch))
    ∧ (s.atIssue pc c 0x03 l r → s.tileClean pc c (some (recD r)) srcs
        [ (decide (tmRs r % 4 ≠ 0 ∨ tmRd r % 4 ≠ 0 ∨ tmNr r % 4 ≠ 0), 8),
          (decide (rmax p < tmRs r + tmNr r ∨ rmax p < tmRd r + tmNr r), 8) ]
        [ (decide (regCount p ≤ recD r), 0, 0), (decide (regCount p ≤ recSa r), 1, 0),
          (recCmod0 r && decide (regCount p ≤ recSb r), 2, 0) ] →
      ∃ u : State, exec (.tmov pc c) s = .next (settle s (u.launch pc c l r (some (recD r)) srcs [] [] none
          (tmovTile p r ((s.core pc).tile (recSa r)) ((s.core pc).tile (recSb r)) (s.core pc).injLane).1 CvtStats.zero .done).prefetch)
        ∧ (u.core pc).flight = (s.core pc).flight ∧ (u.core pc).tiles = (s.core pc).tiles ∧ (∀ n, n ≠ pc → u.core n = s.core n)
        ∧ u.so = s.so ∧ u.routes = s.routes ∧ u.st = s.st)

/-- PERM, GTH and SCT at the issue point (R79, R80, R112 to R115): with the route they name, or, where SOLVE is set, with the routes
their slots' solutions make (each used now, R69), they are launched with the move those routes spell. -/
def Obligations.RoutedCommandsLaunch : Prop :=
  ∀ (s : State) (pc : Nat) (c : Ctx) (l : ListRef) (r : List Word) (m : Option Mallet) (got : List (Route × Kinds)) (u : State),
    let p := (s.core pc).part
    let sop := descS p r
    let dop := descD p r
    let n := sliceCount p r
    let ref := ref3lo r
    let want : Want := { ref := ref, kinds := moveKinds sop.ty, width := some (widthOf sop.ty) }
    let ks := s.wantKeeps pc want
    let srcs := if ks then [recSa r, recSb r] else [recSa r]
    let isrc := solIsrc r
    let per := decide (recOpc r = 0x14) && recCmod0 r && isrc
    let slots := if per then (List.range n).map (fun i => ref.slot ^^^ (i % 2)) else [ref.slot]
    let wants : List Want := if isrc then [] else [{ ref := { id := solId r, bySlot := false, slot := 0 }, kinds := [4], width := none }]
    let scat := decide (recOpc r = 0x15)
    let pl : SolvePlan := { slots := slots, scatter := scat, reg := if isrc then some (solReg r, solSlice r) else none }
    let ssrcs := [recSa r] ++ (if scat then [recSb r] else []) ++ (if isrc then [solReg r] else [])
    let q := u.queueSolves pc c slots scat (u.planVectors pc pl got)
    let v := q.onCore pc (fun k => slots.foldl (fun k n => k.touch n) k)
    let ready := recSolve r = false ∧ recRnd r < 2 ∧ s.tileClean pc c (some (recD r)) srcs []
        (operandShapes p r ++ convShapes p sop dop ++ [(ks && decide (regCount p ≤ recSb r), 2, dop.ty)])
      ∧ s.routesReady pc [want] got u
    let solved := recSolve r = true ∧ recRnd r < 2 ∧ s.tileClean pc c (some (recD r)) ssrcs
        [(!ref.bySlot, 8), (isrc && decide (rmax p / 4 < solSlice r + slots.length), 8)]
        (operandShapes p r ++ convShapes p sop dop
          ++ [(scat && decide (regCount p ≤ recSb r), 2, dop.ty), (isrc && decide (regCount p ≤ solReg r), 5, 0)])
      ∧ s.routesReady pc wants got u ∧ slots.length ≤ ((q.core pc).ctx c).solves.length
      ∧ slots.any (fun k => (q.core pc).solving k) = false
    let rts := ((q.core pc).ctx c).solves.map (fun x => ((solveResult scat x).1, (solveResult scat x).2 ||| x.2))
    let heavy := decide (n = rmax p / 4)
    (s.atIssue pc c 0x10 l r →
      (ready → u.malletFor pc c l r heavy m →
        exec (.perm pc c) s = .next (settle s (actRouted pc c l r srcs ks m got u).prefetch))
      ∧ (solved → v.malletFor pc c l r heavy m →
        exec (.perm pc c) s = .next (settle s (actRouted pc c l r ssrcs false m rts v).prefetch)))
    ∧ (s.atIssue pc c 0x14 l r →
      (ready → exec (.gth pc c) s = .next (settle s (actRouted pc c l r srcs ks none got u).prefetch))
      ∧ (solved → exec (.gth pc c) s = .next (settle s (actRouted pc c l r ssrcs false none rts v).prefetch)))
    ∧ (s.atIssue pc c 0x15 l r →
      (ready → exec (.sct pc c) s = .next (settle s (actRouted pc c l r srcs ks none got u).prefetch))
      ∧ (solved → exec (.sct pc c) s = .next (settle s (actRouted pc c l r ssrcs true none rts v).prefetch)))

/-- SHUF, AXP, TRN and BREV at the issue point (R116, R117): they need no stored route and, unless a wait or an error stops the record,
are launched with the move their parameters spell. -/
def Obligations.ComputedMovesLaunch : Prop :=
  ∀ (s : State) (pc : Nat) (c : Ctx) (l : ListRef) (r : List Word),
    let p := (s.core pc).part
    let sop := descS p r
    let dop := descD p r
    let n := sliceCount p r
    let mode := fld (rw r 3) 0 3
    let g := fld (rw r 3) 3 4
    let clean := s.tileClean pc c (some (recD r)) [recSa r] (rndErr r :: linearErrs r)
      (operandShapes p r ++
        [ (decide (dop.ty = tyPW4), 0, tyPW4), (decide (sop.ty = tyPW4), 1, tyPW4), (dop.split, 0, dop.ty), (sop.split, 1, sop.ty),
          (decide (elems sop ≠ linearCount r sop), 1, sop.ty), (decide (elems sop ≠ elems dop), 0, dop.ty) ]
        ++ convShapes p sop dop)
    let moved := Host.Outcome.next (settle s (s.launchFab pc c l r [recSa r] none
      (n * (linearPasses (4 / tySize sop.ty) (linearMap r sop) + b2n (hasCodes sop.ty))) (sliceReads [recSa r] n)
      (s.makeLinear pc l.lc r)).prefetch)
    (s.atIssue pc c 0x12 l r → clean → exec (.axp pc c) s = moved) ∧ (s.atIssue pc c 0x13 l r → clean → exec (.trn pc c) s = moved)
    ∧ (s.atIssue pc c 0x17 l r → clean → exec (.brev pc c) s = moved)
    ∧ (s.atIssue pc c 0x16 l r → s.tileClean pc c (some (recD r)) [recSa r] [rndErr r] (operandShapes p r ++ convShapes p sop dop) →
      mode < 4 → 1 ≤ g → g ≤ 8 →
      exec (.shuf pc c) s
        = .next (settle s (actRouted pc c l r [recSa r] false none [(shufRoute mode g (fld (rw r 3) 7 8), 0)] s).prefetch))

/-- REDP, SORT and PERMX at the issue point (R118 to R120): REDP adds the routed lanes of up to three sources, SORT orders the lanes of
its source by a sort descriptor, PERMX sends its first pass and joins or opens its collective. -/
def Obligations.ReduceSortAndBetweenGroups : Prop :=
  ∀ (s : State) (pc : Nat) (c : Ctx) (l : ListRef) (r : List Word) (m : Option Mallet) (got : List (Route × Kinds)) (u : State),
    let p := (s.core pc).part
    let sop := descS p r
    let dop := descD p r
    let n := sliceCount p r
    let heavy := decide (n = rmax p / 4)
    let src := redpSources r
    let wants : List Want := src.map (fun x => { ref := x.2, kinds := [0], width := some (widthOf sop.ty) })
    let keep := wants.any (fun w => s.wantKeeps pc w)
    let srcs := src.map (fun x => x.1) ++ (if keep then [recSb r] else [])
    let sw : Want := { ref := ref3lo r, kinds := [5], width := none }
    (s.atIssue pc c 0x1C l r → s.tileClean pc c (some (recD r)) srcs []
        (operandShapes p r ++ [(decide (sop.ty ≠ tyI16 ∧ sop.ty ≠ tyC16), 1, sop.ty), (decide (dop.ty ≠ sop.ty), 0, dop.ty)]
          ++ (indexed 1 src).map (fun e => (decide (regCount p ≤ e.2.1), e.1, sop.ty))
          ++ [(keep && decide (regCount p ≤ recSb r), 2, sop.ty)]) →
      s.routesReady pc wants got u → u.malletFor pc c l r heavy m →
      let o := redpLanes p r sop n ((src.zip got).map (fun y => ((u.core pc).tile y.1.1, y.2.1)))
        (((u.core pc).tile (recSb r)).lanes p) (u.core pc).injLane
      ∃ (w : State) (x : Tile), exec (.redp pc c) s = .next (settle s (State.launchFab w pc c l r srcs m (src.length * n)
          (sliceReads srcs n) { tile := x, stats := CvtStats.zero, lfsr := (u.core pc).lfsr, fails := o.1.2 }).prefetch)
        ∧ (∃ k t, x = tileOfLanes p dop o.1.1 k t)
        ∧ (w.core pc).flight = (u.core pc).flight ∧ (w.core pc).tiles = (u.core pc).tiles ∧ (∀ k, k ≠ pc → w.core k = u.core k))
    ∧ (∀ e k gs, s.atIssue pc c 0x1D l r →
      s.tileClean pc c (some (recD r)) [recSa r] [((s.wantErr pc sw).isNone
        && (match s.sortDesc pc sw with | some d => !sortOk d | none => false), 8)] (operandShapes p r) →
      s.routesReady pc [sw] got u → u.malletFor pc c l r heavy m → got = (.entries e, k) :: gs →
      exec (.sort pc c) s = .next (settle s (u.launchFab pc c l r [recSa r] m (sortPasses (ent e 1) * n) (sliceReads [recSa r] n)
        { tile := (sortTile p sop dop n (ent e 1) ((u.core pc).tile (recSa r)) (u.core pc).injLane).1, stats := CvtStats.zero,
          lfsr := (u.core pc).lfsr,
          fails := (sortTile p sop dop n (ent e 1) ((u.core pc).tile (recSa r)) (u.core pc).injLane).2 }).prefetch))
    ∧ (let ref := ref3lo r
      let stored (k : Nat) : RouteRef := { id := k, bySlot := false, slot := 0 }
      let g := s.tableRoute ref.id
      let glob : Want := { ref := stored ref.id, kinds := [7], width := none }
      let xw : Want := { ref := stored (glXmap g), kinds := [6], width := none }
      let w1 : Want := { ref := stored (glPass1 g l.lc), kinds := moveKinds sop.ty, width := some (widthOf sop.ty) }
      let w3 : Want := { ref := stored (glPass3 g l.lc), kinds := moveKinds sop.ty, width := some (widthOf sop.ty) }
      let full (d : Desc) : Bool := decide (d.rows = (fullDesc false d).rows) && decide (d.cols = (fullDesc false d).cols)
      let kp := s.wantKeeps pc w1 || s.wantKeeps pc w3
      s.atIssue pc c 0x11 l r → s.wantErr pc glob = none → (glMask g).getLsbD l.lc = true → ref.bySlot = false →
      s.tileClean pc c (some (recD r)) (if kp then [recSa r, recSb r] else [recSa r]) []
        (operandShapes p r ++ [(p || !full dop, 0, dop.ty), (p || !full sop, 1, sop.ty), (kp && decide (regCount p ≤ recSb r), 2, dop.ty)]) →
      s.firstRouteErr pc [xw] = none →
      ((s.joins ref.id l.lc).isSome = true ∨ (s.routes.colls.filter (fun e => !e.2.closed)).length < 4) →
      s.routesReady pc [glob, w1, w3] got u → u.malletFor pc c l r true m →
      exec (.permx pc c) s = .next (settle s (actPermx pc c l r (if kp then [recSa r, recSb r] else [recSa r]) g (s.tableRoute (glXmap g)) m (got.getD 1 (.bad, 0)).1
        (got.getD 2 (.bad, 0)).1 ((got.getD 1 (.bad, 0)).2 ||| (got.getD 2 (.bad, 0)).2) u).prefetch))

/-- ILV, DIL, REMAP and WIN at the issue point (R121): an element of D that comes from outside staging is command error 7; else D takes
the elements of staging that the command's sequence names, its fill value and its zeros, and the extra staging cycles count as
STAGING_BANK (log entry 88). -/
def Obligations.StagingSourcedCommandsLaunch : Prop :=
  ∀ (s : State) (pc : Nat) (c : Ctx) (l : ListRef) (r : List Word) (got : List (Route × Kinds)) (u : State),
    let p := (s.core pc).part
    let d := descD p r
    let il (s : State) : List Src := (List.range (elems d)).map (fun k => ilvSource (s.ilSeq r).toArray (stOfs r + k))
    let dl (s : State) : List Src := (List.range (elems d)).map (fun k => dilSource (s.ilSeq r) (ilF0 r) (ilNf r) (stOfs r + k))
    let rm (s : State) : List Src :=
      let x := ((s.core pc).tile (recSbRemap r)).lanes p
      let rows := ((List.range (fld (rw r 2) 16 4 + 1)).map (fun t => patternRow x t)).toArray
      let q := (remapSequence (fld (rw r 2) 16 4 + 1) (fld (rw r 4) 0 16 + 1) (fld (rw r 2) 0 8 + 1) (fld (rw r 2) 8 8)
        (fld (rw r 4) 16 16) (fun t => rows.getD t 0) (bit (rw r 5) 20) (bit (rw r 5) 21)).toArray
      (List.range (elems d)).map (fun k => ilvSource q (stOfs r + k))
    let h := fld (rw r 2) 0 12 + 1
    let w := fld (rw r 2) 12 12 + 1
    let kh := fld (rw r 3) 20 4 + 1
    let kw := fld (rw r 3) 24 4 + 1
    let sy := fld (rw r 4) 0 3 + 1
    let sx := fld (rw r 4) 3 3 + 1
    let py := fld (rw r 4) 6 4
    let px := fld (rw r 4) 10 4
    let wn : List Src := (List.range (elems d)).map (fun k => winSource (stOfs r + k) h w (fld (rw r 2) 24 8 + 1) kh kw sy sx py px
      (fld (rw r 4) 14 18) ((h + 2 * py - kh) / sy + 1) ((w + 2 * px - kw) / sx + 1))
    let clean (opc : Nat) (errs : List (Bool × Nat)) (shapes : List (Bool × Nat × Nat)) (srcs : List Nat) (wants : List Want)
        (gen : State → List Src) : Prop :=
      s.atIssue pc c opc l r ∧ shapeOk p d = true
        ∧ s.tileClean pc c (some (recD r)) srcs ((decide (d.ty ≠ tyPW4 ∧ stSrc r % tySize d.ty ≠ 0), 8) :: errs)
          ((badOperand p (recD r) d, 0, d.ty) :: shapes)
        ∧ (s.core pc).regionBusy c (stRegions d.ty (stSrc r) (gen s)) [] = false ∧ s.routesReady pc wants got u
    let outcome (srcs : List Nat) (fill : Nat) (gen : State → List Src) (o : Host.Outcome State Fault Refusal) : Prop :=
      let outside := (gen u).any (fun x => match x with | .elem i => stOut d.ty (stSrc r) i | _ => false)
      let es := (gen u).map (fun x => stElem (u.core pc).staging d.ty (stSrc r) fill x)
      let ks := (srcs.map (fun g => ((u.core pc).tile g).kinds)).foldl (· ||| ·) (if es.any (fun e => e.2) then kEcc else 0)
      let x := (buildTile p d (es.map (fun e => e.1)) [] (es.map (fun e => e.2)) ks 0).checked p d (u.core pc).injLane
      let t := u.fabDone pc (slicesOf d) [] x.2
      (outside = true → o = .next (settle s (u.cmdError pc c r 7).prefetch))
      ∧ (outside = false → o = .next (settle s ((t.setCore pc ((t.core pc).addStall 14 (stExtra d (stSrc r) (gen u)))).launch pc c l r
          (some (recD r)) srcs (stRegions d.ty (stSrc r) (gen s)) [] none x.1 CvtStats.zero .done).prefetch))
    (clean 0x18 (s.ilErrs pc r) [] [] (ilWants r) il → outcome [] 0 il (exec (.ilv pc c) s))
    ∧ (clean 0x19 ((recCmod1 r && decide (d.ty = tyPB16), 8) :: s.ilErrs pc r) [] [] (ilWants r) dl →
      outcome [] (fillValue d.ty (recCmod1 r)) dl (exec (.dil pc c) s))
    ∧ (clean 0x1A [(decide (fld (rw r 2) 0 8 + 1 ≤ fld (rw r 2) 8 8), 8)] [(decide (regCount p ≤ recSbRemap r), 6, 0)] [recSbRemap r] [] rm →
      outcome [recSbRemap r] 0 rm (exec (.remap pc c) s))
    ∧ (clean 0x1B [(decide (w + 2 * px < kw ∨ h + 2 * py < kh), 8)] [] [] [] (fun _ => wn) →
      outcome [] 0 (fun _ => wn) (exec (.win pc c) s))

/-- Rounding (R141, R142, R162) and the narrow codes (R145, R146): half to even gives the nearest integer, and at a tie the even one;
into an integer type it saturates at the ends; a draw leaves a value that is representable as it is; and every code of a PW8 or
PW4 weight but MISSING rounds to itself without counting. -/
def Obligations.RoundingIsToNearestEven : Prop :=
  (∀ (neg : Bool) (n d : Nat), 0 < d →
      let x : Int := if neg then -(n : Int) else n
      let q := roundQ none neg n d
      2 * ((d : Int) * q - x).natAbs ≤ d ∧ (2 * ((d : Int) * q - x).natAbs = d → q % 2 = 0))
    ∧ (∀ (lo hi : Int) (neg : Bool) (n d : Nat), 0 < d → lo ≤ 0 → 0 ≤ hi →
        (toInt lo hi none (.num neg n d)).1 = max lo (min hi (roundQ none neg n d)))
    ∧ (∀ (k : Nat) (neg : Bool) (n d : Nat), 0 < d → n % d = 0 → roundQ (some k) neg n d = roundQ none neg n d)
    ∧ (∀ c, c < 256 → c ≠ 0x80 → toPw8 none (pw8Val c) = (c, false))
    ∧ (∀ c, c < 16 → c ≠ 8 → toPw4 none (pw4Val c) = (c, false))

/-! ### Gongs, strokes, pairs and mallets -/

/-- R17: a gong that is due completes: it runs the sequence of R27 at its own presented time and increments the GSN by exactly 1, whatever
the number of boundaries that time has passed; before its time nothing but the time changes; a stroke does not change the GSN, and every
record carries the low 32 bits of the GSN in force. -/
def Obligations.GsnCountsGongs : Prop :=
  ∀ (s : State) (at_ : Nat),
    let u := s.elapseTo at_
    (u.gongDue = true → ∃ t, exec (.gong at_) s = .next t ∧ t = settle u (u.gongSeq u.gongAt) ∧ t.gong.gsn = u.gong.gsn + 1)
    ∧ (u.gongDue = false → exec (.gong at_) s = .next (settle u u))
    ∧ (∃ t, exec (.stroke at_) s = .next t ∧ t.gong.gsn = u.gong.gsn)
    ∧ ∀ (v : State) (time : BitVec 56) (cap kind cls unit : Nat) (p : BitVec 112) (x : EvRec),
        x ∈ (v.emitAt time cap kind cls unit p).ev.buf → x ∈ v.ev.buf ∨ x.gsn = v.gong.gsn.truncate 32

/-- STROKE, CURFEW (R15, R16, R25) and AUDIT_COMPLETE (R194): the strokes whose time is reached fire in ascending order, none while EN
is 0; at the curfew the waiting mallet requests of the lists it holds are withdrawn; the end of an audit leaves its result. -/
def Obligations.StrokesCurfewAndAudit : Prop :=
  ∀ (s : State) (at_ : Nat),
    let u := s.elapseTo at_
    let due := (List.range u.gong.strokes).filter (fun k => decide (u.gong.stroke < k) &&
      decide ((u.gong.g : Int) + ((k * u.gong.period / (max 1 u.gong.strokes) : Nat) : Int) ≤ u.nowNs))
    (u.gong.en = true → u.gong.running = true → u.gongDue = false →
      ∃ t, exec (.stroke at_) s = .next t ∧ t.gong.stroke = due.getLast?.getD u.gong.stroke ∧ t.gong.g = u.gong.g
        ∧ t = settle u (due.foldl (fun v k => { v with gong := { v.gong with stroke := k } }.releaseAt k) u))
    ∧ (u.gong.en = false ∨ u.gongDue = true → exec (.stroke at_) s = .next (settle u u))
    ∧ (u.curfewDue = true → u.gong.inCurfew = false → ∃ t, exec (.curfew at_) s = .next t ∧ t.gong.inCurfew = true
        ∧ t.gong.gsn = u.gong.gsn ∧ t.tu = u.tu ∧ t.so = u.so
        ∧ (∀ x ∈ t.pwr.fgQ, x ∈ u.pwr.fgQ) ∧ (∀ x ∈ t.pwr.bgQ, x ∈ u.pwr.bgQ)
        ∧ ∀ pc c l, ((u.core pc).ctx c).list = some l → l.due (u.gong.gsn.toNat + 1) = true → ((u.core pc).ctx c).requested = true →
            ((u.core pc).ctx c).granted = none → ((t.core pc).ctx c).requested = false
              ∧ ((t.core pc).ctx c).wait = (if ((u.core pc).ctx c).wait = some 3 then some 10 else ((u.core pc).ctx c).wait)
              ∧ ∀ x ∈ t.pwr.fgQ ++ t.pwr.bgQ, ¬ (x.pc = pc ∧ x.ctx = c))
    ∧ (u.curfewDue = false ∨ u.gong.inCurfew = true → exec (.curfew at_) s = .next (settle u u))
    ∧ (u.st.snap = some { fail := none } → exec (.auditComplete at_) s
        = .next (settle u { u with st := { u.st with snap := none, auditOk := true, badRun := 0 } }))
    ∧ (∀ check n d, u.st.snap = some { fail := some (check, n, d) } → ∃ v, exec (.auditComplete at_) s = .next (settle u v)
        ∧ v.st.snap = none ∧ v.st.auditOk = false ∧ v.st.auditBad = true ∧ v.st.badRun = u.st.badRun + 1
        ∧ v.st.auditGsn = u.gong.gsn.truncate 32 ∧ v.cores = u.cores
        ∧ v.sm.reports = u.sm.reports ++ [mkReport 13 .smOrSpineTarget (unsigned d 32)])
    ∧ (u.st.snap = none → exec (.auditComplete at_) s = .next (settle u u))

/-- R60: when a new partition applies, in a region that runs and with every instruction in flight complete or abandoned (R59), every register of the core reads as 0 with no poison kinds, the commit slots are free, the reuse
latches are invalid, and the row cache is kept; the core emits TRF_PART. -/
def Obligations.PartitionApplies : Prop :=
  ∀ (s : State) (pc : Nat) (p : Bool), (s.core pc).drained = true → (s.core pc).partPend = some p →
    (s.region (regionOfCore pc)).state = .run →
    ∃ v, exec (.trfPartApply pc) s = .next (settle s v)
      ∧ (v.core pc).part = p ∧ (v.core pc).partPend = none
      ∧ (∀ r i, ((v.core pc).tile r).word i = 0 ∧ ((v.core pc).tile r).bad = [] ∧ ((v.core pc).tile r).kinds = 0
          ∧ ((v.core pc).tile r).t = 0)
      ∧ (∀ x, x < slotCount p → regCount p ≤ x → x ∈ (v.core pc).freeSlots)
      ∧ (v.core pc).latches = [] ∧ (v.core pc).cache = (s.core pc).cache ∧ (∀ n, n ≠ pc → v.core n = s.core n)
      ∧ (s.ev.buf.length < evCapacity → ∃ e : EvRec, v.ev.buf = s.ev.buf ++ [e] ∧ e.kind = 0x0032 ∧ e.cls = 1 ∧ e.unit = pc)

/-- Once the block is READY (R371), a COMPLETE agreement pair whose resource was idle (or is, with gongs off) applies outside a gong: it closes, and a pair that its check
lets through is taken (R15, R229); one that is not complete, or whose resource is busy, stays, and before READY
each waits for the commit. -/
def Obligations.PairsApply : Prop :=
  ∀ (s : State) (i : PairId),
    (s.boot.ready = true → (s.pair i).complete = true → (s.pair i).busy = false ∨ (s.gong.en = false ∧ s.pairIdle i = true) →
      ∃ a b, (s.pair i).a = some a ∧ (s.pair i).b = some b
        ∧ (s.pairOk i a b = true → exec (.pairApply i) s = .next (settle s ((s.setPair i .closed).pairTake i a b)))
        ∧ (s.pairOk i a b = false → ∃ v, exec (.pairApply i) s = .next (settle s v) ∧ v.pair i = .closed ∧ v.gong = s.gong
            ∧ v.cfg = (s.setPair i .closed).cfg ∧ v.cores = s.cores ∧ v.lcs = s.lcs))
    ∧ (s.boot.ready = false ∨ (s.pair i).complete = false ∨ (s.pair i).busy = true ∧ (s.gong.en = true ∨ s.pairIdle i = false) →
      exec (.pairApply i) s = .next (settle s s))

/-- MALLET_GRANT (R317 to R319): the head request is granted where the budget holds its charge and the bucket its tokens: it leaves its
queue, the charge is admitted and its tokens leave the bucket, and the grant counts; otherwise it waits. -/
def Obligations.MalletGrantsFollowBudgetAndTokens : Prop :=
  ∀ (s : State) (at_ : Nat),
    let u := s.elapseTo at_
    (∀ r : AcReq, u.acHead = some r →
      let c := chargeOf r.cls (u.region (regionOfCore r.pc)).mhz
      (u.pwr.admitted + c ≤ u.budget → c * tokenScale ≤ u.pwr.tokens → ∃ v, exec (.malletGrant at_) s = .next (settle u v)
        ∧ v.pwr.admitted = u.pwr.admitted + c ∧ v.pwr.tokens = u.pwr.tokens - c * tokenScale
        ∧ v.pwr.grants = satAdd u.pwr.grants 1 max32 ∧ v.pwr.fgQ = u.pwr.fgQ.drop 1
        ∧ v.pwr.bgQ = (if u.pwr.fgQ = [] then u.pwr.bgQ.drop 1 else u.pwr.bgQ)
        ∧ ((v.core r.pc).ctx r.ctx).granted = some { cls := r.cls, charge := c } ∧ (∀ n, n ≠ r.pc → v.core n = u.core n))
      ∧ (u.budget < u.pwr.admitted + c ∨ u.pwr.tokens < c * tokenScale → exec (.malletGrant at_) s = .next (settle u u)))
    ∧ (u.acHead = none → exec (.malletGrant at_) s = .next (settle u u))

/-! ### Tile instructions, routes and collectives in flight -/

/-- TILE_COMPLETE, TILE_RESTART and ROW_RETURN (R50 to R55, R159 to R161): a finished instruction renames its commit slot to its
destination and leaves the core; a tensor under range is noted, a run above its threshold is rescaled and, where it may be, made again; a TST ends with its
last write; an abandoned TLD starts again from row 0, but not while a partition change waits (R59); a row that arrives is no longer awaited. -/
def Obligations.TileInstructionsComplete : Prop :=
  ∀ (s : State) (pc id : Nat) (f : InFlight), (s.core pc).fly id = some f →
    (s.canRun pc = true →
      (f.phase = .done → (s.core pc).renamesFirst f = false →
        ((usesHist (s.core pc).part f.words && !f.rerun) = false → exec (.tileComplete pc id) s = .next (settle s (s.finishTile pc f)))
        ∧ (usesHist (s.core pc).part f.words = true → f.rerun = false →
          let v := s.underRange pc f
          (s.rescales f.list.lc f.words f.stats = false →
            exec (.tileComplete pc id) s = .next (settle s (v.finishTile pc f)))
          ∧ (s.rescales f.list.lc f.words f.stats = true →
            ((v.rescale pc f).2 = true → exec (.tileComplete pc id) s = .next (settle s ((v.rescale pc f).1.rerun pc f)))
            ∧ ((v.rescale pc f).2 = false → exec (.tileComplete pc id) s = .next (settle s ((v.rescale pc f).1.finishTile pc f))))))
      ∧ (f.phase = .writes → s.tstPending pc id = false → exec (.tileComplete pc id) s = .next (settle s (s.finishTst pc f)))
      ∧ (∀ late x, f.phase = .restart true late → recOpc f.words = 0x01 → (s.core pc).partPend = none →
          badOperand (s.core pc).part (recD f.words) (descD (s.core pc).part f.words) = false → (s.core pc).freeSlots.head? = some x →
          ∃ u : State, exec (.tileRestart pc id) s = .next (settle s (u.requestRows pc id)) ∧ (u.core pc).tiles = (s.core pc).tiles
            ∧ (∃ g, (u.core pc).fly id = some g ∧ g.slot = some x ∧ g.dest = f.dest ∧ g.words = f.words
                ∧ g.phase = .rows (movedRows (s.core pc).part (descD (s.core pc).part f.words)) ∧ g.result.words = [] ∧ g.result.bad = []))
      ∧ (∀ need row reg x, f.phase = .rows need → need.find? (fun y => decide (y.2 = row)) = some (reg, row) →
          s.rowAt pc (s.rowLoc pc f.ctx f.list.lc f.words row) = some x →
          ∃ u : State, exec (.rowReturn pc id row) s = .next (settle s (u.requestRows pc id)) ∧ (u.core pc).tiles = (s.core pc).tiles
            ∧ ∃ g, (u.core pc).fly id = some g
              ∧ g.phase = (if (need.filter (fun y => decide (y.2 ≠ row))).isEmpty then .done
                  else .rows (need.filter (fun y => decide (y.2 ≠ row))))))
    ∧ (∀ d x, f.dest = some d → f.slot = some x →
        ((s.finishTile pc f).core pc).tile d = f.result ∧ ((s.finishTile pc f).core pc).slotOfReg d = x
        ∧ (∀ r, r ≠ d → ((s.finishTile pc f).core pc).tile r = (s.core pc).tile r)
        ∧ (∀ n, n ≠ pc → (s.finishTile pc f).core n = s.core n) ∧ ((s.finishTile pc f).core pc).fly f.id = none)

/-- ROUTE_FETCH_COMPLETE, SOLVE_COMPLETE, XCX_CONTRIBUTION and XCX_WAIT_LIMIT_EXPIRY (R69, R77, R78, R85, R87): a fetch fills its slot
from the table; a solve fills its slot with a route, or marks it BAD with its cause; a slice under way is noted when it arrives, one of a stale
incarnation is ghost traffic, and the collective ends when the last has come; past the limit what is absent is filled with MISSING. -/
def Obligations.RoutesSolvesAndCollectives : Prop :=
  ∀ (s : State) (pc n : Nat),
    (((s.core pc).slot n).fetch = true → ∃ v, exec (.routeFetchComplete pc n) s = .next (settle s v)
        ∧ ((v.core pc).slot n).route = some (.entries (s.tableRoute ((s.core pc).slot n).id)) ∧ ((v.core pc).slot n).fetch = false
        ∧ ((v.core pc).slot n).id = ((s.core pc).slot n).id ∧ ((v.core pc).slot n).bad = ((s.core pc).slot n).bad
        ∧ (∀ k, k ≠ n → (v.core pc).slot k = (s.core pc).slot k) ∧ (∀ k, k ≠ pc → v.core k = s.core k) ∧ v.routes = s.routes)
    ∧ (((s.core pc).slot n).fetch = false → exec (.routeFetchComplete pc n) s = .next (settle s s))
    ∧ (∀ q, s.canRun pc = true → (s.core pc).running.find? (fun x => decide (x.slot = n)) = some q →
        ∃ v, exec (.solveComplete pc n) s = .next (settle s v)
          ∧ (v.core pc).cnt.solves = satAdd (s.core pc).cnt.solves 1 max32
          ∧ (solveFault q.scatter [] 0 q.index = none → ((v.core pc).slot n).solved = true
              ∧ ((v.core pc).slot n).route = some (solveResult q.scatter (q.index, q.kinds)).1 ∧ ((v.core pc).slot n).bad = false
              ∧ (v.core pc).errSlot = (s.core pc).errSlot ∧ v.ev = s.ev)
          ∧ (∀ i cause, solveFault q.scatter [] 0 q.index = some (i, cause) → ((v.core pc).slot n).bad = true
              ∧ ((v.core pc).slot n).route = none ∧ (v.core pc).errSlot = n ∧ (v.core pc).errCause = cause
              ∧ (v.core pc).errIndex = i))
    ∧ ∀ lc i slice : Nat,
      let y := s.routes.flying.find? (fun y => decide (y.coll = i) && decide (y.lc = lc) && y.left.contains slice)
      (y = none → exec (.xcxContribution lc i slice) s = .next (settle s s))
      ∧ (∀ z, y = some z → ∃ v, exec (.xcxContribution lc i slice) s = .next (settle s v)
        ∧ (z.inc ≠ s.incOf z.pc → v.routes.colls = s.routes.colls ∧ v.cores = s.cores
          ∧ ∃ r, v.sm.reports = s.sm.reports ++ [r] ∧ r.det = 14 ∧ r.unit = .core z.pc)
        ∧ (z.inc = s.incOf z.pc → ∀ c, s.coll i = some c → c.filled.any (fun f => decide (f.1 = lc)) = false →
          ∃ u : State, v = (u.setColl i { c with got := c.got ++ [(lc, slice)] }).finishColl i ∧ u.cores = s.cores
            ∧ u.routes.colls = s.routes.colls ∧ u.st = s.st ∧ u.sm = s.sm))
      ∧ (∀ at_ x, (s.elapseTo at_).coll i = some x → let u := s.elapseTo at_
          u.xcxLimit ≠ 0 → x.closed = false → x.ready = false → 10 * u.xcxLimit ≤ u.ns10 (u.tu.ltc - x.opened) →
          exec (.xcxWaitLimitExpiry i at_) s = .next (settle u (u.fillColl i none kMissing 1)))

/-! ### Streams, rings and ports -/

/-- SIN_FRAME, SOUT_FRAME and SOUT_CREDIT (R182, R183, R384): while the stream links are up a frame's beats arrive in order with LAST on
the final one; with the spine in RUN a SOUT frame takes the next handle and sends what its credits allow; credits add up;
with the links down nothing moves. -/
def Obligations.StreamPortsMoveWhileTheLinksAreUp : Prop :=
  ∀ (s : State) (k n : Nat) (f : SinFrame),
    (s.pins.strUp = false → exec (.sinFrame k f) s = .next (settle s s) ∧ exec (.soutFrame k) s = .next (settle s s)
      ∧ exec (.soutCredit k n) s = .next (settle s s))
    ∧ (s.pins.strUp = true → k < 4 →
      (∃ u : State, exec (.sinFrame k f) s = .next (settle s ((frameBeats f).foldl (fun s b => s.sinArrive k b.1 b.2) u))
        ∧ u.st = s.st ∧ u.cores = s.cores ∧ (bit (s.reg 0x20014) 4 = false → u = s))
      ∧ ((s.region 6).state = .run → exec (.soutFrame k) s
          = .next (settle s ((if (s.sport (k + 4)).out.isNone then s.soutTake (k + 4) else s).soutSend (k + 4))))
      ∧ (let v := s.setSport (k + 4) { s.sport (k + 4) with
          credits := (s.sport (k + 4)).credits + n, given := (s.sport (k + 4)).given + n }
        exec (.soutCredit k n) s = .next (settle s (if (s.region 6).state = .run then v.soutSend (k + 4) else v))))
    ∧ (frameBeats f).length = f.beats.length + 1
    ∧ ∀ i, i < (frameBeats f).length → ((frameBeats f)[i]?.map (fun b => b.2)) = some (decide (i = f.beats.length))

/-- RING_POLL, OUTBOUND_RING_COPY, BURST_FLUSH, DEADLOCK_DETECT and SPILL_COMPLETE (R184, R186, R190 to R192): a poll that is due by
presented time (R197) reads the engine's index word and, where an inbound ring's consumer index has moved, writes it, and takes what
answers it at once (log entry 63); a copy of an
outbound ring takes the next handle and writes the slot's buffer; a flush sends a channel's partial bursts; a cycle is broken, but its
spill copies hold during a quiesce (R282); a spill whose write is answered counts. -/
def Obligations.RingsBurstsAndDeadlocks : Prop :=
  ∀ (s : State) (r : Nat),
    (∀ (at_ : Nat) (index : Option Word) (descs : List (List Byte)), let u := s.elapseTo at_
      let x := u.ring r
      let v := u.setRing r { x with lastPoll := u.nowNs, told := if x.outbound then x.told else x.cons }
      let w := v.ringAccess (.ringTell r) r (x.idx true) 4 true (leBytes 4 x.cons.toNat)
      let ready := x.valid = true ∧ (u.region 6).state = .run ∧ u.mp.quiesce = false ∧ u.mp.rstq = false ∧ u.asking (.ringIdx r) = false
        ∧ x.lastPoll + (100 * max 2 x.poll : Nat) ≤ u.nowNs
      (ready → x.outbound = true ∨ x.cons = x.told →
        exec (.ringPoll r index descs at_) s = .next (settle u
          (((v.ringAccess (.ringIdx r) r (x.idx x.outbound) 4 false []).ringGo r).ringAnswer r index descs)))
      ∧ (ready → x.outbound = false → x.cons ≠ x.told →
        exec (.ringPoll r index descs at_) s = .next (settle u
          (((w.ringAccess (.ringIdx r) r (x.idx false) 4 false []).ringGo r).ringAnswer r index descs)))
      ∧ (¬ ready → exec (.ringPoll r index descs at_) s = .next (settle u u)))
    ∧ (∀ (at_ : Nat) (v : State) (h : Word) (side : BitVec 128), let u := s.elapseTo at_
      let x := u.ring r
      x.valid = true → x.outbound = true → x.out = none → (u.region 6).state = .run → u.mp.quiesce = false → u.mp.rstq = false →
      (x.prod - x.cons).toNat < x.nslot → u.pop x.queue false = (v, .handle h side) →
      (isPlaceholder h = true ∨ v.staleCode h = none) → (hExternal h = false ∨ isPlaceholder h = true) →
      exec (.outboundRingCopy r at_) s = .next (settle u ((v.setRing r { v.ring r with
        out := some ({ handle := h, side := side, phase := .reading, rows := [], bad := [], lost := 0, kinds := 0 } : RingOut)
        }).ringBuffer r)))
    ∧ ((s.region 6).state = .run → exec (.burstFlush r) s = .next (settle s
        ((s.chan r).partWr.foldl (fun s w => s.sendWrite w.2.2.2.1 w.2.2.2.2 r (w.1, w.2.1, w.2.2.1))
          ((s.chan r).partRd.foldl (fun s b => s.sendRead r b) (s.setChan r { s.chan r with partRd := [], partWr := [] })))))
    ∧ (∀ at_ cy, let u := s.elapseTo at_
      (u.region 6).state = .run → u.cycle = some cy → u.spilling cy = false →
      ((∀ q, u.deciding cy = some q → (u.queue q).handles.any QEnt.poolHandle = false) ∨ (u.mp.quiesce = false ∧ u.mp.rstq = false)) →
      exec (.deadlockDetect at_) s = .next (settle u (u.breakCycle cy)))
    ∧ (∀ q k i e, (indexed 0 (s.queue q).handles).find? (fun e => decide (e.2.spilling = some k)) = some (i, e) →
      s.mp.reqs.find? (fun r => match r.who with | .spill a b _ => decide (a = q ∧ b = k) | _ => false) = none →
      ∃ v, exec (.spillComplete q k) s = .next (settle s v) ∧ v.st.spillCnt = satAdd s.st.spillCnt 1 max32 ∧ v.so = s.so
        ∧ v.gong = s.gong)

/-! ### Configuration and time -/

/-- LOAD_STAGED, CFG_CRC_CHECK and IMAGE_RESUME (R217, R224, R225, R238): once all its data are there and nothing failed, a load leaves
its image STAGED with the code of its margins; a stored image that fails its check is reported, a staged one also discarded; a
resumption ends running or ends the start. -/
def Obligations.ConfigurationEvents : Prop :=
  ∀ (s : State) (at_ : Nat),
    (∀ im, s.cfg.state = .writing → s.cfg.staged = some im →
      (s.cfg.err.isSome = true → ∃ v, exec .loadStaged s = .next (settle s v) ∧ v.cfg.state = .failed ∧ v.cfg.code = 0x020B
          ∧ v.cfg.staged = none ∧ v.cores = s.cores ∧ v.gong = s.gong)
      ∧ (s.cfg.err = none → s.cfgWaits = false → (s.writeBulks (im.sects.filter (fun x => isBulk x.ty))).2 = true →
        let w := (s.writeBulks (im.sects.filter (fun x => isBulk x.ty))).1
        w.cfg.latched = false → bit (w.reg 0x4000C) 3 = false → ∃ v, exec .loadStaged s = .next (settle s v)
          ∧ v.cfg.state = .staged ∧ v.cfg.tries = 0 ∧ v.cfg.stagedId = BitVec.ofNat 32 (im.hdr 12 4)
          ∧ v.cfg.code = (if w.cfg.margin.slack < 52 then 0x0204 else if w.cfg.margin.spares = 0 then 0x0205 else 0)
          ∧ v.cores = w.cores ∧ v.gong = w.gong ∧ v.cfg.active = w.cfg.active))
    ∧ (let u := s.elapseTo at_
      (u.region 7).state = .run →
      (∀ im, u.cfg.active = some im → u.cfg.activeValid = true → u.storeFails im u.cfg.half = true → u.cfg.state = .empty →
        ∃ v, exec (.cfgCrcCheck at_) s = .next (settle u v) ∧ v.sm.reports = u.sm.reports ++ [mkReport 11 .smOrSpineTarget 0]
          ∧ v.cfg = u.cfg ∧ v.cores = u.cores)
      ∧ (∀ im, u.cfg.active = none → u.cfg.state = .staged → u.cfg.staged = some im → u.storeFails im (!u.cfg.half) = true →
        ∃ v, exec (.cfgCrcCheck at_) s = .next (settle u v) ∧ v.cfg.state = .empty ∧ v.cfg.staged = none ∧ v.cfg.code = 0x0210
          ∧ v.cores = u.cores)
      ∧ (u.cfg.active = none → u.cfg.state = .empty → exec (.cfgCrcCheck at_) s = .next (settle u u)))
    ∧ (s.inReset = false → s.boot.state = .running →
      (s.resumeDone.2 = none → exec .imageResume s = .next (settle s s.resumeDone.1))
      ∧ (∀ code, s.resumeDone.2 = some code → exec .imageResume s = .next (settle s (s.resumeDone.1.failStart 0x010F code))))

/-- INTERP_CALIBRATE, TOD_WORD, TIME_PULSE and PULSE_TIMEOUT (R242 to R249, R267): a word of 128 bits replaces the one held; a pulse
without a fresh, sound and valid word is ignored and counted; every pulse uses its word up, measured or not (R244), and one that is
accepted steps presented time or moves the servo; past the limit the last pulse is forgotten and the lock ends; a calibration of
1,024 ticks gives the interpolator its count. -/
def Obligations.TimeInputs : Prop :=
  ∀ (s : State) (c at_ : Nat) (x : BitVec 128),
    let u := s.elapseTo at_
    let w := { u with tu := { u.tu with pllC := if u.tu.ltc = s.tu.ltc then max s.tu.pllC c else c } }
    let used (v : State) : State := { v with tu := { v.tu with tod := { v.tu.tod with fresh := false } } }
    let e := w.tu.tod.time - (w.now - w.pulseDelay)
    let stepNs : Int := clampLo (fld (w.reg 0x10058) 0 24) 100
    let big := decide ((fld (w.reg 0x1006C) 0 20 : Int) * 65536000 < (e.natAbs : Int))
    let v := used { w with tu := { w.tu with ignored := 0, lastPulse := some w.tu.ltc } }
    exec (.todWord x 128) s = .next (settle s { s with tu := { s.tu with tod := { word := x, bits := 128, fresh := true } } })
    ∧ (∀ n, n ≠ 128 → exec (.todWord x n) s
        = .next (settle s { s with tu := { s.tu with tod := { word := s.tu.tod.word, bits := n, fresh := true } } }))
    ∧ ((u.region 7).state = .run → u.tu.pllFrom + 1024 ≤ u.tu.ltc →
        exec (.interpCalibrate c at_) s = .next (settle u { u with tu := { u.tu with pllK := some c, pllFrom := u.tu.ltc } }))
    ∧ (w.tuRuns = false ∨ bit (w.reg 0x10064) 16 = false → exec (.timePulse c at_) s = .next (settle w (used w)))
    ∧ (w.tuRuns = true → bit (w.reg 0x10064) 16 = true →
      (w.tu.tod.fresh = false → exec (.timePulse c at_) s = .next (settle w (w.ignorePulse.portRec 0x0605)))
      ∧ (w.tu.tod.fresh = true → w.tu.tod.ok = false →
          exec (.timePulse c at_) s = .next (settle w ((used w).ignorePulse.portRec 0x0604)))
      ∧ (w.tu.tod.fresh = true → w.tu.tod.ok = true → w.tu.tod.word.getLsbD 104 = false →
          exec (.timePulse c at_) s = .next (settle w (used w).ignorePulse))
      ∧ (w.tu.tod.fresh = true → w.tu.tod.ok = true → w.tu.tod.word.getLsbD 104 = true →
        (w.tu.invalid = false → (e.natAbs : Int) < stepNs * 65536 → exec (.timePulse c at_) s = .next (settle w (v.servo e)))
        ∧ (w.tu.invalid = true ∨ stepNs * 65536 ≤ (e.natAbs : Int) → exec (.timePulse c at_) s = .next (settle w
            (let z := { v with tu := { v.tu with lastE := e } }
             (if big then z.timeFault 0x0602 else z).timeStep e (if big then 0x0602 else 0x0601))))))
    ∧ (∀ p, u.tu.lastPulse = some p → u.tuRuns = true →
        p + u.ticksOf (10 ^ 6 * fld (u.reg 0x10064) 20 12) ≤ u.tu.ltc → ∃ z, exec (.pulseTimeout at_) s = .next (settle u z)
          ∧ z.tu.lastPulse = none ∧ z.tu.pulseMiss = satAdd u.tu.pulseMiss 1 max32 ∧ z.tu.locked = false ∧ z.tu.lockRun = 0
          ∧ z.gong = u.gong ∧ z.cores = u.cores)

/-- EVENT_RING_WRITE, RING_CONSUMER_POLL and WATERMARK_WRITE (R257, R260, R261): a live ring without a burst under way sends the oldest of
its records, 32 bytes each, to the free slots in order, within a page and up to the end of the ring; a poll that is due (log entry 68)
reads the consumer index; a watermark goes out to the header; a ring that is not live takes part in nothing. -/
def Obligations.EventRingRows : Prop :=
  (∀ e : EvRec, e.bytes.length = 32)
  ∧ ∀ (s : State) (r n at_ : Nat) (index : Word),
    let u := s.elapseTo at_
    let x := u.evRing r
    let a := u.evSlot r x.prod
    let es := u.oldestOf r (min (min n (u.ringFree r)) (min ((4096 - a % 4096) / 32) (u.ringSize r - x.prod % u.ringSize r)))
    let hi := a % 64 + 32 * es.length
    let beats := ceilDiv hi 64
    (u.ringLive r = true → x.sent = [] → es ≠ [] → exec (.eventRingWrite r n at_) s
      = .next (settle u ((u.setEvRing r { x with sent := es }).newReqAt (.evRing r) 7 none (a / 64 * 64) beats true
          (padTo (64 * beats) 0 (List.replicate (a % 64) 0 ++ es.flatMap (fun e => e.bytes))) [] (a % 64) hi)))
    ∧ (u.ringLive r = false ∨ x.sent ≠ [] ∨ es = [] → exec (.eventRingWrite r n at_) s = .next (settle u u))
    ∧ (u.ringLive r = true → u.ringFree r = 0 ∨ (u.evRing r).polled + u.ticksOf 10000 ≤ u.tu.ltc →
        ∃ v, exec (.ringConsumerPoll r index at_) s = .next (settle u v)
          ∧ v.evRing r = { u.evRing r with cons := index.toNat, polled := u.tu.ltc } ∧ (∀ k, k ≠ r → v.evRing k = u.evRing k)
          ∧ v.ev.buf = u.ev.buf)
    ∧ (u.ringLive r = true → exec (.watermarkWrite r at_) s = .next (settle u (u.writeMark r)))
    ∧ (u.ringLive r = false → exec (.ringConsumerPoll r index at_) s = .next (settle u u)
        ∧ exec (.watermarkWrite r at_) s = .next (settle u u))

/-! ### Memory ports, translation, quiesce -/

/-- Responses, answers, retries and limits on the memory ports and the translation interface (R270, R273, R276 to R278, R281, R293): each
goes to the request that holds its tag or number, or whose limit has passed; one that no request holds is a protocol violation. -/
def Obligations.PortRowsReachTheirRequest : Prop :=
  ∀ (s : State) (port tag i at_ : Nat) (data : List Byte) (a : Resp) (poison : BitVec 2) (last : Bool) (x : XlateAnswer),
    let u := s.elapseTo at_
    (∀ r, s.onTag port tag false = some r → exec (.mpReadData port tag data a poison last) s
        = .next (settle s ((s.readBeat r tag data a poison last).afterPort)))
    ∧ (∀ r, s.onTag port tag true = some r → exec (.mpWriteResponse port tag a) s = .next (settle s ((s.writeDone r tag a).afterPort)))
    ∧ (s.onTag port tag false = none → s.lateBack port tag false = none →
        exec (.mpReadData port tag data a poison last) s = .next (settle s (s.violation port tag)))
    ∧ (s.onTag port tag true = none → s.lateBack port tag true = none →
        exec (.mpWriteResponse port tag a) s = .next (settle s (s.violation port tag)))
    ∧ (∀ r : PReq, u.mp.reqs.find? (fun r => decide (r.port = port) && decide (r.st = .retry tag)) = some r →
        r.at_ + u.ticksOf (1000 * u.retryUs) ≤ u.tu.ltc → ∃ v : State, exec (.mpRetry port tag at_) s = .next (settle u (v.tryReq r.id))
          ∧ (v.mport port).retries = satAdd (u.mport port).retries 1 max32 ∧ v.cores = u.cores)
    ∧ (∀ q : XReq, s.mp.xreqs.find? (fun q => decide (q.id = i)) = some q → q.stale = false →
        let e := s.xlpEnd i
        (x.status = .ok → exec (.xlpResponse i x) s = .next (settle s ((e.2.foldl (fun s r => s.lookAgain r)
          (e.1.learn (i / 64) ((e.2.head?).bind (fun r => r.who.core))
            { va := q.va / pageSize x.page * pageSize x.page, size := pageSize x.page, pa := x.pa.toNat / pageSize x.page * pageSize x.page,
              read := x.read, write := x.write })).afterPort)))
        ∧ (x.status ≠ .ok → exec (.xlpResponse i x) s
          = .next (settle s ((e.2.foldl (fun s r => s.faultReq r (faultCode x.status)) e.1).afterPort))))
    ∧ (s.mp.xreqs.find? (fun q => decide (q.id = i)) = none →
        exec (.xlpResponse i x) s = .next (settle s (s.violation (2 * (i / 64 % 4)) i)))
    ∧ (∀ q : XReq, u.mp.xreqs.find? (fun q => decide (q.id = i)) = some q → q.stale = false →
        q.at_ + u.ticksOf (1000 * fld (u.reg 0x50408) 0 16) ≤ u.tu.ltc → exec (.xlpRequestTimeout i at_) s
          = .next (settle u (((u.xlpEnd i).2.foldl (fun s r => s.faultReq r 0x0403) (u.xlpEnd i).1).afterPort)))
    ∧ (∀ r k, u.req i = some r → r.st = .faulted k → u.mp.quiesce = false → u.mp.rstq = false →
        r.at_ + u.ticksOf (100 * clampLo (fld (u.reg 0x50404) 0 16) 1) ≤ u.tu.ltc →
        exec (.xlpRetry i at_) s = .next (settle u (u.lookAgain r true)))
    ∧ (∀ r t c, u.req i = some r → r.wait = some t → r.chan = some c → t + u.ticksOf (1000 * u.flimit c) ≤ u.tu.ltc → r.onPort = false →
        (∀ pc id, r.who ≠ .row pc id ∧ r.who ≠ .tst pc id) → exec (.flimitExpiry i at_) s
          = .next (settle u (((((u.xlateRec 0x0404 r (u.faultRow r)).poisonReq r kTranslate).ringsGo).eventsGo).prefetch)))

/-- XLP_INVALIDATE (R277): after it no TLB and no core slice holds an entry that the invalidation names; every other entry stays. -/
def Obligations.InvalidationRemovesEntries : Prop :=
  ∀ (s : State) (pasid va n : Nat) (all : Bool),
    let hit (e : TlbEntry) : Prop :=
      all = true ∨ pasid = fld (s.reg 0x50400) 0 20 ∧ e.va < 4096 * (va + n) ∧ 4096 * va < e.va + e.size
    ∃ t, exec (.xlpInvalidate pasid va n all) s = .next t
      ∧ (∀ b ∈ t.mp.tlbs, ∀ e ∈ b.2, ¬ hit e) ∧ (∀ k ∈ t.cores, ∀ e ∈ k.2.slice, ¬ hit e)
      ∧ (∀ b ∈ s.mp.tlbs, ∀ e ∈ b.2, ¬ hit e → ∃ b' ∈ t.mp.tlbs, b'.1 = b.1 ∧ e ∈ b'.2)
      ∧ (∀ k ∈ s.cores, ∀ e ∈ k.2.slice, ¬ hit e → ∃ k' ∈ t.cores, k'.1 = k.1 ∧ e ∈ k'.2.slice)
      ∧ t.mp.reqs = s.mp.reqs ∧ t.gong = s.gong ∧ t.so = s.so

/-- QUIESCE_REQ, the quiesce of a reset, WARM_RESET and POWER_ON_RESET (R282 to R284, R299, R343, R358, R386): a rising request is noted and
acknowledged once no tag and no translation is outstanding; a falling one lets what was held go on; past 4 µs a reset is let
through; a warm reset keeps the GSN, the retention words, the active image and the fenced set and makes a start due; a power-on
reset loses all state. -/
def Obligations.QuiesceAndResets : Prop :=
  ∀ (s : State) (at_ : Nat),
    (s.mp.quiesce = false → ∃ t, exec .quiesceReqRise s = .next t ∧ t.mp.quiesce = true ∧ t.mp.qSince = s.tu.ltc
        ∧ (t.mp.ack = true ↔ s.anyTag = false ∧ s.mp.xreqs = []) ∧ t.cores = s.cores ∧ t.gong = s.gong)
    ∧ (s.mp.quiesce = true → exec .quiesceReqRise s = .next (settle s s))
    ∧ exec .quiesceReqFall s = .next (settle s { s with mp := { s.mp with quiesce := false, ack := false } }.afterPort)
    ∧ (let u := s.elapseTo at_
      u.mp.rstq = true → u.mp.rstSince + u.ticksOf 4000 ≤ u.tu.ltc → ∃ t, exec (.resetQuiesceTimeout at_) s = .next t
        ∧ t.mp.rstq = false ∧ t.gong = u.gong ∧ t.tu = u.tu)
    ∧ (s.pwr.blockOff = false → s.boot.pend = none → ∃ t, exec .warmReset s = .next t ∧ t.boot.pend = some 1 ∧ t.gong.gsn = s.gong.gsn
        ∧ t.retain = s.retain ∧ t.cfg.active = s.cfg.active ∧ t.cfg.activeValid = s.cfg.activeValid ∧ t.sm.fenced = s.sm.fenced
        ∧ t.sm.incs = s.sm.incs ∧ t.cfg.state = .empty ∧ t.so = State.reset.so ∧ t.lcs = State.reset.lcs
        ∧ ∀ pc, pc < s.par.npc → (t.core pc).flight = [] ∧ (t.core pc).fg = Context.reset ∧ (t.core pc).bg = Context.reset)
    ∧ (∃ t, exec .powerOnReset s = .next t ∧ t.boot.pend = (State.resetWith s.par).boot.pend ∧ t.cores = (State.resetWith s.par).cores
        ∧ t.gong = (State.resetWith s.par).gong ∧ t.tu = (State.resetWith s.par).tu ∧ t.retain = (State.resetWith s.par).retain
        ∧ t.regs = (State.resetWith s.par).regs ∧ t.cfg = (State.resetWith s.par).cfg ∧ t.pins.refSel = s.pins.refSel)

/-! ### Power -/

/-- Wake sources and wake steps (R302 to R310, R378, R381): a step whose ready signal rises leads to the next, the last to RUN; a step that
times out is tried once more and then fails its region; the pin, a matching WSP frame, SIN activity and a compare of AON wake
where they are enabled; a region whose clock has locked again returns to work. -/
def Obligations.WakeRows : Prop :=
  ∀ (s : State) (g k : Nat) (addr : BitVec 8) (p : Bool),
    (bit (s.reg 0x20014) 0 = true → exec .wakePin s = .next (settle s (s.pinWake 1 (bit (s.reg 0x20014) 1))))
    ∧ (bit (s.reg 0x20014) 0 = false → exec .wakePin s = .next (settle s s))
    ∧ (bit (s.reg 0x20014) 3 = true → addr.toNat = fld (s.reg 0x20014) 8 8 → p = oddByte addr →
        exec (.wspFrame addr p) s = .next (settle s (s.pinWake 2 false)))
    ∧ (bit (s.reg 0x20014) 3 = false ∨ addr.toNat ≠ fld (s.reg 0x20014) 8 8 ∨ p ≠ oddByte addr →
        exec (.wspFrame addr p) s = .next (settle s s))
    ∧ (k < 4 → bit (s.reg 0x20014) 4 = true → s.pins.strUp = true → exec (.sinActivityWake k) s = .next (settle s (s.wake 6 true [6])))
    ∧ ((s.region g).state = .waking → s.pwr.refAck = false →
      (s.pwr.blockOff = false → ¬ ((s.region g).step = 1 ∧ s.pwr.srpBusy = true) →
        (nextStep (s.region g).from_ (s.region g).step < 5 → exec (.wakeStepComplete g) s = .next (settle s
          (s.setRegion g { s.region g with step := nextStep (s.region g).from_ (s.region g).step, tries := 0 }).replay))
        ∧ (5 ≤ nextStep (s.region g).from_ (s.region g).step → 6 ≤ g ∨ (s.region 6).state = .run ∧ (s.region 7).state = .run →
          exec (.wakeStepComplete g) s = .next (settle s (s.reachRun g).replay)))
      ∧ ((s.region g).tries = 0 → exec (.wakeStepTimeout g) s = .next (settle s (s.setRegion g { s.region g with tries := 1 })))
      ∧ ((s.region g).tries ≠ 0 → ∃ v, exec (.wakeStepTimeout g) s = .next (settle s v) ∧ (v.region g).state = .failed
          ∧ (∀ n, n ≠ g → v.region n = s.region n)
          ∧ v.sm.reports = s.sm.reports ++ [mkReport (stepDetector (s.region g).step) (.region g) g]))
    ∧ (∃ v : State, exec (.regionReturnToRun g) s = .next (settle s v.replay) ∧ (v.region g).applying = false
        ∧ (∀ n, n ≠ g → v.region n = s.region n) ∧ v.cores = s.cores)
    ∧ (∀ c at_, let u := s.elapseTo at_
        (u.pwr.blockOff = false → exec (.aonCompareWake c at_) s = .next (settle u (u.compareWake c)))
        ∧ (u.pwr.blockOff = true → exec (.aonCompareWake c at_) s = .next (settle u u)))

/-- STATE_ENTRY_COMPLETE, the rail answers, samples, throttle, clock reference and CORE_PG (R298, R303, R307, R314, R315, R320, R378 to R380). -/
def Obligations.PowerRows : Prop :=
  ∀ (s : State) (g at_ : Nat) (b : Bool) (ts : List Int),
    let u := s.elapseTo at_
    (∀ st, (s.region g).entering = some st → let w := s.elapseTo ((s.region g).since + s.entryTicks st)
        (w.region g).pendWake = 0 → g ≠ 7 → ∃ v : State, exec (.stateEntryComplete g) s = .next (settle s (v.lose g st))
          ∧ (v.region g).state = st ∧ (v.region g).entering = none ∧ (v.region g).since = w.tu.ltc ∧ v.tu = w.tu
          ∧ (∀ n, n ≠ g → v.region n = w.region n) ∧ v.cores = w.cores)
    ∧ ((s.region g).entering = none → exec (.stateEntryComplete g) s = .next (settle s s))
    ∧ (s.pwr.srpBusy = true → ∃ v, exec (.srpAnswer 1 true) s = .next (settle s v) ∧ v.pwr.railMv = s.pwr.srpMv ∧ v.pwr.srpBusy = false
        ∧ v.cores = s.cores)
    ∧ (s.pwr.srpBusy = true → ∃ v, exec (.srpAnswer 2 true) s = .next (settle s v) ∧ v.pwr.railMv = s.pwr.railMv ∧ v.pwr.srpBusy = false
        ∧ v.cores = s.cores)
    ∧ (∀ y, exec (.srpAnswer y false) s = .next (settle s s))
    ∧ (u.pwr.srpBusy = true → u.pwr.srpAt + u.ticksOf 200000 ≤ u.tu.ltc →
      (u.pwr.srpSent < 2 → exec (.srpTimeout at_) s = .next (settle u { u with pwr := { u.pwr with srpSent := 2, srpAt := u.tu.ltc } }))
      ∧ (2 ≤ u.pwr.srpSent → ∃ v, exec (.srpTimeout at_) s = .next (settle u v) ∧ v.pwr.srpFail = true ∧ v.pwr.srpBusy = false
          ∧ v.pwr.railMv = u.pwr.railMv ∧ mkReport 7 .srp 0 ∈ v.sm.reports))
    ∧ (∃ v, exec (.neighbourSample ts at_) s = .next (settle u v) ∧ v.cores = u.cores ∧ v.gong = u.gong
        ∧ ∀ n t, n < 7 → u.hasRegion n = true → ts[n]? = some t → (v.region n).temp = t)
    ∧ (b = s.pwr.throttled → exec (.throttleEdge b) s = .next (settle s s))
    ∧ (b ≠ s.pwr.throttled → ∃ v, exec (.throttleEdge b) s = .next (settle s v) ∧ v.pwr.throttled = b ∧ v.gong = s.gong ∧ v.tu = s.tu)
    ∧ (s.pwr.blockOff = false → s.tu.onSlow = false → s.slowOk = true → exec (.refSel true) s = .next (settle s
        { s with pins := { s.pins with refSel := true }, tu := { s.tu with onSlow := true, slowTicks := 0, slowRem := 0 },
                 pwr := { s.pwr with refReq := false, refAck := true } }))
    ∧ (s.pwr.blockOff = false → s.tu.onSlow = true → ∃ v, exec (.refSel false) s = .next (settle s v) ∧ v.tu.onSlow = false
        ∧ v.tu.ltc = (s.tu.ltc + (s.tu.slowTicks * 9375 + s.tu.rem) / 8) % 2 ^ 64 ∧ v.tu.coarse = true ∧ v.pwr.refAck = false
        ∧ v.pwr.refReq = true ∧ v.gong = { s.gong with freeAcc :=
            if s.gong.en then s.gong.freeAcc + (s.tu.slowTicks * 9375 + s.tu.rem) / 8 * 2 ^ 16 * s.tu.rate else s.gong.freeAcc })
    ∧ (u.pwr.refAck = true → u.pwr.refReq = true →
        2 * u.par.refStartUs * 32768 ≤ (u.tu.slowTicks - u.pwr.refReqAt) * 1000000 → ∃ v, exec (.refStartTimeout at_) s = .next (settle u v)
          ∧ v.sm.reports = u.sm.reports ++ [mkReport 6 .clkRef 0] ∧ v.pwr = u.pwr)
    ∧ (s.pwr.blockOff = false → ∃ v, exec .corePgFall s = .next (settle s v) ∧ v.sm.reports = s.sm.reports
        ++ ((List.range 8).filter (fun g => s.hasRegion g)).map (fun g => mkReport 7 (.region g) g) ∧ v.cores = s.cores ∧ v.pwr = s.pwr)

/-! ### Safety manager and boot -/

/-- Reports, drain windows, scrub reads, probes, injections and lockstep events (R330 to R347). -/
def Obligations.SafetyManagerRows : Prop :=
  ∀ (s : State) (r : Report) (pc d p w at_ : Nat) (m : MemKind) (fs : List (Nat × Option Nat)),
    let u := s.elapseTo at_
    (s.inReset = false → r.det ≤ 15 → exec (.detectorReport r) s = .next (settle s
      ({ s with sm := { s.sm with reports := s.sm.reports.erase r } }.react r (s.sm.reports.contains r))))
    ∧ (∀ x : Drain, u.sm.drains.find? (fun d => decide (d.pc = pc)) = some x → x.at_ ≤ u.tu.ltc → exec (.drainWindowEnd pc at_) s
        = .next (settle u ({ u with sm := { u.sm with drains := u.sm.drains.erase x } }.knellRec x)))
    ∧ (s.tu.ltc - s.sm.scrubAt < s.ticksOf 8000000 → exec (.scrubRead m w .clean) s = .next (settle s s)
        ∧ exec (.scrubRead m w .poisoned) s = .next (settle s s))
    ∧ (s.inReset = false → (match memCore m with | some pc => s.hasCore pc | none => true) = true →
        memRegion m = 8 ∨ (s.region (memRegion m)).state = .run →
      (∃ v, exec (.scrubRead m w .uncorrectable) s = .next (settle s v) ∧ v.sm.scrubUe = satAdd s.sm.scrubUe 1 max32
        ∧ ∃ rest, v.sm.reports = rest ++ [{ mkReport 1 (.memory m w) w with code := 0x030B }])
      ∧ (s.wordBad m w = false → ∃ v, exec (.scrubRead m w .correctable) s = .next (settle s v)
        ∧ v.sm.scrubCe = satAdd s.sm.scrubCe 1 max32 ∧ v.sm.reports = s.sm.reports ++ [mkReport 0 (.memory m w) w] ∧ v.cores = s.cores))
    ∧ (u.inReset = false → u.hasCore pc = true → (u.core pc).stuck = false → (∃ v, exec (.watchdogProbe pc true at_) s = .next (settle u v)
        ∧ (v.core pc).wdogMiss = 0 ∧ ∀ n, n ≠ pc → v.core n = u.core n))
    ∧ (let v := u.onCore pc (fun k => { k with wdogSeen := k.flight })
      u.inReset = false → u.hasCore pc = true → (v.core pc).held = false →
        ((v.core pc).fg.list).isSome = true ∨ ((v.core pc).bg.list).isSome = true → v.causes pc = [] →
        exec (.watchdogProbe pc false at_) s = .next (settle u (v.missWindow pc))
          ∧ ((u.core pc).stuck = true → exec (.watchdogProbe pc true at_) s = .next (settle u (v.missWindow pc))))
    ∧ (u.inReset = false → d ≤ 15 → (u.inj d).armed = true → exec (.injection d at_) s = .next (settle u
        (((u.setInj d { armed := decide (fld (u.reg (injOff d)) 0 2 = 2), count := satAdd (u.inj d).count 1 max16 }).faultAt d
          (fld (u.reg (injOff d)) 2 6) (fld (u.reg (injOff d)) 8 8)).markInjected u.sm.reports.length)))
    ∧ (s.inReset = false → p < 2 → s.sm.simplex.getLsbD p = false → s.sm.pairReset.getLsbD p = false → s.boot.state = .running →
        exec (.lockstepMismatch p) s = .next (settle s ((s.report (mkReport 3 (.pair p) p)).pairStart p)))
    ∧ (s.inReset = false → p < 2 → s.sm.pairReset.getLsbD p = true →
        let v := { s with sm := { s.sm with
          pairReset := s.sm.pairReset &&& ~~~BitVec.ofNat 2 (2 ^ p), pairSince := SMap.set s.sm.pairSince 0 p 0 } }
        let dur := s.ns10 (s.tu.ltc - SMap.get s.sm.pairSince 0 p)
        exec (.pairRestartComplete p false false) s = .next (settle s ((v.lockstepRec 0x0307 p 3 dur).smReset 3))
        ∧ (s.sm.simplex.getLsbD p = false → exec (.pairRestartComplete p true true) s
            = .next (settle s ((v.lockstepRec 0x030E p 0 dur).lateReleases p))))
    ∧ (s.inReset = false → exec .duplicateStateMismatch s = .next (settle s (s.report { mkReport 11 .duplicate 0 with code := 0x030D })))
    ∧ (s.sm.diagBusy = true → ∀ b, ∃ t, exec (.diagComplete b) s = .next t ∧ t.sm.diagBusy = false ∧ t.sm.diagPass = b
        ∧ t.sm.diagOk = (if b then s.sm.diagOk ||| BitVec.ofNat 18 (2 ^ s.sm.diagPc)
            else s.sm.diagOk &&& ~~~BitVec.ofNat 18 (2 ^ s.sm.diagPc)) ∧ t.cores = s.cores)
    ∧ (u.inReset = false → bit (u.reg 0x30000) 1 = true →
        let v := { u with sm := { u.sm with cycles := satAdd u.sm.cycles 1 0xFFFFFF } }
        exec (.ptestCycle fs at_) s = .next (settle u ((fs.foldl (fun s f => s.ptestBad f) v).ptestRec (if fs.isEmpty then 0 else 0x0310)
          (match fs.getLast? with | some f => f.1 | none => 0) 0x1F)))

/-- Starts and their steps (R358 to R361) and the test access port (R390): a start that is due takes its entry; the memory BIST, Limny's
self-test and the boot watchdog end their steps; an access port instruction selects its register. -/
def Obligations.BootRows : Prop :=
  ∀ (s : State) (key : KeyPort) (i : BitVec 6) (core : BitVec 18) (sp ct : Bool) (at_ : Nat),
    let u := s.elapseTo at_
    let v := { s with par := { s.par with instId := i } }
    (s.boot.pend = some 0 → s.pwr.blockOff = false → s.regionsUp = true → s.par.testEn = false →
      exec (.coldStart key i) s = .next (settle v (v.startEntry 0 key)) ∧ ∃ t, exec (.coldStart key i) s = .next t
        ∧ t.par.instId = i ∧ t.boot.pend = none)
    ∧ (s.boot.pend ≠ some 0 ∨ s.pwr.blockOff = true ∨ s.regionsUp = false ∨ s.par.testEn = true →
      exec (.coldStart key i) s = .next (settle s s))
    ∧ (∀ k, s.boot.pend = some k → k ≠ 0 → s.mp.rstq = false → s.par.testEn = false →
      exec (.warmStart key) s = .next (settle s (s.startEntry k key)))
    ∧ (s.inReset = false → s.boot.state = .bist →
      exec (.bistComplete core sp ct true) s = .next (settle s
        ({ s with boot := { s.boot with bist := BitVec.ofNat 20 (((List.range s.par.npc).filter (fun pc => core.getLsbD pc)).foldl
          (fun n pc => n + 2 ^ pc) (b2n sp * 2 ^ 18 + b2n ct * 2 ^ 19)) } }.failStart 0x0102 3))
      ∧ (s.boot.addrValid = false → ∃ t, exec (.bistComplete 0 false false false) s = .next t ∧ t.boot.state = .waitFetch
        ∧ t.boot.bist = 0 ∧ t.cores = s.cores))
    ∧ (s.inReset = false → s.boot.state = .limnyStart →
      exec (.limnyRunning false) s = .next (settle s (s.failStart 0x010E 10))
      ∧ (s.boot.kind = 0 → ∃ t, exec (.limnyRunning true) s = .next t ∧ t.boot.state = .running ∧ t.boot.fwVer = s.boot.newVer
          ∧ t.boot.fwSvn = s.boot.newSvn ∧ t.boot.code = (if s.boot.warn then s.boot.code else 0)))
    ∧ (u.inReset = false → u.boot.state = .verify ∨ u.boot.state = .limnyStart →
      u.boot.fetchAt + u.ticksOf (10 ^ 6 * clampLo (fld (u.reg 0x80024) 0 16) 1) ≤ u.tu.ltc →
      exec (.bootWdogExpiry at_) s = .next (settle u (u.failStart 0x010B 6)))
    ∧ (∃ t, exec .jtagBypass s = .next t ∧ t.boot.jtagIr = jtagCode 0xFF ∧ t.boot.jtagOut = s.boot.jtagOut ∧ t.cores = s.cores)
    ∧ (∃ t, exec .jtagIdcode s = .next t ∧ t.boot.jtagIr = jtagCode 0x01 ∧ t.boot.jtagOut = Params.idcode s.par ∧ t.cores = s.cores)
    ∧ (s.par.testEn = false → ∃ t, exec .jtagScan s = .next t ∧ t.boot.jtagIr = jtagCode 0xFF ∧ t.cores = s.cores
        ∧ exec (.jtagMbist core sp ct) s = .next t)
    ∧ (s.par.testEn = true → (∃ t, exec .jtagScan s = .next t ∧ t.boot.jtagIr = jtagCode 0x21 ∧ t.cores = s.cores)
        ∧ ∃ t, exec (.jtagMbist core sp ct) s = .next t ∧ t.boot.jtagIr = jtagCode 0x20 ∧ t.boot.bist = s.bistWord core sp ct)

/-! ### The whole machine -/

/-- What follows a command's own effect (SIN ports that drain, R183; regions that wake or choose a state, R301 and R303) changes the
streams, the power controller and the event plane alone; no command's effect reaches the queue of waiting commands (log
entry 10) or the integration parameters. -/
def Obligations.WhatFollowsAnEffectLeavesTheRest : Prop :=
  ∀ (s0 s : State), let t := settle s0 s
    t.regs = s.regs ∧ t.tu = s.tu ∧ t.gong = s.gong ∧ t.cores = s.cores ∧ t.lcs = s.lcs ∧ t.so = s.so ∧ t.routes = s.routes
      ∧ t.seqMem = s.seqMem ∧ t.retain = s.retain ∧ t.cfg = s.cfg ∧ t.mp = s.mp ∧ t.sm = s.sm ∧ t.boot = s.boot ∧ t.hcp = s.hcp
      ∧ t.pins = s.pins ∧ t.freeCnt = s.freeCnt ∧ t.par = s0.par ∧ t.pending = s0.pending

/-- Every step that answers a next state takes exactly the front command off the queue (log entry 10), in whatever state, and the
integration parameters, which are fixed at integration (R374), never change but for the instance ID that a cold start
samples (R376). -/
def Obligations.EveryStepTakesTheFrontCommand : Prop :=
  ∀ s t : State, step s = .next t → t.pending = s.pending.tail
    ∧ (t.par = s.par ∨ ∃ key i rest, s.pending = .coldStart key i :: rest ∧ t.par = { s.par with instId := i })

/-- No command moves the GSN but a gong, what lets presented time step, and what loses all state (R17): from every state, each other
command that answers a next state leaves all 64 bits as they are; and a tick leaves them too. -/
def Obligations.OnlyGongsMoveTheGsn : Prop :=
  (∀ (c : Instr) (s t : State), movesGsn c = false → exec c s = .next t → t.gong.gsn = s.gong.gsn)
    ∧ ∀ (s t : State), s.pending = [] → step s = .next t → t.gong.gsn = s.gong.gsn
end

