-- ==== Sys2Proof/Laws/State.lean ====
section
/-! SUPPORT. What each named update of the state leaves alone: one lemma per field per update; and what a reading of a
sparse family gives after a write to it. -/

namespace Sys2Proof.Machine

set_option Elab.async false

/-! ### Sparse families -/

/-- Numbers below `k` are read the same from the part below `k`. -/
theorem SMap.get_filter_lt {α : Type} (m : SMap α) (d : α) (k j : Nat) (t : SMap α) (h : j < k) :
    SMap.get (m.filter (fun e => decide (e.1 < k)) ++ t) d j = SMap.get m (SMap.get t d j) j := by
  induction m with
  | nil => rfl
  | cons e m ih =>
    obtain ⟨i, v⟩ := e
    by_cases hi : i < k
    · simp only [List.filter_cons, hi, decide_true, if_true, List.cons_append, SMap.get]
      split
      · rfl
      · exact ih
    · have : i ≠ j := by omega
      simp only [List.filter_cons, hi, decide_false, SMap.get, this, if_false]
      exact ih

/-- Numbers above the part are not read from it. -/
theorem SMap.get_filter_skip {α : Type} (m : SMap α) (d : α) (k j : Nat) (t : SMap α) (h : k ≤ j) :
    SMap.get (m.filter (fun e => decide (e.1 < k)) ++ t) d j = SMap.get t d j := by
  induction m with
  | nil => rfl
  | cons e m ih =>
    obtain ⟨i, v⟩ := e
    by_cases hi : i < k
    · have : i ≠ j := by omega
      simp only [List.filter_cons, hi, decide_true, if_true, List.cons_append, SMap.get, this, if_false]
      exact ih
    · simp only [List.filter_cons, hi, decide_false]
      exact ih

/-- Numbers above `k` are read the same from the part above `k`. -/
theorem SMap.get_filter_gt {α : Type} (m : SMap α) (d : α) (k j : Nat) (h : k < j) :
    SMap.get (m.filter (fun e => decide (k < e.1))) d j = SMap.get m d j := by
  induction m with
  | nil => rfl
  | cons e m ih =>
    obtain ⟨i, v⟩ := e
    by_cases hi : k < i
    · simp only [List.filter_cons, hi, decide_true, if_true, SMap.get]
      split
      · rfl
      · exact ih
    · have : i ≠ j := by omega
      simp only [List.filter_cons, hi, decide_false, SMap.get, this, if_false]
      exact ih

/-- Numbers not above `k` are not in the part above `k`. -/
theorem SMap.get_filter_gt_none {α : Type} (m : SMap α) (d : α) (k j : Nat) (h : j ≤ k) :
    SMap.get (m.filter (fun e => decide (k < e.1))) d j = d := by
  induction m with
  | nil => rfl
  | cons e m ih =>
    obtain ⟨i, v⟩ := e
    by_cases hi : k < i
    · have : i ≠ j := by omega
      simp only [List.filter_cons, hi, decide_true, if_true, SMap.get, this, if_false]
      exact ih
    · simp only [List.filter_cons, hi, decide_false]
      exact ih

/-- What number `j` holds after number `k` is set. -/
theorem SMap.get_set {α : Type} [DecidableEq α] (m : SMap α) (d : α) (k j : Nat) (v : α) :
    SMap.get (SMap.set m d k v) d j = if j = k then v else SMap.get m d j := by
  unfold SMap.set
  rw [List.append_assoc]
  have skip (x : List (Nat × α)) (hx : ∀ e ∈ x, e.1 = k) (hj : j ≠ k) (r : SMap α) : SMap.get (x ++ r) d j = SMap.get r d j := by
    induction x with
    | nil => rfl
    | cons e x ih =>
      obtain ⟨i, w⟩ := e
      have hi : i = k := hx _ (List.mem_cons_self ..)
      have : i ≠ j := by omega
      simp only [List.cons_append, SMap.get, this, if_false]
      exact ih fun e he => hx e (List.mem_cons_of_mem _ he)
  have mid : ∀ e ∈ (if v = d then [] else [(k, v)] : List (Nat × α)), e.1 = k := by
    intro e he
    split at he
    · simp at he
    · simp at he; rw [he]
  rcases Nat.lt_trichotomy j k with h | h | h
  · rw [SMap.get_filter_lt m d k j _ h, if_neg (show ¬ j = k by omega), skip _ mid (by omega), SMap.get_filter_gt_none m d k j (by omega)]
  · subst h
    rw [SMap.get_filter_skip m d j j _ (le_refl _), if_pos (show j = j from rfl)]
    by_cases hv : v = d
    · rw [if_pos hv, List.nil_append, hv, SMap.get_filter_gt_none m d j j (le_refl _)]
    · rw [if_neg hv]
      simp only [List.cons_append, List.nil_append, SMap.get, if_true]
  · rw [SMap.get_filter_skip m d k j _ (by omega), if_neg (show ¬ j = k by omega), skip _ mid (by omega), SMap.get_filter_gt m d k j h]

/-- The canonical form of a family: numbers strictly rising, no default listed. -/
theorem SMap.wf_iff {α : Type} [DecidableEq α] (m : SMap α) (d : α) :
    SMap.wf m d = true ↔ m.Pairwise (fun a b => a.1 < b.1) ∧ ∀ e ∈ m, e.2 ≠ d := by
  induction m with
  | nil => simp [SMap.wf]
  | cons e m ih =>
    obtain ⟨i, v⟩ := e
    simp only [SMap.wf, Bool.and_eq_true, decide_eq_true_eq, ih, List.pairwise_cons, List.mem_cons, List.all_eq_true]
    constructor
    · rintro ⟨⟨hv, hi⟩, hp, hq⟩
      refine ⟨⟨hi, hp⟩, ?_⟩
      rintro a (rfl | ha)
      · exact hv
      · exact hq a ha
    · rintro ⟨⟨hi, hp⟩, hr⟩
      exact ⟨⟨hr _ (Or.inl rfl), hi⟩, hp, fun a ha => hr a (Or.inr ha)⟩

/-- Setting a number keeps the canonical form. -/
theorem SMap.wf_set {α : Type} [DecidableEq α] (m : SMap α) (d : α) (k : Nat) (v : α) (h : SMap.wf m d = true) :
    SMap.wf (SMap.set m d k v) d = true := by
  rw [SMap.wf_iff] at h ⊢
  obtain ⟨hp, hd⟩ := h
  unfold SMap.set
  constructor
  · rw [List.append_assoc, List.pairwise_append, List.pairwise_append]
    refine ⟨hp.filter _, ⟨?_, hp.filter _, ?_⟩, ?_⟩
    · split <;> simp
    · intro a ha b hb
      split at ha
      · simp at ha
      · simp at ha hb; subst ha; exact hb.2
    · intro a ha b hb
      simp only [List.mem_filter, decide_eq_true_eq, List.mem_append] at ha hb
      rcases hb with hb | hb
      · split at hb
        · simp at hb
        · simp at hb; subst hb; exact ha.2
      · omega
  · intro e he
    simp only [List.mem_append, List.mem_filter] at he
    rcases he with (he | he) | he
    · exact hd e he.1
    · split at he
      · simp at he
      · rename_i hv
        simp at he; subst he; exact hv
    · exact hd e he.1

/-! ### Readings after writes -/

/-- A register other than the one written keeps its value. -/
theorem State.reg_other (s : State) (k j : Nat) (x : Word) (h : j ≠ k) :
    SMap.get (SMap.set s.regs (regReset s.par k) k x) (regReset s.par j) j = SMap.get s.regs (regReset s.par j) j := by
  have one := SMap.get_set s.regs (regReset s.par j) k j x
  rw [if_neg h] at one
  rw [← one]
  unfold SMap.set
  rw [List.append_assoc, List.append_assoc]
  have skip (y : List (Nat × Word)) (hy : ∀ e ∈ y, e.1 = k) (d : Word) (r : SMap Word) : SMap.get (y ++ r) d j = SMap.get r d j := by
    induction y with
    | nil => rfl
    | cons e y ih =>
      obtain ⟨i, w⟩ := e
      have hi : i = k := hy _ (List.mem_cons_self ..)
      have : i ≠ j := by omega
      simp only [List.cons_append, SMap.get, this, if_false]
      exact ih fun e he => hy e (List.mem_cons_of_mem _ he)
  have mid (d : Word) : ∀ e ∈ (if x = d then [] else [(k, x)] : List (Nat × Word)), e.1 = k := by
    intro e he
    split at he
    · simp at he
    · simp at he; rw [he]
  rcases Nat.lt_or_gt_of_ne h with h | h
  · rw [SMap.get_filter_lt _ _ k j _ h, SMap.get_filter_lt _ _ k j _ h, skip _ (mid _), skip _ (mid _)]
  · rw [SMap.get_filter_skip _ _ k j _ (by omega), SMap.get_filter_skip _ _ k j _ (by omega), skip _ (mid _), skip _ (mid _)]

/-- Setting a number to `v` and reading it gives `v`, whatever the default. -/
theorem SMap.get_set_self {α : Type} [DecidableEq α] (m : SMap α) (d : α) (k : Nat) (v : α) : SMap.get (SMap.set m d k v) d k = v := by
  rw [SMap.get_set, if_pos (show k = k from rfl)]

@[simp] theorem State.core_setCore (s : State) (k j : Nat) (x : Core) : (s.setCore k x).core j = if j = k then x else s.core j := SMap.get_set _ _ _ _ _
@[simp] theorem State.lc_setLc (s : State) (k j : Nat) (x : LogCore) : (s.setLc k x).lc j = if j = k then x else s.lc j := SMap.get_set _ _ _ _ _
@[simp] theorem State.queue_setQueue (s : State) (k j : Nat) (x : Queue) : (s.setQueue k x).queue j = if j = k then x else s.queue j := SMap.get_set _ _ _ _ _
@[simp] theorem State.part_setPart (s : State) (k j : Nat) (x : Partition) : (s.setPart k x).part j = if j = k then x else s.part j := SMap.get_set _ _ _ _ _
@[simp] theorem State.buffer_setBuffer (s : State) (k j : Nat) (x : Buffer) : (s.setBuffer k x).buffer j = if j = k then x else s.buffer j := SMap.get_set _ _ _ _ _
@[simp] theorem State.peal_setPeal (s : State) (k j : Nat) (x : Peal) : (s.setPeal k x).peal j = if j = k then x else s.peal j := SMap.get_set _ _ _ _ _
@[simp] theorem State.chan_setChan (s : State) (k j : Nat) (x : Channel) : (s.setChan k x).chan j = if j = k then x else s.chan j := SMap.get_set _ _ _ _ _
@[simp] theorem State.sport_setSport (s : State) (k j : Nat) (x : SPort) : (s.setSport k x).sport j = if j = k then x else s.sport j := SMap.get_set _ _ _ _ _
@[simp] theorem State.ring_setRing (s : State) (k j : Nat) (x : Ring) : (s.setRing k x).ring j = if j = k then x else s.ring j := SMap.get_set _ _ _ _ _
@[simp] theorem State.sync_setSync (s : State) (k j : Nat) (x : SyncObj) : (s.setSync k x).sync j = if j = k then x else s.sync j := SMap.get_set _ _ _ _ _
@[simp] theorem State.mport_setMport (s : State) (k j : Nat) (x : MPort) : (s.setMport k x).mport j = if j = k then x else s.mport j := SMap.get_set _ _ _ _ _
@[simp] theorem State.target_setTarget (s : State) (k j : Nat) (x : Target) : (s.setTarget k x).target j = if j = k then x else s.target j := SMap.get_set _ _ _ _ _
@[simp] theorem State.region_setRegion (s : State) (k j : Nat) (x : Region) : (s.setRegion k x).region j = if j = k then x else s.region j := SMap.get_set _ _ _ _ _
@[simp] theorem State.seq_setSeq (s : State) (k j : Nat) (x : Memory) : (s.setSeq k x).seq j = if j = k then x else s.seq j := SMap.get_set _ _ _ _ _
@[simp] theorem State.evRing_setEvRing (s : State) (k j : Nat) (x : EvRing) : (s.setEvRing k x).evRing j = if j = k then x else s.evRing j := SMap.get_set _ _ _ _ _
@[simp] theorem State.reg_setReg (s : State) (k j : Nat) (x : Word) : (s.setReg k x).reg j = if j = k then x else s.reg j := by
  unfold State.reg State.setReg
  by_cases h : j = k
  · subst h; exact SMap.get_set _ _ _ _ _
  · rw [if_neg h]; exact State.reg_other s k j x h
@[simp] theorem State.inj_setInj (s : State) (k j : Nat) (x : Inj) : (s.setInj k x).inj j = if j = k then x else s.inj j := SMap.get_set _ _ _ _ _
@[simp] theorem State.core_onCore (s : State) (k j : Nat) (f : Core → Core) : (s.onCore k f).core j = if j = k then f (s.core k) else s.core j :=
  State.core_setCore _ _ _ _
@[simp] theorem State.lc_onLc (s : State) (k j : Nat) (f : LogCore → LogCore) : (s.onLc k f).lc j = if j = k then f (s.lc k) else s.lc j :=
  State.lc_setLc _ _ _ _
@[simp] theorem State.region_onRegion (s : State) (k j : Nat) (f : Region → Region) : (s.onRegion k f).region j = if j = k then f (s.region k) else s.region j :=
  State.region_setRegion _ _ _ _

/-! ### What each update leaves alone -/

@[simp] theorem State.setCore_par (s : State) (n : Nat) (x : Core) : (s.setCore n x).par = s.par := rfl
@[simp] theorem State.setCore_regs (s : State) (n : Nat) (x : Core) : (s.setCore n x).regs = s.regs := rfl
@[simp] theorem State.setCore_tu (s : State) (n : Nat) (x : Core) : (s.setCore n x).tu = s.tu := rfl
@[simp] theorem State.setCore_gong (s : State) (n : Nat) (x : Core) : (s.setCore n x).gong = s.gong := rfl
@[simp] theorem State.setCore_lcs (s : State) (n : Nat) (x : Core) : (s.setCore n x).lcs = s.lcs := rfl
@[simp] theorem State.setCore_st (s : State) (n : Nat) (x : Core) : (s.setCore n x).st = s.st := rfl
@[simp] theorem State.setCore_so (s : State) (n : Nat) (x : Core) : (s.setCore n x).so = s.so := rfl
@[simp] theorem State.setCore_routes (s : State) (n : Nat) (x : Core) : (s.setCore n x).routes = s.routes := rfl
@[simp] theorem State.setCore_seqMem (s : State) (n : Nat) (x : Core) : (s.setCore n x).seqMem = s.seqMem := rfl
@[simp] theorem State.setCore_retain (s : State) (n : Nat) (x : Core) : (s.setCore n x).retain = s.retain := rfl
@[simp] theorem State.setCore_cfg (s : State) (n : Nat) (x : Core) : (s.setCore n x).cfg = s.cfg := rfl
@[simp] theorem State.setCore_mp (s : State) (n : Nat) (x : Core) : (s.setCore n x).mp = s.mp := rfl
@[simp] theorem State.setCore_pwr (s : State) (n : Nat) (x : Core) : (s.setCore n x).pwr = s.pwr := rfl
@[simp] theorem State.setCore_sm (s : State) (n : Nat) (x : Core) : (s.setCore n x).sm = s.sm := rfl
@[simp] theorem State.setCore_boot (s : State) (n : Nat) (x : Core) : (s.setCore n x).boot = s.boot := rfl
@[simp] theorem State.setCore_ev (s : State) (n : Nat) (x : Core) : (s.setCore n x).ev = s.ev := rfl
@[simp] theorem State.setCore_hcp (s : State) (n : Nat) (x : Core) : (s.setCore n x).hcp = s.hcp := rfl
@[simp] theorem State.setCore_pins (s : State) (n : Nat) (x : Core) : (s.setCore n x).pins = s.pins := rfl
@[simp] theorem State.setCore_freeCnt (s : State) (n : Nat) (x : Core) : (s.setCore n x).freeCnt = s.freeCnt := rfl
@[simp] theorem State.setCore_pending (s : State) (n : Nat) (x : Core) : (s.setCore n x).pending = s.pending := rfl
@[simp] theorem State.onCore_par (s : State) (n : Nat) (f : Core → Core) : (s.onCore n f).par = s.par := rfl
@[simp] theorem State.onCore_regs (s : State) (n : Nat) (f : Core → Core) : (s.onCore n f).regs = s.regs := rfl
@[simp] theorem State.onCore_tu (s : State) (n : Nat) (f : Core → Core) : (s.onCore n f).tu = s.tu := rfl
@[simp] theorem State.onCore_gong (s : State) (n : Nat) (f : Core → Core) : (s.onCore n f).gong = s.gong := rfl
@[simp] theorem State.onCore_lcs (s : State) (n : Nat) (f : Core → Core) : (s.onCore n f).lcs = s.lcs := rfl
@[simp] theorem State.onCore_st (s : State) (n : Nat) (f : Core → Core) : (s.onCore n f).st = s.st := rfl
@[simp] theorem State.onCore_so (s : State) (n : Nat) (f : Core → Core) : (s.onCore n f).so = s.so := rfl
@[simp] theorem State.onCore_routes (s : State) (n : Nat) (f : Core → Core) : (s.onCore n f).routes = s.routes := rfl
@[simp] theorem State.onCore_seqMem (s : State) (n : Nat) (f : Core → Core) : (s.onCore n f).seqMem = s.seqMem := rfl
@[simp] theorem State.onCore_retain (s : State) (n : Nat) (f : Core → Core) : (s.onCore n f).retain = s.retain := rfl
@[simp] theorem State.onCore_cfg (s : State) (n : Nat) (f : Core → Core) : (s.onCore n f).cfg = s.cfg := rfl
@[simp] theorem State.onCore_mp (s : State) (n : Nat) (f : Core → Core) : (s.onCore n f).mp = s.mp := rfl
@[simp] theorem State.onCore_pwr (s : State) (n : Nat) (f : Core → Core) : (s.onCore n f).pwr = s.pwr := rfl
@[simp] theorem State.onCore_sm (s : State) (n : Nat) (f : Core → Core) : (s.onCore n f).sm = s.sm := rfl
@[simp] theorem State.onCore_boot (s : State) (n : Nat) (f : Core → Core) : (s.onCore n f).boot = s.boot := rfl
@[simp] theorem State.onCore_ev (s : State) (n : Nat) (f : Core → Core) : (s.onCore n f).ev = s.ev := rfl
@[simp] theorem State.onCore_hcp (s : State) (n : Nat) (f : Core → Core) : (s.onCore n f).hcp = s.hcp := rfl
@[simp] theorem State.onCore_pins (s : State) (n : Nat) (f : Core → Core) : (s.onCore n f).pins = s.pins := rfl
@[simp] theorem State.onCore_freeCnt (s : State) (n : Nat) (f : Core → Core) : (s.onCore n f).freeCnt = s.freeCnt := rfl
@[simp] theorem State.onCore_pending (s : State) (n : Nat) (f : Core → Core) : (s.onCore n f).pending = s.pending := rfl
@[simp] theorem State.setLc_par (s : State) (n : Nat) (x : LogCore) : (s.setLc n x).par = s.par := rfl
@[simp] theorem State.setLc_regs (s : State) (n : Nat) (x : LogCore) : (s.setLc n x).regs = s.regs := rfl
@[simp] theorem State.setLc_tu (s : State) (n : Nat) (x : LogCore) : (s.setLc n x).tu = s.tu := rfl
@[simp] theorem State.setLc_gong (s : State) (n : Nat) (x : LogCore) : (s.setLc n x).gong = s.gong := rfl
@[simp] theorem State.setLc_cores (s : State) (n : Nat) (x : LogCore) : (s.setLc n x).cores = s.cores := rfl
@[simp] theorem State.setLc_st (s : State) (n : Nat) (x : LogCore) : (s.setLc n x).st = s.st := rfl
@[simp] theorem State.setLc_so (s : State) (n : Nat) (x : LogCore) : (s.setLc n x).so = s.so := rfl
@[simp] theorem State.setLc_routes (s : State) (n : Nat) (x : LogCore) : (s.setLc n x).routes = s.routes := rfl
@[simp] theorem State.setLc_seqMem (s : State) (n : Nat) (x : LogCore) : (s.setLc n x).seqMem = s.seqMem := rfl
@[simp] theorem State.setLc_retain (s : State) (n : Nat) (x : LogCore) : (s.setLc n x).retain = s.retain := rfl
@[simp] theorem State.setLc_cfg (s : State) (n : Nat) (x : LogCore) : (s.setLc n x).cfg = s.cfg := rfl
@[simp] theorem State.setLc_mp (s : State) (n : Nat) (x : LogCore) : (s.setLc n x).mp = s.mp := rfl
@[simp] theorem State.setLc_pwr (s : State) (n : Nat) (x : LogCore) : (s.setLc n x).pwr = s.pwr := rfl
@[simp] theorem State.setLc_sm (s : State) (n : Nat) (x : LogCore) : (s.setLc n x).sm = s.sm := rfl
@[simp] theorem State.setLc_boot (s : State) (n : Nat) (x : LogCore) : (s.setLc n x).boot = s.boot := rfl
@[simp] theorem State.setLc_ev (s : State) (n : Nat) (x : LogCore) : (s.setLc n x).ev = s.ev := rfl
@[simp] theorem State.setLc_hcp (s : State) (n : Nat) (x : LogCore) : (s.setLc n x).hcp = s.hcp := rfl
@[simp] theorem State.setLc_pins (s : State) (n : Nat) (x : LogCore) : (s.setLc n x).pins = s.pins := rfl
@[simp] theorem State.setLc_freeCnt (s : State) (n : Nat) (x : LogCore) : (s.setLc n x).freeCnt = s.freeCnt := rfl
@[simp] theorem State.setLc_pending (s : State) (n : Nat) (x : LogCore) : (s.setLc n x).pending = s.pending := rfl
@[simp] theorem State.onLc_par (s : State) (n : Nat) (f : LogCore → LogCore) : (s.onLc n f).par = s.par := rfl
@[simp] theorem State.onLc_regs (s : State) (n : Nat) (f : LogCore → LogCore) : (s.onLc n f).regs = s.regs := rfl
@[simp] theorem State.onLc_tu (s : State) (n : Nat) (f : LogCore → LogCore) : (s.onLc n f).tu = s.tu := rfl
@[simp] theorem State.onLc_gong (s : State) (n : Nat) (f : LogCore → LogCore) : (s.onLc n f).gong = s.gong := rfl
@[simp] theorem State.onLc_cores (s : State) (n : Nat) (f : LogCore → LogCore) : (s.onLc n f).cores = s.cores := rfl
@[simp] theorem State.onLc_st (s : State) (n : Nat) (f : LogCore → LogCore) : (s.onLc n f).st = s.st := rfl
@[simp] theorem State.onLc_so (s : State) (n : Nat) (f : LogCore → LogCore) : (s.onLc n f).so = s.so := rfl
@[simp] theorem State.onLc_routes (s : State) (n : Nat) (f : LogCore → LogCore) : (s.onLc n f).routes = s.routes := rfl
@[simp] theorem State.onLc_seqMem (s : State) (n : Nat) (f : LogCore → LogCore) : (s.onLc n f).seqMem = s.seqMem := rfl
@[simp] theorem State.onLc_retain (s : State) (n : Nat) (f : LogCore → LogCore) : (s.onLc n f).retain = s.retain := rfl
@[simp] theorem State.onLc_cfg (s : State) (n : Nat) (f : LogCore → LogCore) : (s.onLc n f).cfg = s.cfg := rfl
@[simp] theorem State.onLc_mp (s : State) (n : Nat) (f : LogCore → LogCore) : (s.onLc n f).mp = s.mp := rfl
@[simp] theorem State.onLc_pwr (s : State) (n : Nat) (f : LogCore → LogCore) : (s.onLc n f).pwr = s.pwr := rfl
@[simp] theorem State.onLc_sm (s : State) (n : Nat) (f : LogCore → LogCore) : (s.onLc n f).sm = s.sm := rfl
@[simp] theorem State.onLc_boot (s : State) (n : Nat) (f : LogCore → LogCore) : (s.onLc n f).boot = s.boot := rfl
@[simp] theorem State.onLc_ev (s : State) (n : Nat) (f : LogCore → LogCore) : (s.onLc n f).ev = s.ev := rfl
@[simp] theorem State.onLc_hcp (s : State) (n : Nat) (f : LogCore → LogCore) : (s.onLc n f).hcp = s.hcp := rfl
@[simp] theorem State.onLc_pins (s : State) (n : Nat) (f : LogCore → LogCore) : (s.onLc n f).pins = s.pins := rfl
@[simp] theorem State.onLc_freeCnt (s : State) (n : Nat) (f : LogCore → LogCore) : (s.onLc n f).freeCnt = s.freeCnt := rfl
@[simp] theorem State.onLc_pending (s : State) (n : Nat) (f : LogCore → LogCore) : (s.onLc n f).pending = s.pending := rfl
@[simp] theorem State.onCtx_par (s : State) (n : Nat) (c : Ctx) (f : Context → Context) : (s.onCtx n c f).par = s.par := rfl
@[simp] theorem State.onCtx_regs (s : State) (n : Nat) (c : Ctx) (f : Context → Context) : (s.onCtx n c f).regs = s.regs := rfl
@[simp] theorem State.onCtx_tu (s : State) (n : Nat) (c : Ctx) (f : Context → Context) : (s.onCtx n c f).tu = s.tu := rfl
@[simp] theorem State.onCtx_gong (s : State) (n : Nat) (c : Ctx) (f : Context → Context) : (s.onCtx n c f).gong = s.gong := rfl
@[simp] theorem State.onCtx_lcs (s : State) (n : Nat) (c : Ctx) (f : Context → Context) : (s.onCtx n c f).lcs = s.lcs := rfl
@[simp] theorem State.onCtx_st (s : State) (n : Nat) (c : Ctx) (f : Context → Context) : (s.onCtx n c f).st = s.st := rfl
@[simp] theorem State.onCtx_so (s : State) (n : Nat) (c : Ctx) (f : Context → Context) : (s.onCtx n c f).so = s.so := rfl
@[simp] theorem State.onCtx_routes (s : State) (n : Nat) (c : Ctx) (f : Context → Context) : (s.onCtx n c f).routes = s.routes := rfl
@[simp] theorem State.onCtx_seqMem (s : State) (n : Nat) (c : Ctx) (f : Context → Context) : (s.onCtx n c f).seqMem = s.seqMem := rfl
@[simp] theorem State.onCtx_retain (s : State) (n : Nat) (c : Ctx) (f : Context → Context) : (s.onCtx n c f).retain = s.retain := rfl
@[simp] theorem State.onCtx_cfg (s : State) (n : Nat) (c : Ctx) (f : Context → Context) : (s.onCtx n c f).cfg = s.cfg := rfl
@[simp] theorem State.onCtx_mp (s : State) (n : Nat) (c : Ctx) (f : Context → Context) : (s.onCtx n c f).mp = s.mp := rfl
@[simp] theorem State.onCtx_pwr (s : State) (n : Nat) (c : Ctx) (f : Context → Context) : (s.onCtx n c f).pwr = s.pwr := rfl
@[simp] theorem State.onCtx_sm (s : State) (n : Nat) (c : Ctx) (f : Context → Context) : (s.onCtx n c f).sm = s.sm := rfl
@[simp] theorem State.onCtx_boot (s : State) (n : Nat) (c : Ctx) (f : Context → Context) : (s.onCtx n c f).boot = s.boot := rfl
@[simp] theorem State.onCtx_ev (s : State) (n : Nat) (c : Ctx) (f : Context → Context) : (s.onCtx n c f).ev = s.ev := rfl
@[simp] theorem State.onCtx_hcp (s : State) (n : Nat) (c : Ctx) (f : Context → Context) : (s.onCtx n c f).hcp = s.hcp := rfl
@[simp] theorem State.onCtx_pins (s : State) (n : Nat) (c : Ctx) (f : Context → Context) : (s.onCtx n c f).pins = s.pins := rfl
@[simp] theorem State.onCtx_freeCnt (s : State) (n : Nat) (c : Ctx) (f : Context → Context) : (s.onCtx n c f).freeCnt = s.freeCnt := rfl
@[simp] theorem State.onCtx_pending (s : State) (n : Nat) (c : Ctx) (f : Context → Context) : (s.onCtx n c f).pending = s.pending := rfl
@[simp] theorem State.onCnt_par (s : State) (n : Nat) (f : CoreCounters → CoreCounters) : (s.onCnt n f).par = s.par := rfl
@[simp] theorem State.onCnt_regs (s : State) (n : Nat) (f : CoreCounters → CoreCounters) : (s.onCnt n f).regs = s.regs := rfl
@[simp] theorem State.onCnt_tu (s : State) (n : Nat) (f : CoreCounters → CoreCounters) : (s.onCnt n f).tu = s.tu := rfl
@[simp] theorem State.onCnt_gong (s : State) (n : Nat) (f : CoreCounters → CoreCounters) : (s.onCnt n f).gong = s.gong := rfl
@[simp] theorem State.onCnt_lcs (s : State) (n : Nat) (f : CoreCounters → CoreCounters) : (s.onCnt n f).lcs = s.lcs := rfl
@[simp] theorem State.onCnt_st (s : State) (n : Nat) (f : CoreCounters → CoreCounters) : (s.onCnt n f).st = s.st := rfl
@[simp] theorem State.onCnt_so (s : State) (n : Nat) (f : CoreCounters → CoreCounters) : (s.onCnt n f).so = s.so := rfl
@[simp] theorem State.onCnt_routes (s : State) (n : Nat) (f : CoreCounters → CoreCounters) : (s.onCnt n f).routes = s.routes := rfl
@[simp] theorem State.onCnt_seqMem (s : State) (n : Nat) (f : CoreCounters → CoreCounters) : (s.onCnt n f).seqMem = s.seqMem := rfl
@[simp] theorem State.onCnt_retain (s : State) (n : Nat) (f : CoreCounters → CoreCounters) : (s.onCnt n f).retain = s.retain := rfl
@[simp] theorem State.onCnt_cfg (s : State) (n : Nat) (f : CoreCounters → CoreCounters) : (s.onCnt n f).cfg = s.cfg := rfl
@[simp] theorem State.onCnt_mp (s : State) (n : Nat) (f : CoreCounters → CoreCounters) : (s.onCnt n f).mp = s.mp := rfl
@[simp] theorem State.onCnt_pwr (s : State) (n : Nat) (f : CoreCounters → CoreCounters) : (s.onCnt n f).pwr = s.pwr := rfl
@[simp] theorem State.onCnt_sm (s : State) (n : Nat) (f : CoreCounters → CoreCounters) : (s.onCnt n f).sm = s.sm := rfl
@[simp] theorem State.onCnt_boot (s : State) (n : Nat) (f : CoreCounters → CoreCounters) : (s.onCnt n f).boot = s.boot := rfl
@[simp] theorem State.onCnt_ev (s : State) (n : Nat) (f : CoreCounters → CoreCounters) : (s.onCnt n f).ev = s.ev := rfl
@[simp] theorem State.onCnt_hcp (s : State) (n : Nat) (f : CoreCounters → CoreCounters) : (s.onCnt n f).hcp = s.hcp := rfl
@[simp] theorem State.onCnt_pins (s : State) (n : Nat) (f : CoreCounters → CoreCounters) : (s.onCnt n f).pins = s.pins := rfl
@[simp] theorem State.onCnt_freeCnt (s : State) (n : Nat) (f : CoreCounters → CoreCounters) : (s.onCnt n f).freeCnt = s.freeCnt := rfl
@[simp] theorem State.onCnt_pending (s : State) (n : Nat) (f : CoreCounters → CoreCounters) : (s.onCnt n f).pending = s.pending := rfl
@[simp] theorem State.setQueue_par (s : State) (n : Nat) (x : Queue) : (s.setQueue n x).par = s.par := rfl
@[simp] theorem State.setQueue_regs (s : State) (n : Nat) (x : Queue) : (s.setQueue n x).regs = s.regs := rfl
@[simp] theorem State.setQueue_tu (s : State) (n : Nat) (x : Queue) : (s.setQueue n x).tu = s.tu := rfl
@[simp] theorem State.setQueue_gong (s : State) (n : Nat) (x : Queue) : (s.setQueue n x).gong = s.gong := rfl
@[simp] theorem State.setQueue_cores (s : State) (n : Nat) (x : Queue) : (s.setQueue n x).cores = s.cores := rfl
@[simp] theorem State.setQueue_lcs (s : State) (n : Nat) (x : Queue) : (s.setQueue n x).lcs = s.lcs := rfl
@[simp] theorem State.setQueue_so (s : State) (n : Nat) (x : Queue) : (s.setQueue n x).so = s.so := rfl
@[simp] theorem State.setQueue_routes (s : State) (n : Nat) (x : Queue) : (s.setQueue n x).routes = s.routes := rfl
@[simp] theorem State.setQueue_seqMem (s : State) (n : Nat) (x : Queue) : (s.setQueue n x).seqMem = s.seqMem := rfl
@[simp] theorem State.setQueue_retain (s : State) (n : Nat) (x : Queue) : (s.setQueue n x).retain = s.retain := rfl
@[simp] theorem State.setQueue_cfg (s : State) (n : Nat) (x : Queue) : (s.setQueue n x).cfg = s.cfg := rfl
@[simp] theorem State.setQueue_mp (s : State) (n : Nat) (x : Queue) : (s.setQueue n x).mp = s.mp := rfl
@[simp] theorem State.setQueue_pwr (s : State) (n : Nat) (x : Queue) : (s.setQueue n x).pwr = s.pwr := rfl
@[simp] theorem State.setQueue_sm (s : State) (n : Nat) (x : Queue) : (s.setQueue n x).sm = s.sm := rfl
@[simp] theorem State.setQueue_boot (s : State) (n : Nat) (x : Queue) : (s.setQueue n x).boot = s.boot := rfl
@[simp] theorem State.setQueue_ev (s : State) (n : Nat) (x : Queue) : (s.setQueue n x).ev = s.ev := rfl
@[simp] theorem State.setQueue_hcp (s : State) (n : Nat) (x : Queue) : (s.setQueue n x).hcp = s.hcp := rfl
@[simp] theorem State.setQueue_pins (s : State) (n : Nat) (x : Queue) : (s.setQueue n x).pins = s.pins := rfl
@[simp] theorem State.setQueue_freeCnt (s : State) (n : Nat) (x : Queue) : (s.setQueue n x).freeCnt = s.freeCnt := rfl
@[simp] theorem State.setQueue_pending (s : State) (n : Nat) (x : Queue) : (s.setQueue n x).pending = s.pending := rfl
@[simp] theorem State.setPart_par (s : State) (n : Nat) (x : Partition) : (s.setPart n x).par = s.par := rfl
@[simp] theorem State.setPart_regs (s : State) (n : Nat) (x : Partition) : (s.setPart n x).regs = s.regs := rfl
@[simp] theorem State.setPart_tu (s : State) (n : Nat) (x : Partition) : (s.setPart n x).tu = s.tu := rfl
@[simp] theorem State.setPart_gong (s : State) (n : Nat) (x : Partition) : (s.setPart n x).gong = s.gong := rfl
@[simp] theorem State.setPart_cores (s : State) (n : Nat) (x : Partition) : (s.setPart n x).cores = s.cores := rfl
@[simp] theorem State.setPart_lcs (s : State) (n : Nat) (x : Partition) : (s.setPart n x).lcs = s.lcs := rfl
@[simp] theorem State.setPart_so (s : State) (n : Nat) (x : Partition) : (s.setPart n x).so = s.so := rfl
@[simp] theorem State.setPart_routes (s : State) (n : Nat) (x : Partition) : (s.setPart n x).routes = s.routes := rfl
@[simp] theorem State.setPart_seqMem (s : State) (n : Nat) (x : Partition) : (s.setPart n x).seqMem = s.seqMem := rfl
@[simp] theorem State.setPart_retain (s : State) (n : Nat) (x : Partition) : (s.setPart n x).retain = s.retain := rfl
@[simp] theorem State.setPart_cfg (s : State) (n : Nat) (x : Partition) : (s.setPart n x).cfg = s.cfg := rfl
@[simp] theorem State.setPart_mp (s : State) (n : Nat) (x : Partition) : (s.setPart n x).mp = s.mp := rfl
@[simp] theorem State.setPart_pwr (s : State) (n : Nat) (x : Partition) : (s.setPart n x).pwr = s.pwr := rfl
@[simp] theorem State.setPart_sm (s : State) (n : Nat) (x : Partition) : (s.setPart n x).sm = s.sm := rfl
@[simp] theorem State.setPart_boot (s : State) (n : Nat) (x : Partition) : (s.setPart n x).boot = s.boot := rfl
@[simp] theorem State.setPart_ev (s : State) (n : Nat) (x : Partition) : (s.setPart n x).ev = s.ev := rfl
@[simp] theorem State.setPart_hcp (s : State) (n : Nat) (x : Partition) : (s.setPart n x).hcp = s.hcp := rfl
@[simp] theorem State.setPart_pins (s : State) (n : Nat) (x : Partition) : (s.setPart n x).pins = s.pins := rfl
@[simp] theorem State.setPart_freeCnt (s : State) (n : Nat) (x : Partition) : (s.setPart n x).freeCnt = s.freeCnt := rfl
@[simp] theorem State.setPart_pending (s : State) (n : Nat) (x : Partition) : (s.setPart n x).pending = s.pending := rfl
@[simp] theorem State.setBuffer_par (s : State) (n : Nat) (x : Buffer) : (s.setBuffer n x).par = s.par := rfl
@[simp] theorem State.setBuffer_regs (s : State) (n : Nat) (x : Buffer) : (s.setBuffer n x).regs = s.regs := rfl
@[simp] theorem State.setBuffer_tu (s : State) (n : Nat) (x : Buffer) : (s.setBuffer n x).tu = s.tu := rfl
@[simp] theorem State.setBuffer_gong (s : State) (n : Nat) (x : Buffer) : (s.setBuffer n x).gong = s.gong := rfl
@[simp] theorem State.setBuffer_cores (s : State) (n : Nat) (x : Buffer) : (s.setBuffer n x).cores = s.cores := rfl
@[simp] theorem State.setBuffer_lcs (s : State) (n : Nat) (x : Buffer) : (s.setBuffer n x).lcs = s.lcs := rfl
@[simp] theorem State.setBuffer_so (s : State) (n : Nat) (x : Buffer) : (s.setBuffer n x).so = s.so := rfl
@[simp] theorem State.setBuffer_routes (s : State) (n : Nat) (x : Buffer) : (s.setBuffer n x).routes = s.routes := rfl
@[simp] theorem State.setBuffer_seqMem (s : State) (n : Nat) (x : Buffer) : (s.setBuffer n x).seqMem = s.seqMem := rfl
@[simp] theorem State.setBuffer_retain (s : State) (n : Nat) (x : Buffer) : (s.setBuffer n x).retain = s.retain := rfl
@[simp] theorem State.setBuffer_cfg (s : State) (n : Nat) (x : Buffer) : (s.setBuffer n x).cfg = s.cfg := rfl
@[simp] theorem State.setBuffer_mp (s : State) (n : Nat) (x : Buffer) : (s.setBuffer n x).mp = s.mp := rfl
@[simp] theorem State.setBuffer_pwr (s : State) (n : Nat) (x : Buffer) : (s.setBuffer n x).pwr = s.pwr := rfl
@[simp] theorem State.setBuffer_sm (s : State) (n : Nat) (x : Buffer) : (s.setBuffer n x).sm = s.sm := rfl
@[simp] theorem State.setBuffer_boot (s : State) (n : Nat) (x : Buffer) : (s.setBuffer n x).boot = s.boot := rfl
@[simp] theorem State.setBuffer_ev (s : State) (n : Nat) (x : Buffer) : (s.setBuffer n x).ev = s.ev := rfl
@[simp] theorem State.setBuffer_hcp (s : State) (n : Nat) (x : Buffer) : (s.setBuffer n x).hcp = s.hcp := rfl
@[simp] theorem State.setBuffer_pins (s : State) (n : Nat) (x : Buffer) : (s.setBuffer n x).pins = s.pins := rfl
@[simp] theorem State.setBuffer_freeCnt (s : State) (n : Nat) (x : Buffer) : (s.setBuffer n x).freeCnt = s.freeCnt := rfl
@[simp] theorem State.setBuffer_pending (s : State) (n : Nat) (x : Buffer) : (s.setBuffer n x).pending = s.pending := rfl
@[simp] theorem State.setPeal_par (s : State) (n : Nat) (x : Peal) : (s.setPeal n x).par = s.par := rfl
@[simp] theorem State.setPeal_regs (s : State) (n : Nat) (x : Peal) : (s.setPeal n x).regs = s.regs := rfl
@[simp] theorem State.setPeal_tu (s : State) (n : Nat) (x : Peal) : (s.setPeal n x).tu = s.tu := rfl
@[simp] theorem State.setPeal_gong (s : State) (n : Nat) (x : Peal) : (s.setPeal n x).gong = s.gong := rfl
@[simp] theorem State.setPeal_cores (s : State) (n : Nat) (x : Peal) : (s.setPeal n x).cores = s.cores := rfl
@[simp] theorem State.setPeal_lcs (s : State) (n : Nat) (x : Peal) : (s.setPeal n x).lcs = s.lcs := rfl
@[simp] theorem State.setPeal_so (s : State) (n : Nat) (x : Peal) : (s.setPeal n x).so = s.so := rfl
@[simp] theorem State.setPeal_routes (s : State) (n : Nat) (x : Peal) : (s.setPeal n x).routes = s.routes := rfl
@[simp] theorem State.setPeal_seqMem (s : State) (n : Nat) (x : Peal) : (s.setPeal n x).seqMem = s.seqMem := rfl
@[simp] theorem State.setPeal_retain (s : State) (n : Nat) (x : Peal) : (s.setPeal n x).retain = s.retain := rfl
@[simp] theorem State.setPeal_cfg (s : State) (n : Nat) (x : Peal) : (s.setPeal n x).cfg = s.cfg := rfl
@[simp] theorem State.setPeal_mp (s : State) (n : Nat) (x : Peal) : (s.setPeal n x).mp = s.mp := rfl
@[simp] theorem State.setPeal_pwr (s : State) (n : Nat) (x : Peal) : (s.setPeal n x).pwr = s.pwr := rfl
@[simp] theorem State.setPeal_sm (s : State) (n : Nat) (x : Peal) : (s.setPeal n x).sm = s.sm := rfl
@[simp] theorem State.setPeal_boot (s : State) (n : Nat) (x : Peal) : (s.setPeal n x).boot = s.boot := rfl
@[simp] theorem State.setPeal_ev (s : State) (n : Nat) (x : Peal) : (s.setPeal n x).ev = s.ev := rfl
@[simp] theorem State.setPeal_hcp (s : State) (n : Nat) (x : Peal) : (s.setPeal n x).hcp = s.hcp := rfl
@[simp] theorem State.setPeal_pins (s : State) (n : Nat) (x : Peal) : (s.setPeal n x).pins = s.pins := rfl
@[simp] theorem State.setPeal_freeCnt (s : State) (n : Nat) (x : Peal) : (s.setPeal n x).freeCnt = s.freeCnt := rfl
@[simp] theorem State.setPeal_pending (s : State) (n : Nat) (x : Peal) : (s.setPeal n x).pending = s.pending := rfl
@[simp] theorem State.setChan_par (s : State) (n : Nat) (x : Channel) : (s.setChan n x).par = s.par := rfl
@[simp] theorem State.setChan_regs (s : State) (n : Nat) (x : Channel) : (s.setChan n x).regs = s.regs := rfl
@[simp] theorem State.setChan_tu (s : State) (n : Nat) (x : Channel) : (s.setChan n x).tu = s.tu := rfl
@[simp] theorem State.setChan_gong (s : State) (n : Nat) (x : Channel) : (s.setChan n x).gong = s.gong := rfl
@[simp] theorem State.setChan_cores (s : State) (n : Nat) (x : Channel) : (s.setChan n x).cores = s.cores := rfl
@[simp] theorem State.setChan_lcs (s : State) (n : Nat) (x : Channel) : (s.setChan n x).lcs = s.lcs := rfl
@[simp] theorem State.setChan_so (s : State) (n : Nat) (x : Channel) : (s.setChan n x).so = s.so := rfl
@[simp] theorem State.setChan_routes (s : State) (n : Nat) (x : Channel) : (s.setChan n x).routes = s.routes := rfl
@[simp] theorem State.setChan_seqMem (s : State) (n : Nat) (x : Channel) : (s.setChan n x).seqMem = s.seqMem := rfl
@[simp] theorem State.setChan_retain (s : State) (n : Nat) (x : Channel) : (s.setChan n x).retain = s.retain := rfl
@[simp] theorem State.setChan_cfg (s : State) (n : Nat) (x : Channel) : (s.setChan n x).cfg = s.cfg := rfl
@[simp] theorem State.setChan_mp (s : State) (n : Nat) (x : Channel) : (s.setChan n x).mp = s.mp := rfl
@[simp] theorem State.setChan_pwr (s : State) (n : Nat) (x : Channel) : (s.setChan n x).pwr = s.pwr := rfl
@[simp] theorem State.setChan_sm (s : State) (n : Nat) (x : Channel) : (s.setChan n x).sm = s.sm := rfl
@[simp] theorem State.setChan_boot (s : State) (n : Nat) (x : Channel) : (s.setChan n x).boot = s.boot := rfl
@[simp] theorem State.setChan_ev (s : State) (n : Nat) (x : Channel) : (s.setChan n x).ev = s.ev := rfl
@[simp] theorem State.setChan_hcp (s : State) (n : Nat) (x : Channel) : (s.setChan n x).hcp = s.hcp := rfl
@[simp] theorem State.setChan_pins (s : State) (n : Nat) (x : Channel) : (s.setChan n x).pins = s.pins := rfl
@[simp] theorem State.setChan_freeCnt (s : State) (n : Nat) (x : Channel) : (s.setChan n x).freeCnt = s.freeCnt := rfl
@[simp] theorem State.setChan_pending (s : State) (n : Nat) (x : Channel) : (s.setChan n x).pending = s.pending := rfl
@[simp] theorem State.setSport_par (s : State) (n : Nat) (x : SPort) : (s.setSport n x).par = s.par := rfl
@[simp] theorem State.setSport_regs (s : State) (n : Nat) (x : SPort) : (s.setSport n x).regs = s.regs := rfl
@[simp] theorem State.setSport_tu (s : State) (n : Nat) (x : SPort) : (s.setSport n x).tu = s.tu := rfl
@[simp] theorem State.setSport_gong (s : State) (n : Nat) (x : SPort) : (s.setSport n x).gong = s.gong := rfl
@[simp] theorem State.setSport_cores (s : State) (n : Nat) (x : SPort) : (s.setSport n x).cores = s.cores := rfl
@[simp] theorem State.setSport_lcs (s : State) (n : Nat) (x : SPort) : (s.setSport n x).lcs = s.lcs := rfl
@[simp] theorem State.setSport_so (s : State) (n : Nat) (x : SPort) : (s.setSport n x).so = s.so := rfl
@[simp] theorem State.setSport_routes (s : State) (n : Nat) (x : SPort) : (s.setSport n x).routes = s.routes := rfl
@[simp] theorem State.setSport_seqMem (s : State) (n : Nat) (x : SPort) : (s.setSport n x).seqMem = s.seqMem := rfl
@[simp] theorem State.setSport_retain (s : State) (n : Nat) (x : SPort) : (s.setSport n x).retain = s.retain := rfl
@[simp] theorem State.setSport_cfg (s : State) (n : Nat) (x : SPort) : (s.setSport n x).cfg = s.cfg := rfl
@[simp] theorem State.setSport_mp (s : State) (n : Nat) (x : SPort) : (s.setSport n x).mp = s.mp := rfl
@[simp] theorem State.setSport_pwr (s : State) (n : Nat) (x : SPort) : (s.setSport n x).pwr = s.pwr := rfl
@[simp] theorem State.setSport_sm (s : State) (n : Nat) (x : SPort) : (s.setSport n x).sm = s.sm := rfl
@[simp] theorem State.setSport_boot (s : State) (n : Nat) (x : SPort) : (s.setSport n x).boot = s.boot := rfl
@[simp] theorem State.setSport_ev (s : State) (n : Nat) (x : SPort) : (s.setSport n x).ev = s.ev := rfl
@[simp] theorem State.setSport_hcp (s : State) (n : Nat) (x : SPort) : (s.setSport n x).hcp = s.hcp := rfl
@[simp] theorem State.setSport_pins (s : State) (n : Nat) (x : SPort) : (s.setSport n x).pins = s.pins := rfl
@[simp] theorem State.setSport_freeCnt (s : State) (n : Nat) (x : SPort) : (s.setSport n x).freeCnt = s.freeCnt := rfl
@[simp] theorem State.setSport_pending (s : State) (n : Nat) (x : SPort) : (s.setSport n x).pending = s.pending := rfl
@[simp] theorem State.setRing_par (s : State) (n : Nat) (x : Ring) : (s.setRing n x).par = s.par := rfl
@[simp] theorem State.setRing_regs (s : State) (n : Nat) (x : Ring) : (s.setRing n x).regs = s.regs := rfl
@[simp] theorem State.setRing_tu (s : State) (n : Nat) (x : Ring) : (s.setRing n x).tu = s.tu := rfl
@[simp] theorem State.setRing_gong (s : State) (n : Nat) (x : Ring) : (s.setRing n x).gong = s.gong := rfl
@[simp] theorem State.setRing_cores (s : State) (n : Nat) (x : Ring) : (s.setRing n x).cores = s.cores := rfl
@[simp] theorem State.setRing_lcs (s : State) (n : Nat) (x : Ring) : (s.setRing n x).lcs = s.lcs := rfl
@[simp] theorem State.setRing_so (s : State) (n : Nat) (x : Ring) : (s.setRing n x).so = s.so := rfl
@[simp] theorem State.setRing_routes (s : State) (n : Nat) (x : Ring) : (s.setRing n x).routes = s.routes := rfl
@[simp] theorem State.setRing_seqMem (s : State) (n : Nat) (x : Ring) : (s.setRing n x).seqMem = s.seqMem := rfl
@[simp] theorem State.setRing_retain (s : State) (n : Nat) (x : Ring) : (s.setRing n x).retain = s.retain := rfl
@[simp] theorem State.setRing_cfg (s : State) (n : Nat) (x : Ring) : (s.setRing n x).cfg = s.cfg := rfl
@[simp] theorem State.setRing_mp (s : State) (n : Nat) (x : Ring) : (s.setRing n x).mp = s.mp := rfl
@[simp] theorem State.setRing_pwr (s : State) (n : Nat) (x : Ring) : (s.setRing n x).pwr = s.pwr := rfl
@[simp] theorem State.setRing_sm (s : State) (n : Nat) (x : Ring) : (s.setRing n x).sm = s.sm := rfl
@[simp] theorem State.setRing_boot (s : State) (n : Nat) (x : Ring) : (s.setRing n x).boot = s.boot := rfl
@[simp] theorem State.setRing_ev (s : State) (n : Nat) (x : Ring) : (s.setRing n x).ev = s.ev := rfl
@[simp] theorem State.setRing_hcp (s : State) (n : Nat) (x : Ring) : (s.setRing n x).hcp = s.hcp := rfl
@[simp] theorem State.setRing_pins (s : State) (n : Nat) (x : Ring) : (s.setRing n x).pins = s.pins := rfl
@[simp] theorem State.setRing_freeCnt (s : State) (n : Nat) (x : Ring) : (s.setRing n x).freeCnt = s.freeCnt := rfl
@[simp] theorem State.setRing_pending (s : State) (n : Nat) (x : Ring) : (s.setRing n x).pending = s.pending := rfl
@[simp] theorem State.setSync_par (s : State) (n : Nat) (x : SyncObj) : (s.setSync n x).par = s.par := rfl
@[simp] theorem State.setSync_regs (s : State) (n : Nat) (x : SyncObj) : (s.setSync n x).regs = s.regs := rfl
@[simp] theorem State.setSync_tu (s : State) (n : Nat) (x : SyncObj) : (s.setSync n x).tu = s.tu := rfl
@[simp] theorem State.setSync_gong (s : State) (n : Nat) (x : SyncObj) : (s.setSync n x).gong = s.gong := rfl
@[simp] theorem State.setSync_cores (s : State) (n : Nat) (x : SyncObj) : (s.setSync n x).cores = s.cores := rfl
@[simp] theorem State.setSync_lcs (s : State) (n : Nat) (x : SyncObj) : (s.setSync n x).lcs = s.lcs := rfl
@[simp] theorem State.setSync_st (s : State) (n : Nat) (x : SyncObj) : (s.setSync n x).st = s.st := rfl
@[simp] theorem State.setSync_routes (s : State) (n : Nat) (x : SyncObj) : (s.setSync n x).routes = s.routes := rfl
@[simp] theorem State.setSync_seqMem (s : State) (n : Nat) (x : SyncObj) : (s.setSync n x).seqMem = s.seqMem := rfl
@[simp] theorem State.setSync_retain (s : State) (n : Nat) (x : SyncObj) : (s.setSync n x).retain = s.retain := rfl
@[simp] theorem State.setSync_cfg (s : State) (n : Nat) (x : SyncObj) : (s.setSync n x).cfg = s.cfg := rfl
@[simp] theorem State.setSync_mp (s : State) (n : Nat) (x : SyncObj) : (s.setSync n x).mp = s.mp := rfl
@[simp] theorem State.setSync_pwr (s : State) (n : Nat) (x : SyncObj) : (s.setSync n x).pwr = s.pwr := rfl
@[simp] theorem State.setSync_sm (s : State) (n : Nat) (x : SyncObj) : (s.setSync n x).sm = s.sm := rfl
@[simp] theorem State.setSync_boot (s : State) (n : Nat) (x : SyncObj) : (s.setSync n x).boot = s.boot := rfl
@[simp] theorem State.setSync_ev (s : State) (n : Nat) (x : SyncObj) : (s.setSync n x).ev = s.ev := rfl
@[simp] theorem State.setSync_hcp (s : State) (n : Nat) (x : SyncObj) : (s.setSync n x).hcp = s.hcp := rfl
@[simp] theorem State.setSync_pins (s : State) (n : Nat) (x : SyncObj) : (s.setSync n x).pins = s.pins := rfl
@[simp] theorem State.setSync_freeCnt (s : State) (n : Nat) (x : SyncObj) : (s.setSync n x).freeCnt = s.freeCnt := rfl
@[simp] theorem State.setSync_pending (s : State) (n : Nat) (x : SyncObj) : (s.setSync n x).pending = s.pending := rfl
@[simp] theorem State.setRegion_par (s : State) (n : Nat) (x : Region) : (s.setRegion n x).par = s.par := rfl
@[simp] theorem State.setRegion_regs (s : State) (n : Nat) (x : Region) : (s.setRegion n x).regs = s.regs := rfl
@[simp] theorem State.setRegion_tu (s : State) (n : Nat) (x : Region) : (s.setRegion n x).tu = s.tu := rfl
@[simp] theorem State.setRegion_gong (s : State) (n : Nat) (x : Region) : (s.setRegion n x).gong = s.gong := rfl
@[simp] theorem State.setRegion_cores (s : State) (n : Nat) (x : Region) : (s.setRegion n x).cores = s.cores := rfl
@[simp] theorem State.setRegion_lcs (s : State) (n : Nat) (x : Region) : (s.setRegion n x).lcs = s.lcs := rfl
@[simp] theorem State.setRegion_st (s : State) (n : Nat) (x : Region) : (s.setRegion n x).st = s.st := rfl
@[simp] theorem State.setRegion_so (s : State) (n : Nat) (x : Region) : (s.setRegion n x).so = s.so := rfl
@[simp] theorem State.setRegion_routes (s : State) (n : Nat) (x : Region) : (s.setRegion n x).routes = s.routes := rfl
@[simp] theorem State.setRegion_seqMem (s : State) (n : Nat) (x : Region) : (s.setRegion n x).seqMem = s.seqMem := rfl
@[simp] theorem State.setRegion_retain (s : State) (n : Nat) (x : Region) : (s.setRegion n x).retain = s.retain := rfl
@[simp] theorem State.setRegion_cfg (s : State) (n : Nat) (x : Region) : (s.setRegion n x).cfg = s.cfg := rfl
@[simp] theorem State.setRegion_mp (s : State) (n : Nat) (x : Region) : (s.setRegion n x).mp = s.mp := rfl
@[simp] theorem State.setRegion_sm (s : State) (n : Nat) (x : Region) : (s.setRegion n x).sm = s.sm := rfl
@[simp] theorem State.setRegion_boot (s : State) (n : Nat) (x : Region) : (s.setRegion n x).boot = s.boot := rfl
@[simp] theorem State.setRegion_ev (s : State) (n : Nat) (x : Region) : (s.setRegion n x).ev = s.ev := rfl
@[simp] theorem State.setRegion_hcp (s : State) (n : Nat) (x : Region) : (s.setRegion n x).hcp = s.hcp := rfl
@[simp] theorem State.setRegion_pins (s : State) (n : Nat) (x : Region) : (s.setRegion n x).pins = s.pins := rfl
@[simp] theorem State.setRegion_freeCnt (s : State) (n : Nat) (x : Region) : (s.setRegion n x).freeCnt = s.freeCnt := rfl
@[simp] theorem State.setRegion_pending (s : State) (n : Nat) (x : Region) : (s.setRegion n x).pending = s.pending := rfl
@[simp] theorem State.onRegion_par (s : State) (n : Nat) (f : Region → Region) : (s.onRegion n f).par = s.par := rfl
@[simp] theorem State.onRegion_regs (s : State) (n : Nat) (f : Region → Region) : (s.onRegion n f).regs = s.regs := rfl
@[simp] theorem State.onRegion_tu (s : State) (n : Nat) (f : Region → Region) : (s.onRegion n f).tu = s.tu := rfl
@[simp] theorem State.onRegion_gong (s : State) (n : Nat) (f : Region → Region) : (s.onRegion n f).gong = s.gong := rfl
@[simp] theorem State.onRegion_cores (s : State) (n : Nat) (f : Region → Region) : (s.onRegion n f).cores = s.cores := rfl
@[simp] theorem State.onRegion_lcs (s : State) (n : Nat) (f : Region → Region) : (s.onRegion n f).lcs = s.lcs := rfl
@[simp] theorem State.onRegion_st (s : State) (n : Nat) (f : Region → Region) : (s.onRegion n f).st = s.st := rfl
@[simp] theorem State.onRegion_so (s : State) (n : Nat) (f : Region → Region) : (s.onRegion n f).so = s.so := rfl
@[simp] theorem State.onRegion_routes (s : State) (n : Nat) (f : Region → Region) : (s.onRegion n f).routes = s.routes := rfl
@[simp] theorem State.onRegion_seqMem (s : State) (n : Nat) (f : Region → Region) : (s.onRegion n f).seqMem = s.seqMem := rfl
@[simp] theorem State.onRegion_retain (s : State) (n : Nat) (f : Region → Region) : (s.onRegion n f).retain = s.retain := rfl
@[simp] theorem State.onRegion_cfg (s : State) (n : Nat) (f : Region → Region) : (s.onRegion n f).cfg = s.cfg := rfl
@[simp] theorem State.onRegion_mp (s : State) (n : Nat) (f : Region → Region) : (s.onRegion n f).mp = s.mp := rfl
@[simp] theorem State.onRegion_sm (s : State) (n : Nat) (f : Region → Region) : (s.onRegion n f).sm = s.sm := rfl
@[simp] theorem State.onRegion_boot (s : State) (n : Nat) (f : Region → Region) : (s.onRegion n f).boot = s.boot := rfl
@[simp] theorem State.onRegion_ev (s : State) (n : Nat) (f : Region → Region) : (s.onRegion n f).ev = s.ev := rfl
@[simp] theorem State.onRegion_hcp (s : State) (n : Nat) (f : Region → Region) : (s.onRegion n f).hcp = s.hcp := rfl
@[simp] theorem State.onRegion_pins (s : State) (n : Nat) (f : Region → Region) : (s.onRegion n f).pins = s.pins := rfl
@[simp] theorem State.onRegion_freeCnt (s : State) (n : Nat) (f : Region → Region) : (s.onRegion n f).freeCnt = s.freeCnt := rfl
@[simp] theorem State.onRegion_pending (s : State) (n : Nat) (f : Region → Region) : (s.onRegion n f).pending = s.pending := rfl
@[simp] theorem State.setMport_par (s : State) (n : Nat) (x : MPort) : (s.setMport n x).par = s.par := rfl
@[simp] theorem State.setMport_regs (s : State) (n : Nat) (x : MPort) : (s.setMport n x).regs = s.regs := rfl
@[simp] theorem State.setMport_tu (s : State) (n : Nat) (x : MPort) : (s.setMport n x).tu = s.tu := rfl
@[simp] theorem State.setMport_gong (s : State) (n : Nat) (x : MPort) : (s.setMport n x).gong = s.gong := rfl
@[simp] theorem State.setMport_cores (s : State) (n : Nat) (x : MPort) : (s.setMport n x).cores = s.cores := rfl
@[simp] theorem State.setMport_lcs (s : State) (n : Nat) (x : MPort) : (s.setMport n x).lcs = s.lcs := rfl
@[simp] theorem State.setMport_st (s : State) (n : Nat) (x : MPort) : (s.setMport n x).st = s.st := rfl
@[simp] theorem State.setMport_so (s : State) (n : Nat) (x : MPort) : (s.setMport n x).so = s.so := rfl
@[simp] theorem State.setMport_routes (s : State) (n : Nat) (x : MPort) : (s.setMport n x).routes = s.routes := rfl
@[simp] theorem State.setMport_seqMem (s : State) (n : Nat) (x : MPort) : (s.setMport n x).seqMem = s.seqMem := rfl
@[simp] theorem State.setMport_retain (s : State) (n : Nat) (x : MPort) : (s.setMport n x).retain = s.retain := rfl
@[simp] theorem State.setMport_cfg (s : State) (n : Nat) (x : MPort) : (s.setMport n x).cfg = s.cfg := rfl
@[simp] theorem State.setMport_pwr (s : State) (n : Nat) (x : MPort) : (s.setMport n x).pwr = s.pwr := rfl
@[simp] theorem State.setMport_sm (s : State) (n : Nat) (x : MPort) : (s.setMport n x).sm = s.sm := rfl
@[simp] theorem State.setMport_boot (s : State) (n : Nat) (x : MPort) : (s.setMport n x).boot = s.boot := rfl
@[simp] theorem State.setMport_ev (s : State) (n : Nat) (x : MPort) : (s.setMport n x).ev = s.ev := rfl
@[simp] theorem State.setMport_hcp (s : State) (n : Nat) (x : MPort) : (s.setMport n x).hcp = s.hcp := rfl
@[simp] theorem State.setMport_pins (s : State) (n : Nat) (x : MPort) : (s.setMport n x).pins = s.pins := rfl
@[simp] theorem State.setMport_freeCnt (s : State) (n : Nat) (x : MPort) : (s.setMport n x).freeCnt = s.freeCnt := rfl
@[simp] theorem State.setMport_pending (s : State) (n : Nat) (x : MPort) : (s.setMport n x).pending = s.pending := rfl
@[simp] theorem State.setTarget_par (s : State) (n : Nat) (x : Target) : (s.setTarget n x).par = s.par := rfl
@[simp] theorem State.setTarget_regs (s : State) (n : Nat) (x : Target) : (s.setTarget n x).regs = s.regs := rfl
@[simp] theorem State.setTarget_tu (s : State) (n : Nat) (x : Target) : (s.setTarget n x).tu = s.tu := rfl
@[simp] theorem State.setTarget_gong (s : State) (n : Nat) (x : Target) : (s.setTarget n x).gong = s.gong := rfl
@[simp] theorem State.setTarget_cores (s : State) (n : Nat) (x : Target) : (s.setTarget n x).cores = s.cores := rfl
@[simp] theorem State.setTarget_lcs (s : State) (n : Nat) (x : Target) : (s.setTarget n x).lcs = s.lcs := rfl
@[simp] theorem State.setTarget_st (s : State) (n : Nat) (x : Target) : (s.setTarget n x).st = s.st := rfl
@[simp] theorem State.setTarget_so (s : State) (n : Nat) (x : Target) : (s.setTarget n x).so = s.so := rfl
@[simp] theorem State.setTarget_routes (s : State) (n : Nat) (x : Target) : (s.setTarget n x).routes = s.routes := rfl
@[simp] theorem State.setTarget_seqMem (s : State) (n : Nat) (x : Target) : (s.setTarget n x).seqMem = s.seqMem := rfl
@[simp] theorem State.setTarget_retain (s : State) (n : Nat) (x : Target) : (s.setTarget n x).retain = s.retain := rfl
@[simp] theorem State.setTarget_cfg (s : State) (n : Nat) (x : Target) : (s.setTarget n x).cfg = s.cfg := rfl
@[simp] theorem State.setTarget_pwr (s : State) (n : Nat) (x : Target) : (s.setTarget n x).pwr = s.pwr := rfl
@[simp] theorem State.setTarget_sm (s : State) (n : Nat) (x : Target) : (s.setTarget n x).sm = s.sm := rfl
@[simp] theorem State.setTarget_boot (s : State) (n : Nat) (x : Target) : (s.setTarget n x).boot = s.boot := rfl
@[simp] theorem State.setTarget_ev (s : State) (n : Nat) (x : Target) : (s.setTarget n x).ev = s.ev := rfl
@[simp] theorem State.setTarget_hcp (s : State) (n : Nat) (x : Target) : (s.setTarget n x).hcp = s.hcp := rfl
@[simp] theorem State.setTarget_pins (s : State) (n : Nat) (x : Target) : (s.setTarget n x).pins = s.pins := rfl
@[simp] theorem State.setTarget_freeCnt (s : State) (n : Nat) (x : Target) : (s.setTarget n x).freeCnt = s.freeCnt := rfl
@[simp] theorem State.setTarget_pending (s : State) (n : Nat) (x : Target) : (s.setTarget n x).pending = s.pending := rfl
@[simp] theorem State.granted_par (s : State) (off : Nat) : (s.granted off).par = s.par := rfl
@[simp] theorem State.granted_regs (s : State) (off : Nat) : (s.granted off).regs = s.regs := rfl
@[simp] theorem State.granted_tu (s : State) (off : Nat) : (s.granted off).tu = s.tu := rfl
@[simp] theorem State.granted_gong (s : State) (off : Nat) : (s.granted off).gong = s.gong := rfl
@[simp] theorem State.granted_cores (s : State) (off : Nat) : (s.granted off).cores = s.cores := rfl
@[simp] theorem State.granted_lcs (s : State) (off : Nat) : (s.granted off).lcs = s.lcs := rfl
@[simp] theorem State.granted_st (s : State) (off : Nat) : (s.granted off).st = s.st := rfl
@[simp] theorem State.granted_so (s : State) (off : Nat) : (s.granted off).so = s.so := rfl
@[simp] theorem State.granted_routes (s : State) (off : Nat) : (s.granted off).routes = s.routes := rfl
@[simp] theorem State.granted_seqMem (s : State) (off : Nat) : (s.granted off).seqMem = s.seqMem := rfl
@[simp] theorem State.granted_retain (s : State) (off : Nat) : (s.granted off).retain = s.retain := rfl
@[simp] theorem State.granted_cfg (s : State) (off : Nat) : (s.granted off).cfg = s.cfg := rfl
@[simp] theorem State.granted_pwr (s : State) (off : Nat) : (s.granted off).pwr = s.pwr := rfl
@[simp] theorem State.granted_sm (s : State) (off : Nat) : (s.granted off).sm = s.sm := rfl
@[simp] theorem State.granted_boot (s : State) (off : Nat) : (s.granted off).boot = s.boot := rfl
@[simp] theorem State.granted_ev (s : State) (off : Nat) : (s.granted off).ev = s.ev := rfl
@[simp] theorem State.granted_hcp (s : State) (off : Nat) : (s.granted off).hcp = s.hcp := rfl
@[simp] theorem State.granted_pins (s : State) (off : Nat) : (s.granted off).pins = s.pins := rfl
@[simp] theorem State.granted_freeCnt (s : State) (off : Nat) : (s.granted off).freeCnt = s.freeCnt := rfl
@[simp] theorem State.granted_pending (s : State) (off : Nat) : (s.granted off).pending = s.pending := rfl
@[simp] theorem State.grantedTo_par (s : State) (m : Master) (off : Nat) : (s.grantedTo m off).par = s.par := rfl
@[simp] theorem State.grantedTo_regs (s : State) (m : Master) (off : Nat) : (s.grantedTo m off).regs = s.regs := rfl
@[simp] theorem State.grantedTo_tu (s : State) (m : Master) (off : Nat) : (s.grantedTo m off).tu = s.tu := rfl
@[simp] theorem State.grantedTo_gong (s : State) (m : Master) (off : Nat) : (s.grantedTo m off).gong = s.gong := rfl
@[simp] theorem State.grantedTo_cores (s : State) (m : Master) (off : Nat) : (s.grantedTo m off).cores = s.cores := rfl
@[simp] theorem State.grantedTo_lcs (s : State) (m : Master) (off : Nat) : (s.grantedTo m off).lcs = s.lcs := rfl
@[simp] theorem State.grantedTo_st (s : State) (m : Master) (off : Nat) : (s.grantedTo m off).st = s.st := rfl
@[simp] theorem State.grantedTo_so (s : State) (m : Master) (off : Nat) : (s.grantedTo m off).so = s.so := rfl
@[simp] theorem State.grantedTo_routes (s : State) (m : Master) (off : Nat) : (s.grantedTo m off).routes = s.routes := rfl
@[simp] theorem State.grantedTo_seqMem (s : State) (m : Master) (off : Nat) : (s.grantedTo m off).seqMem = s.seqMem := rfl
@[simp] theorem State.grantedTo_retain (s : State) (m : Master) (off : Nat) : (s.grantedTo m off).retain = s.retain := rfl
@[simp] theorem State.grantedTo_cfg (s : State) (m : Master) (off : Nat) : (s.grantedTo m off).cfg = s.cfg := rfl
@[simp] theorem State.grantedTo_pwr (s : State) (m : Master) (off : Nat) : (s.grantedTo m off).pwr = s.pwr := rfl
@[simp] theorem State.grantedTo_sm (s : State) (m : Master) (off : Nat) : (s.grantedTo m off).sm = s.sm := rfl
@[simp] theorem State.grantedTo_boot (s : State) (m : Master) (off : Nat) : (s.grantedTo m off).boot = s.boot := rfl
@[simp] theorem State.grantedTo_ev (s : State) (m : Master) (off : Nat) : (s.grantedTo m off).ev = s.ev := rfl
@[simp] theorem State.grantedTo_hcp (s : State) (m : Master) (off : Nat) : (s.grantedTo m off).hcp = s.hcp := rfl
@[simp] theorem State.grantedTo_pins (s : State) (m : Master) (off : Nat) : (s.grantedTo m off).pins = s.pins := rfl
@[simp] theorem State.grantedTo_freeCnt (s : State) (m : Master) (off : Nat) : (s.grantedTo m off).freeCnt = s.freeCnt := rfl
@[simp] theorem State.grantedTo_pending (s : State) (m : Master) (off : Nat) : (s.grantedTo m off).pending = s.pending := rfl
@[simp] theorem State.setSeq_par (s : State) (n : Nat) (x : Memory) : (s.setSeq n x).par = s.par := rfl
@[simp] theorem State.setSeq_regs (s : State) (n : Nat) (x : Memory) : (s.setSeq n x).regs = s.regs := rfl
@[simp] theorem State.setSeq_tu (s : State) (n : Nat) (x : Memory) : (s.setSeq n x).tu = s.tu := rfl
@[simp] theorem State.setSeq_gong (s : State) (n : Nat) (x : Memory) : (s.setSeq n x).gong = s.gong := rfl
@[simp] theorem State.setSeq_cores (s : State) (n : Nat) (x : Memory) : (s.setSeq n x).cores = s.cores := rfl
@[simp] theorem State.setSeq_lcs (s : State) (n : Nat) (x : Memory) : (s.setSeq n x).lcs = s.lcs := rfl
@[simp] theorem State.setSeq_st (s : State) (n : Nat) (x : Memory) : (s.setSeq n x).st = s.st := rfl
@[simp] theorem State.setSeq_so (s : State) (n : Nat) (x : Memory) : (s.setSeq n x).so = s.so := rfl
@[simp] theorem State.setSeq_routes (s : State) (n : Nat) (x : Memory) : (s.setSeq n x).routes = s.routes := rfl
@[simp] theorem State.setSeq_retain (s : State) (n : Nat) (x : Memory) : (s.setSeq n x).retain = s.retain := rfl
@[simp] theorem State.setSeq_cfg (s : State) (n : Nat) (x : Memory) : (s.setSeq n x).cfg = s.cfg := rfl
@[simp] theorem State.setSeq_mp (s : State) (n : Nat) (x : Memory) : (s.setSeq n x).mp = s.mp := rfl
@[simp] theorem State.setSeq_pwr (s : State) (n : Nat) (x : Memory) : (s.setSeq n x).pwr = s.pwr := rfl
@[simp] theorem State.setSeq_sm (s : State) (n : Nat) (x : Memory) : (s.setSeq n x).sm = s.sm := rfl
@[simp] theorem State.setSeq_boot (s : State) (n : Nat) (x : Memory) : (s.setSeq n x).boot = s.boot := rfl
@[simp] theorem State.setSeq_ev (s : State) (n : Nat) (x : Memory) : (s.setSeq n x).ev = s.ev := rfl
@[simp] theorem State.setSeq_hcp (s : State) (n : Nat) (x : Memory) : (s.setSeq n x).hcp = s.hcp := rfl
@[simp] theorem State.setSeq_pins (s : State) (n : Nat) (x : Memory) : (s.setSeq n x).pins = s.pins := rfl
@[simp] theorem State.setSeq_freeCnt (s : State) (n : Nat) (x : Memory) : (s.setSeq n x).freeCnt = s.freeCnt := rfl
@[simp] theorem State.setSeq_pending (s : State) (n : Nat) (x : Memory) : (s.setSeq n x).pending = s.pending := rfl
@[simp] theorem State.setEvRing_par (s : State) (n : Nat) (x : EvRing) : (s.setEvRing n x).par = s.par := rfl
@[simp] theorem State.setEvRing_regs (s : State) (n : Nat) (x : EvRing) : (s.setEvRing n x).regs = s.regs := rfl
@[simp] theorem State.setEvRing_tu (s : State) (n : Nat) (x : EvRing) : (s.setEvRing n x).tu = s.tu := rfl
@[simp] theorem State.setEvRing_gong (s : State) (n : Nat) (x : EvRing) : (s.setEvRing n x).gong = s.gong := rfl
@[simp] theorem State.setEvRing_cores (s : State) (n : Nat) (x : EvRing) : (s.setEvRing n x).cores = s.cores := rfl
@[simp] theorem State.setEvRing_lcs (s : State) (n : Nat) (x : EvRing) : (s.setEvRing n x).lcs = s.lcs := rfl
@[simp] theorem State.setEvRing_st (s : State) (n : Nat) (x : EvRing) : (s.setEvRing n x).st = s.st := rfl
@[simp] theorem State.setEvRing_so (s : State) (n : Nat) (x : EvRing) : (s.setEvRing n x).so = s.so := rfl
@[simp] theorem State.setEvRing_routes (s : State) (n : Nat) (x : EvRing) : (s.setEvRing n x).routes = s.routes := rfl
@[simp] theorem State.setEvRing_seqMem (s : State) (n : Nat) (x : EvRing) : (s.setEvRing n x).seqMem = s.seqMem := rfl
@[simp] theorem State.setEvRing_retain (s : State) (n : Nat) (x : EvRing) : (s.setEvRing n x).retain = s.retain := rfl
@[simp] theorem State.setEvRing_cfg (s : State) (n : Nat) (x : EvRing) : (s.setEvRing n x).cfg = s.cfg := rfl
@[simp] theorem State.setEvRing_mp (s : State) (n : Nat) (x : EvRing) : (s.setEvRing n x).mp = s.mp := rfl
@[simp] theorem State.setEvRing_pwr (s : State) (n : Nat) (x : EvRing) : (s.setEvRing n x).pwr = s.pwr := rfl
@[simp] theorem State.setEvRing_sm (s : State) (n : Nat) (x : EvRing) : (s.setEvRing n x).sm = s.sm := rfl
@[simp] theorem State.setEvRing_boot (s : State) (n : Nat) (x : EvRing) : (s.setEvRing n x).boot = s.boot := rfl
@[simp] theorem State.setEvRing_hcp (s : State) (n : Nat) (x : EvRing) : (s.setEvRing n x).hcp = s.hcp := rfl
@[simp] theorem State.setEvRing_pins (s : State) (n : Nat) (x : EvRing) : (s.setEvRing n x).pins = s.pins := rfl
@[simp] theorem State.setEvRing_freeCnt (s : State) (n : Nat) (x : EvRing) : (s.setEvRing n x).freeCnt = s.freeCnt := rfl
@[simp] theorem State.setEvRing_pending (s : State) (n : Nat) (x : EvRing) : (s.setEvRing n x).pending = s.pending := rfl
@[simp] theorem State.setReg_par (s : State) (n : Nat) (x : Word) : (s.setReg n x).par = s.par := rfl
@[simp] theorem State.setReg_tu (s : State) (n : Nat) (x : Word) : (s.setReg n x).tu = s.tu := rfl
@[simp] theorem State.setReg_gong (s : State) (n : Nat) (x : Word) : (s.setReg n x).gong = s.gong := rfl
@[simp] theorem State.setReg_cores (s : State) (n : Nat) (x : Word) : (s.setReg n x).cores = s.cores := rfl
@[simp] theorem State.setReg_lcs (s : State) (n : Nat) (x : Word) : (s.setReg n x).lcs = s.lcs := rfl
@[simp] theorem State.setReg_st (s : State) (n : Nat) (x : Word) : (s.setReg n x).st = s.st := rfl
@[simp] theorem State.setReg_so (s : State) (n : Nat) (x : Word) : (s.setReg n x).so = s.so := rfl
@[simp] theorem State.setReg_routes (s : State) (n : Nat) (x : Word) : (s.setReg n x).routes = s.routes := rfl
@[simp] theorem State.setReg_seqMem (s : State) (n : Nat) (x : Word) : (s.setReg n x).seqMem = s.seqMem := rfl
@[simp] theorem State.setReg_retain (s : State) (n : Nat) (x : Word) : (s.setReg n x).retain = s.retain := rfl
@[simp] theorem State.setReg_cfg (s : State) (n : Nat) (x : Word) : (s.setReg n x).cfg = s.cfg := rfl
@[simp] theorem State.setReg_mp (s : State) (n : Nat) (x : Word) : (s.setReg n x).mp = s.mp := rfl
@[simp] theorem State.setReg_pwr (s : State) (n : Nat) (x : Word) : (s.setReg n x).pwr = s.pwr := rfl
@[simp] theorem State.setReg_sm (s : State) (n : Nat) (x : Word) : (s.setReg n x).sm = s.sm := rfl
@[simp] theorem State.setReg_boot (s : State) (n : Nat) (x : Word) : (s.setReg n x).boot = s.boot := rfl
@[simp] theorem State.setReg_ev (s : State) (n : Nat) (x : Word) : (s.setReg n x).ev = s.ev := rfl
@[simp] theorem State.setReg_hcp (s : State) (n : Nat) (x : Word) : (s.setReg n x).hcp = s.hcp := rfl
@[simp] theorem State.setReg_pins (s : State) (n : Nat) (x : Word) : (s.setReg n x).pins = s.pins := rfl
@[simp] theorem State.setReg_freeCnt (s : State) (n : Nat) (x : Word) : (s.setReg n x).freeCnt = s.freeCnt := rfl
@[simp] theorem State.setReg_pending (s : State) (n : Nat) (x : Word) : (s.setReg n x).pending = s.pending := rfl
@[simp] theorem State.report_par (s : State) (r : Report) : (s.report r).par = s.par := rfl
@[simp] theorem State.report_regs (s : State) (r : Report) : (s.report r).regs = s.regs := rfl
@[simp] theorem State.report_tu (s : State) (r : Report) : (s.report r).tu = s.tu := rfl
@[simp] theorem State.report_gong (s : State) (r : Report) : (s.report r).gong = s.gong := rfl
@[simp] theorem State.report_cores (s : State) (r : Report) : (s.report r).cores = s.cores := rfl
@[simp] theorem State.report_lcs (s : State) (r : Report) : (s.report r).lcs = s.lcs := rfl
@[simp] theorem State.report_st (s : State) (r : Report) : (s.report r).st = s.st := rfl
@[simp] theorem State.report_so (s : State) (r : Report) : (s.report r).so = s.so := rfl
@[simp] theorem State.report_routes (s : State) (r : Report) : (s.report r).routes = s.routes := rfl
@[simp] theorem State.report_seqMem (s : State) (r : Report) : (s.report r).seqMem = s.seqMem := rfl
@[simp] theorem State.report_retain (s : State) (r : Report) : (s.report r).retain = s.retain := rfl
@[simp] theorem State.report_cfg (s : State) (r : Report) : (s.report r).cfg = s.cfg := rfl
@[simp] theorem State.report_mp (s : State) (r : Report) : (s.report r).mp = s.mp := rfl
@[simp] theorem State.report_pwr (s : State) (r : Report) : (s.report r).pwr = s.pwr := rfl
@[simp] theorem State.report_boot (s : State) (r : Report) : (s.report r).boot = s.boot := rfl
@[simp] theorem State.report_ev (s : State) (r : Report) : (s.report r).ev = s.ev := rfl
@[simp] theorem State.report_hcp (s : State) (r : Report) : (s.report r).hcp = s.hcp := rfl
@[simp] theorem State.report_pins (s : State) (r : Report) : (s.report r).pins = s.pins := rfl
@[simp] theorem State.report_freeCnt (s : State) (r : Report) : (s.report r).freeCnt = s.freeCnt := rfl
@[simp] theorem State.report_pending (s : State) (r : Report) : (s.report r).pending = s.pending := rfl
@[simp] theorem State.setHist_par (s : State) (n h : Nat) (x : Hist) : (s.setHist n h x).par = s.par := rfl
@[simp] theorem State.setHist_regs (s : State) (n h : Nat) (x : Hist) : (s.setHist n h x).regs = s.regs := rfl
@[simp] theorem State.setHist_tu (s : State) (n h : Nat) (x : Hist) : (s.setHist n h x).tu = s.tu := rfl
@[simp] theorem State.setHist_gong (s : State) (n h : Nat) (x : Hist) : (s.setHist n h x).gong = s.gong := rfl
@[simp] theorem State.setHist_cores (s : State) (n h : Nat) (x : Hist) : (s.setHist n h x).cores = s.cores := rfl
@[simp] theorem State.setHist_st (s : State) (n h : Nat) (x : Hist) : (s.setHist n h x).st = s.st := rfl
@[simp] theorem State.setHist_so (s : State) (n h : Nat) (x : Hist) : (s.setHist n h x).so = s.so := rfl
@[simp] theorem State.setHist_routes (s : State) (n h : Nat) (x : Hist) : (s.setHist n h x).routes = s.routes := rfl
@[simp] theorem State.setHist_seqMem (s : State) (n h : Nat) (x : Hist) : (s.setHist n h x).seqMem = s.seqMem := rfl
@[simp] theorem State.setHist_retain (s : State) (n h : Nat) (x : Hist) : (s.setHist n h x).retain = s.retain := rfl
@[simp] theorem State.setHist_cfg (s : State) (n h : Nat) (x : Hist) : (s.setHist n h x).cfg = s.cfg := rfl
@[simp] theorem State.setHist_mp (s : State) (n h : Nat) (x : Hist) : (s.setHist n h x).mp = s.mp := rfl
@[simp] theorem State.setHist_pwr (s : State) (n h : Nat) (x : Hist) : (s.setHist n h x).pwr = s.pwr := rfl
@[simp] theorem State.setHist_sm (s : State) (n h : Nat) (x : Hist) : (s.setHist n h x).sm = s.sm := rfl
@[simp] theorem State.setHist_boot (s : State) (n h : Nat) (x : Hist) : (s.setHist n h x).boot = s.boot := rfl
@[simp] theorem State.setHist_ev (s : State) (n h : Nat) (x : Hist) : (s.setHist n h x).ev = s.ev := rfl
@[simp] theorem State.setHist_hcp (s : State) (n h : Nat) (x : Hist) : (s.setHist n h x).hcp = s.hcp := rfl
@[simp] theorem State.setHist_pins (s : State) (n h : Nat) (x : Hist) : (s.setHist n h x).pins = s.pins := rfl
@[simp] theorem State.setHist_freeCnt (s : State) (n h : Nat) (x : Hist) : (s.setHist n h x).freeCnt = s.freeCnt := rfl
@[simp] theorem State.setHist_pending (s : State) (n h : Nat) (x : Hist) : (s.setHist n h x).pending = s.pending := rfl
@[simp] theorem State.setInj_par (s : State) (n : Nat) (x : Inj) : (s.setInj n x).par = s.par := rfl
@[simp] theorem State.setInj_regs (s : State) (n : Nat) (x : Inj) : (s.setInj n x).regs = s.regs := rfl
@[simp] theorem State.setInj_tu (s : State) (n : Nat) (x : Inj) : (s.setInj n x).tu = s.tu := rfl
@[simp] theorem State.setInj_gong (s : State) (n : Nat) (x : Inj) : (s.setInj n x).gong = s.gong := rfl
@[simp] theorem State.setInj_cores (s : State) (n : Nat) (x : Inj) : (s.setInj n x).cores = s.cores := rfl
@[simp] theorem State.setInj_lcs (s : State) (n : Nat) (x : Inj) : (s.setInj n x).lcs = s.lcs := rfl
@[simp] theorem State.setInj_st (s : State) (n : Nat) (x : Inj) : (s.setInj n x).st = s.st := rfl
@[simp] theorem State.setInj_so (s : State) (n : Nat) (x : Inj) : (s.setInj n x).so = s.so := rfl
@[simp] theorem State.setInj_routes (s : State) (n : Nat) (x : Inj) : (s.setInj n x).routes = s.routes := rfl
@[simp] theorem State.setInj_seqMem (s : State) (n : Nat) (x : Inj) : (s.setInj n x).seqMem = s.seqMem := rfl
@[simp] theorem State.setInj_retain (s : State) (n : Nat) (x : Inj) : (s.setInj n x).retain = s.retain := rfl
@[simp] theorem State.setInj_cfg (s : State) (n : Nat) (x : Inj) : (s.setInj n x).cfg = s.cfg := rfl
@[simp] theorem State.setInj_mp (s : State) (n : Nat) (x : Inj) : (s.setInj n x).mp = s.mp := rfl
@[simp] theorem State.setInj_pwr (s : State) (n : Nat) (x : Inj) : (s.setInj n x).pwr = s.pwr := rfl
@[simp] theorem State.setInj_boot (s : State) (n : Nat) (x : Inj) : (s.setInj n x).boot = s.boot := rfl
@[simp] theorem State.setInj_ev (s : State) (n : Nat) (x : Inj) : (s.setInj n x).ev = s.ev := rfl
@[simp] theorem State.setInj_hcp (s : State) (n : Nat) (x : Inj) : (s.setInj n x).hcp = s.hcp := rfl
@[simp] theorem State.setInj_pins (s : State) (n : Nat) (x : Inj) : (s.setInj n x).pins = s.pins := rfl
@[simp] theorem State.setInj_freeCnt (s : State) (n : Nat) (x : Inj) : (s.setInj n x).freeCnt = s.freeCnt := rfl
@[simp] theorem State.setInj_pending (s : State) (n : Nat) (x : Inj) : (s.setInj n x).pending = s.pending := rfl
@[simp] theorem State.setPair_par (s : State) (i : PairId) (x : PairLatch) : (s.setPair i x).par = s.par := rfl
@[simp] theorem State.setPair_regs (s : State) (i : PairId) (x : PairLatch) : (s.setPair i x).regs = s.regs := rfl
@[simp] theorem State.setPair_tu (s : State) (i : PairId) (x : PairLatch) : (s.setPair i x).tu = s.tu := rfl
@[simp] theorem State.setPair_gong (s : State) (i : PairId) (x : PairLatch) : (s.setPair i x).gong = s.gong := rfl
@[simp] theorem State.setPair_cores (s : State) (i : PairId) (x : PairLatch) : (s.setPair i x).cores = s.cores := rfl
@[simp] theorem State.setPair_lcs (s : State) (i : PairId) (x : PairLatch) : (s.setPair i x).lcs = s.lcs := rfl
@[simp] theorem State.setPair_st (s : State) (i : PairId) (x : PairLatch) : (s.setPair i x).st = s.st := rfl
@[simp] theorem State.setPair_so (s : State) (i : PairId) (x : PairLatch) : (s.setPair i x).so = s.so := rfl
@[simp] theorem State.setPair_routes (s : State) (i : PairId) (x : PairLatch) : (s.setPair i x).routes = s.routes := rfl
@[simp] theorem State.setPair_seqMem (s : State) (i : PairId) (x : PairLatch) : (s.setPair i x).seqMem = s.seqMem := rfl
@[simp] theorem State.setPair_retain (s : State) (i : PairId) (x : PairLatch) : (s.setPair i x).retain = s.retain := rfl
@[simp] theorem State.setPair_mp (s : State) (i : PairId) (x : PairLatch) : (s.setPair i x).mp = s.mp := rfl
@[simp] theorem State.setPair_pwr (s : State) (i : PairId) (x : PairLatch) : (s.setPair i x).pwr = s.pwr := rfl
@[simp] theorem State.setPair_sm (s : State) (i : PairId) (x : PairLatch) : (s.setPair i x).sm = s.sm := rfl
@[simp] theorem State.setPair_boot (s : State) (i : PairId) (x : PairLatch) : (s.setPair i x).boot = s.boot := rfl
@[simp] theorem State.setPair_ev (s : State) (i : PairId) (x : PairLatch) : (s.setPair i x).ev = s.ev := rfl
@[simp] theorem State.setPair_hcp (s : State) (i : PairId) (x : PairLatch) : (s.setPair i x).hcp = s.hcp := rfl
@[simp] theorem State.setPair_pins (s : State) (i : PairId) (x : PairLatch) : (s.setPair i x).pins = s.pins := rfl
@[simp] theorem State.setPair_freeCnt (s : State) (i : PairId) (x : PairLatch) : (s.setPair i x).freeCnt = s.freeCnt := rfl
@[simp] theorem State.setPair_pending (s : State) (i : PairId) (x : PairLatch) : (s.setPair i x).pending = s.pending := rfl
@[simp] theorem State.respond_par (s : State) (r : Resp) : (s.respond r).par = s.par := rfl
@[simp] theorem State.respond_regs (s : State) (r : Resp) : (s.respond r).regs = s.regs := rfl
@[simp] theorem State.respond_tu (s : State) (r : Resp) : (s.respond r).tu = s.tu := rfl
@[simp] theorem State.respond_gong (s : State) (r : Resp) : (s.respond r).gong = s.gong := rfl
@[simp] theorem State.respond_cores (s : State) (r : Resp) : (s.respond r).cores = s.cores := rfl
@[simp] theorem State.respond_lcs (s : State) (r : Resp) : (s.respond r).lcs = s.lcs := rfl
@[simp] theorem State.respond_st (s : State) (r : Resp) : (s.respond r).st = s.st := rfl
@[simp] theorem State.respond_so (s : State) (r : Resp) : (s.respond r).so = s.so := rfl
@[simp] theorem State.respond_routes (s : State) (r : Resp) : (s.respond r).routes = s.routes := rfl
@[simp] theorem State.respond_seqMem (s : State) (r : Resp) : (s.respond r).seqMem = s.seqMem := rfl
@[simp] theorem State.respond_retain (s : State) (r : Resp) : (s.respond r).retain = s.retain := rfl
@[simp] theorem State.respond_cfg (s : State) (r : Resp) : (s.respond r).cfg = s.cfg := rfl
@[simp] theorem State.respond_mp (s : State) (r : Resp) : (s.respond r).mp = s.mp := rfl
@[simp] theorem State.respond_pwr (s : State) (r : Resp) : (s.respond r).pwr = s.pwr := rfl
@[simp] theorem State.respond_sm (s : State) (r : Resp) : (s.respond r).sm = s.sm := rfl
@[simp] theorem State.respond_boot (s : State) (r : Resp) : (s.respond r).boot = s.boot := rfl
@[simp] theorem State.respond_ev (s : State) (r : Resp) : (s.respond r).ev = s.ev := rfl
@[simp] theorem State.respond_pins (s : State) (r : Resp) : (s.respond r).pins = s.pins := rfl
@[simp] theorem State.respond_freeCnt (s : State) (r : Resp) : (s.respond r).freeCnt = s.freeCnt := rfl
@[simp] theorem State.respond_pending (s : State) (r : Resp) : (s.respond r).pending = s.pending := rfl
@[simp] theorem State.onLcs_par (s : State) (f : LogCore → LogCore) : (s.onLcs f).par = s.par := rfl
@[simp] theorem State.onLcs_regs (s : State) (f : LogCore → LogCore) : (s.onLcs f).regs = s.regs := rfl
@[simp] theorem State.onLcs_tu (s : State) (f : LogCore → LogCore) : (s.onLcs f).tu = s.tu := rfl
@[simp] theorem State.onLcs_gong (s : State) (f : LogCore → LogCore) : (s.onLcs f).gong = s.gong := rfl
@[simp] theorem State.onLcs_cores (s : State) (f : LogCore → LogCore) : (s.onLcs f).cores = s.cores := rfl
@[simp] theorem State.onLcs_st (s : State) (f : LogCore → LogCore) : (s.onLcs f).st = s.st := rfl
@[simp] theorem State.onLcs_so (s : State) (f : LogCore → LogCore) : (s.onLcs f).so = s.so := rfl
@[simp] theorem State.onLcs_routes (s : State) (f : LogCore → LogCore) : (s.onLcs f).routes = s.routes := rfl
@[simp] theorem State.onLcs_seqMem (s : State) (f : LogCore → LogCore) : (s.onLcs f).seqMem = s.seqMem := rfl
@[simp] theorem State.onLcs_retain (s : State) (f : LogCore → LogCore) : (s.onLcs f).retain = s.retain := rfl
@[simp] theorem State.onLcs_cfg (s : State) (f : LogCore → LogCore) : (s.onLcs f).cfg = s.cfg := rfl
@[simp] theorem State.onLcs_mp (s : State) (f : LogCore → LogCore) : (s.onLcs f).mp = s.mp := rfl
@[simp] theorem State.onLcs_pwr (s : State) (f : LogCore → LogCore) : (s.onLcs f).pwr = s.pwr := rfl
@[simp] theorem State.onLcs_sm (s : State) (f : LogCore → LogCore) : (s.onLcs f).sm = s.sm := rfl
@[simp] theorem State.onLcs_boot (s : State) (f : LogCore → LogCore) : (s.onLcs f).boot = s.boot := rfl
@[simp] theorem State.onLcs_ev (s : State) (f : LogCore → LogCore) : (s.onLcs f).ev = s.ev := rfl
@[simp] theorem State.onLcs_hcp (s : State) (f : LogCore → LogCore) : (s.onLcs f).hcp = s.hcp := rfl
@[simp] theorem State.onLcs_pins (s : State) (f : LogCore → LogCore) : (s.onLcs f).pins = s.pins := rfl
@[simp] theorem State.onLcs_freeCnt (s : State) (f : LogCore → LogCore) : (s.onLcs f).freeCnt = s.freeCnt := rfl
@[simp] theorem State.onLcs_pending (s : State) (f : LogCore → LogCore) : (s.onLcs f).pending = s.pending := rfl
@[simp] theorem State.acceptEvent_par (s : State) (r : EvRec) (cap : Nat) : (s.acceptEvent r cap).par = s.par := by unfold State.acceptEvent; split <;> rfl
@[simp] theorem State.acceptEvent_regs (s : State) (r : EvRec) (cap : Nat) : (s.acceptEvent r cap).regs = s.regs := by unfold State.acceptEvent; split <;> rfl
@[simp] theorem State.acceptEvent_tu (s : State) (r : EvRec) (cap : Nat) : (s.acceptEvent r cap).tu = s.tu := by unfold State.acceptEvent; split <;> rfl
@[simp] theorem State.acceptEvent_gong (s : State) (r : EvRec) (cap : Nat) : (s.acceptEvent r cap).gong = s.gong := by unfold State.acceptEvent; split <;> rfl
@[simp] theorem State.acceptEvent_cores (s : State) (r : EvRec) (cap : Nat) : (s.acceptEvent r cap).cores = s.cores := by unfold State.acceptEvent; split <;> rfl
@[simp] theorem State.acceptEvent_lcs (s : State) (r : EvRec) (cap : Nat) : (s.acceptEvent r cap).lcs = s.lcs := by unfold State.acceptEvent; split <;> rfl
@[simp] theorem State.acceptEvent_st (s : State) (r : EvRec) (cap : Nat) : (s.acceptEvent r cap).st = s.st := by unfold State.acceptEvent; split <;> rfl
@[simp] theorem State.acceptEvent_so (s : State) (r : EvRec) (cap : Nat) : (s.acceptEvent r cap).so = s.so := by unfold State.acceptEvent; split <;> rfl
@[simp] theorem State.acceptEvent_routes (s : State) (r : EvRec) (cap : Nat) : (s.acceptEvent r cap).routes = s.routes := by unfold State.acceptEvent; split <;> rfl
@[simp] theorem State.acceptEvent_seqMem (s : State) (r : EvRec) (cap : Nat) : (s.acceptEvent r cap).seqMem = s.seqMem := by unfold State.acceptEvent; split <;> rfl
@[simp] theorem State.acceptEvent_retain (s : State) (r : EvRec) (cap : Nat) : (s.acceptEvent r cap).retain = s.retain := by unfold State.acceptEvent; split <;> rfl
@[simp] theorem State.acceptEvent_cfg (s : State) (r : EvRec) (cap : Nat) : (s.acceptEvent r cap).cfg = s.cfg := by unfold State.acceptEvent; split <;> rfl
@[simp] theorem State.acceptEvent_mp (s : State) (r : EvRec) (cap : Nat) : (s.acceptEvent r cap).mp = s.mp := by unfold State.acceptEvent; split <;> rfl
@[simp] theorem State.acceptEvent_pwr (s : State) (r : EvRec) (cap : Nat) : (s.acceptEvent r cap).pwr = s.pwr := by unfold State.acceptEvent; split <;> rfl
@[simp] theorem State.acceptEvent_sm (s : State) (r : EvRec) (cap : Nat) : (s.acceptEvent r cap).sm = s.sm := by unfold State.acceptEvent; split <;> rfl
@[simp] theorem State.acceptEvent_boot (s : State) (r : EvRec) (cap : Nat) : (s.acceptEvent r cap).boot = s.boot := by unfold State.acceptEvent; split <;> rfl
@[simp] theorem State.acceptEvent_hcp (s : State) (r : EvRec) (cap : Nat) : (s.acceptEvent r cap).hcp = s.hcp := by unfold State.acceptEvent; split <;> rfl
@[simp] theorem State.acceptEvent_pins (s : State) (r : EvRec) (cap : Nat) : (s.acceptEvent r cap).pins = s.pins := by unfold State.acceptEvent; split <;> rfl
@[simp] theorem State.acceptEvent_freeCnt (s : State) (r : EvRec) (cap : Nat) : (s.acceptEvent r cap).freeCnt = s.freeCnt := by unfold State.acceptEvent; split <;> rfl
@[simp] theorem State.acceptEvent_pending (s : State) (r : EvRec) (cap : Nat) : (s.acceptEvent r cap).pending = s.pending := by unfold State.acceptEvent; split <;> rfl
@[simp] theorem State.emitAt_par (s : State) (t : BitVec 56) (cap kind cls unit : Nat) (p : BitVec 112) : (s.emitAt t cap kind cls unit p).par = s.par := State.acceptEvent_par _ _ _
@[simp] theorem State.emitAt_regs (s : State) (t : BitVec 56) (cap kind cls unit : Nat) (p : BitVec 112) : (s.emitAt t cap kind cls unit p).regs = s.regs := State.acceptEvent_regs _ _ _
@[simp] theorem State.emitAt_tu (s : State) (t : BitVec 56) (cap kind cls unit : Nat) (p : BitVec 112) : (s.emitAt t cap kind cls unit p).tu = s.tu := State.acceptEvent_tu _ _ _
@[simp] theorem State.emitAt_gong (s : State) (t : BitVec 56) (cap kind cls unit : Nat) (p : BitVec 112) : (s.emitAt t cap kind cls unit p).gong = s.gong := State.acceptEvent_gong _ _ _
@[simp] theorem State.emitAt_cores (s : State) (t : BitVec 56) (cap kind cls unit : Nat) (p : BitVec 112) : (s.emitAt t cap kind cls unit p).cores = s.cores := State.acceptEvent_cores _ _ _
@[simp] theorem State.emitAt_lcs (s : State) (t : BitVec 56) (cap kind cls unit : Nat) (p : BitVec 112) : (s.emitAt t cap kind cls unit p).lcs = s.lcs := State.acceptEvent_lcs _ _ _
@[simp] theorem State.emitAt_st (s : State) (t : BitVec 56) (cap kind cls unit : Nat) (p : BitVec 112) : (s.emitAt t cap kind cls unit p).st = s.st := State.acceptEvent_st _ _ _
@[simp] theorem State.emitAt_so (s : State) (t : BitVec 56) (cap kind cls unit : Nat) (p : BitVec 112) : (s.emitAt t cap kind cls unit p).so = s.so := State.acceptEvent_so _ _ _
@[simp] theorem State.emitAt_routes (s : State) (t : BitVec 56) (cap kind cls unit : Nat) (p : BitVec 112) : (s.emitAt t cap kind cls unit p).routes = s.routes := State.acceptEvent_routes _ _ _
@[simp] theorem State.emitAt_seqMem (s : State) (t : BitVec 56) (cap kind cls unit : Nat) (p : BitVec 112) : (s.emitAt t cap kind cls unit p).seqMem = s.seqMem := State.acceptEvent_seqMem _ _ _
@[simp] theorem State.emitAt_retain (s : State) (t : BitVec 56) (cap kind cls unit : Nat) (p : BitVec 112) : (s.emitAt t cap kind cls unit p).retain = s.retain := State.acceptEvent_retain _ _ _
@[simp] theorem State.emitAt_cfg (s : State) (t : BitVec 56) (cap kind cls unit : Nat) (p : BitVec 112) : (s.emitAt t cap kind cls unit p).cfg = s.cfg := State.acceptEvent_cfg _ _ _
@[simp] theorem State.emitAt_mp (s : State) (t : BitVec 56) (cap kind cls unit : Nat) (p : BitVec 112) : (s.emitAt t cap kind cls unit p).mp = s.mp := State.acceptEvent_mp _ _ _
@[simp] theorem State.emitAt_pwr (s : State) (t : BitVec 56) (cap kind cls unit : Nat) (p : BitVec 112) : (s.emitAt t cap kind cls unit p).pwr = s.pwr := State.acceptEvent_pwr _ _ _
@[simp] theorem State.emitAt_sm (s : State) (t : BitVec 56) (cap kind cls unit : Nat) (p : BitVec 112) : (s.emitAt t cap kind cls unit p).sm = s.sm := State.acceptEvent_sm _ _ _
@[simp] theorem State.emitAt_boot (s : State) (t : BitVec 56) (cap kind cls unit : Nat) (p : BitVec 112) : (s.emitAt t cap kind cls unit p).boot = s.boot := State.acceptEvent_boot _ _ _
@[simp] theorem State.emitAt_hcp (s : State) (t : BitVec 56) (cap kind cls unit : Nat) (p : BitVec 112) : (s.emitAt t cap kind cls unit p).hcp = s.hcp := State.acceptEvent_hcp _ _ _
@[simp] theorem State.emitAt_pins (s : State) (t : BitVec 56) (cap kind cls unit : Nat) (p : BitVec 112) : (s.emitAt t cap kind cls unit p).pins = s.pins := State.acceptEvent_pins _ _ _
@[simp] theorem State.emitAt_freeCnt (s : State) (t : BitVec 56) (cap kind cls unit : Nat) (p : BitVec 112) : (s.emitAt t cap kind cls unit p).freeCnt = s.freeCnt := State.acceptEvent_freeCnt _ _ _
@[simp] theorem State.emitAt_pending (s : State) (t : BitVec 56) (cap kind cls unit : Nat) (p : BitVec 112) : (s.emitAt t cap kind cls unit p).pending = s.pending := State.acceptEvent_pending _ _ _
@[simp] theorem State.evt_par (s : State) (kind unit : Nat) (fs : List (Nat × Nat × Nat)) : (s.evt kind unit fs).par = s.par := State.emitAt_par _ _ _ _ _ _ _
@[simp] theorem State.evt_regs (s : State) (kind unit : Nat) (fs : List (Nat × Nat × Nat)) : (s.evt kind unit fs).regs = s.regs := State.emitAt_regs _ _ _ _ _ _ _
@[simp] theorem State.evt_tu (s : State) (kind unit : Nat) (fs : List (Nat × Nat × Nat)) : (s.evt kind unit fs).tu = s.tu := State.emitAt_tu _ _ _ _ _ _ _
@[simp] theorem State.evt_gong (s : State) (kind unit : Nat) (fs : List (Nat × Nat × Nat)) : (s.evt kind unit fs).gong = s.gong := State.emitAt_gong _ _ _ _ _ _ _
@[simp] theorem State.evt_cores (s : State) (kind unit : Nat) (fs : List (Nat × Nat × Nat)) : (s.evt kind unit fs).cores = s.cores := State.emitAt_cores _ _ _ _ _ _ _
@[simp] theorem State.evt_lcs (s : State) (kind unit : Nat) (fs : List (Nat × Nat × Nat)) : (s.evt kind unit fs).lcs = s.lcs := State.emitAt_lcs _ _ _ _ _ _ _
@[simp] theorem State.evt_st (s : State) (kind unit : Nat) (fs : List (Nat × Nat × Nat)) : (s.evt kind unit fs).st = s.st := State.emitAt_st _ _ _ _ _ _ _
@[simp] theorem State.evt_so (s : State) (kind unit : Nat) (fs : List (Nat × Nat × Nat)) : (s.evt kind unit fs).so = s.so := State.emitAt_so _ _ _ _ _ _ _
@[simp] theorem State.evt_routes (s : State) (kind unit : Nat) (fs : List (Nat × Nat × Nat)) : (s.evt kind unit fs).routes = s.routes := State.emitAt_routes _ _ _ _ _ _ _
@[simp] theorem State.evt_seqMem (s : State) (kind unit : Nat) (fs : List (Nat × Nat × Nat)) : (s.evt kind unit fs).seqMem = s.seqMem := State.emitAt_seqMem _ _ _ _ _ _ _
@[simp] theorem State.evt_retain (s : State) (kind unit : Nat) (fs : List (Nat × Nat × Nat)) : (s.evt kind unit fs).retain = s.retain := State.emitAt_retain _ _ _ _ _ _ _
@[simp] theorem State.evt_cfg (s : State) (kind unit : Nat) (fs : List (Nat × Nat × Nat)) : (s.evt kind unit fs).cfg = s.cfg := State.emitAt_cfg _ _ _ _ _ _ _
@[simp] theorem State.evt_mp (s : State) (kind unit : Nat) (fs : List (Nat × Nat × Nat)) : (s.evt kind unit fs).mp = s.mp := State.emitAt_mp _ _ _ _ _ _ _
@[simp] theorem State.evt_pwr (s : State) (kind unit : Nat) (fs : List (Nat × Nat × Nat)) : (s.evt kind unit fs).pwr = s.pwr := State.emitAt_pwr _ _ _ _ _ _ _
@[simp] theorem State.evt_sm (s : State) (kind unit : Nat) (fs : List (Nat × Nat × Nat)) : (s.evt kind unit fs).sm = s.sm := State.emitAt_sm _ _ _ _ _ _ _
@[simp] theorem State.evt_boot (s : State) (kind unit : Nat) (fs : List (Nat × Nat × Nat)) : (s.evt kind unit fs).boot = s.boot := State.emitAt_boot _ _ _ _ _ _ _
@[simp] theorem State.evt_hcp (s : State) (kind unit : Nat) (fs : List (Nat × Nat × Nat)) : (s.evt kind unit fs).hcp = s.hcp := State.emitAt_hcp _ _ _ _ _ _ _
@[simp] theorem State.evt_pins (s : State) (kind unit : Nat) (fs : List (Nat × Nat × Nat)) : (s.evt kind unit fs).pins = s.pins := State.emitAt_pins _ _ _ _ _ _ _
@[simp] theorem State.evt_freeCnt (s : State) (kind unit : Nat) (fs : List (Nat × Nat × Nat)) : (s.evt kind unit fs).freeCnt = s.freeCnt := State.emitAt_freeCnt _ _ _ _ _ _ _
@[simp] theorem State.evt_pending (s : State) (kind unit : Nat) (fs : List (Nat × Nat × Nat)) : (s.evt kind unit fs).pending = s.pending := State.emitAt_pending _ _ _ _ _ _ _

end Sys2Proof.Machine
end

