-- ==== Sys2Proof/Laws/Settle.lean ====
section
/-! SUPPORT. What follows every effect (`settle`) touches only the stream unit, the power unit and the event plane, and gives
back the parameters and the queue: one lemma per function it calls. -/

set_option linter.all false

namespace Sys2Proof.Machine

set_option Elab.async false

/-- The state without the parts that what follows an effect may change. -/
def State.body (s : State) : State :=
  { s with st := Streams.reset, pwr := Power.reset Params.hardMacro, ev := Events.reset, par := Params.hardMacro, pending := [] }

theorem body_st (s : State) (x : Streams) : ({ s with st := x } : State).body = s.body := rfl
theorem body_pwr (s : State) (x : Power) : ({ s with pwr := x } : State).body = s.body := rfl
theorem body_ev (s : State) (x : Events) : ({ s with ev := x } : State).body = s.body := rfl
theorem body_pp (s : State) (x : Params) (y : List Instr) : ({ s with par := x, pending := y } : State).body = s.body := rfl

end Sys2Proof.Machine

set_option linter.all false

namespace Sys2Proof.Machine
theorem body_ite (c : Prop) [Decidable c] (a b : State) : (if c then a else b).body = if c then a.body else b.body := by split <;> rfl
theorem body_ite1 {β : Type} (c : Prop) [Decidable c] (a b : State × β) : (if c then a else b).1.body = if c then a.1.body else b.1.body := by split <;> rfl
theorem body_foldl {α : Type} (f : State → α → State) (l : List α) (s : State) (h : ∀ s a, (f s a).body = s.body) : (l.foldl f s).body = s.body := by
  induction l generalizing s with
  | nil => rfl
  | cons a l ih => exact (ih _).trans (h _ _)
theorem body_foldl1 {α β : Type} (f : State × β → α → State × β) (l : List α) (s : State × β) (h : ∀ s a, (f s a).1.body = s.1.body) : (l.foldl f s).1.body = s.1.body := by
  induction l generalizing s with
  | nil => rfl
  | cons a l ih => exact (ih _).trans (h _ _)
theorem body_State_setRegion (x0 : State) (x1 : ℕ) (x2 : Region) : (State.setRegion x0 x1 x2).body = x0.body := by
  unfold State.setRegion
  repeat' first
    | (simp only [body_ite, body_foldl, body_foldl1, body_ite1, implies_true, ite_self, body_st, body_pwr, body_ev, body_pp]; done)
    | with_reducible rfl
    | (simp only [body_ite, body_foldl, body_foldl1, body_ite1, implies_true, ite_self, body_st, body_pwr, body_ev, body_pp])
    | split
    | (refine (body_foldl _ _ _ ?_).trans ?_ <;> try intro _ _)
    | (refine (body_foldl1 _ _ _ ?_).trans ?_ <;> try intro _ _)
theorem body_State_fall (x0 : State) (x1 : ℕ) : (State.fall x0 x1).body = x0.body := by
  unfold State.fall
  repeat' first
    | (simp only [body_ite, body_foldl, body_foldl1, body_ite1, implies_true, ite_self, body_st, body_pwr, body_ev, body_pp, body_State_setRegion]; done)
    | with_reducible rfl
    | (simp only [body_ite, body_foldl, body_foldl1, body_ite1, implies_true, ite_self, body_st, body_pwr, body_ev, body_pp, body_State_setRegion])
    | split
    | (refine (body_foldl _ _ _ ?_).trans ?_ <;> try intro _ _)
    | (refine (body_foldl1 _ _ _ ?_).trans ?_ <;> try intro _ _)
theorem body_State_acceptEvent (x0 : State) (x1 : EvRec) (x2 : ℕ) : (State.acceptEvent x0 x1 x2).body = x0.body := by
  unfold State.acceptEvent
  repeat' first
    | (simp only [body_ite, body_foldl, body_foldl1, body_ite1, implies_true, ite_self, body_st, body_pwr, body_ev, body_pp]; done)
    | with_reducible rfl
    | (simp only [body_ite, body_foldl, body_foldl1, body_ite1, implies_true, ite_self, body_st, body_pwr, body_ev, body_pp])
    | split
    | (refine (body_foldl _ _ _ ?_).trans ?_ <;> try intro _ _)
    | (refine (body_foldl1 _ _ _ ?_).trans ?_ <;> try intro _ _)
theorem body_State_emitAt (x0 : State) (x1 : BitVec 56) (x2 : ℕ) (x3 : ℕ) (x4 : ℕ) (x5 : ℕ) (x6 : BitVec 112) : (State.emitAt x0 x1 x2 x3 x4 x5 x6).body = x0.body := by
  unfold State.emitAt
  repeat' first
    | (simp only [body_ite, body_foldl, body_foldl1, body_ite1, implies_true, ite_self, body_st, body_pwr, body_ev, body_pp, body_State_acceptEvent]; done)
    | with_reducible rfl
    | (simp only [body_ite, body_foldl, body_foldl1, body_ite1, implies_true, ite_self, body_st, body_pwr, body_ev, body_pp, body_State_acceptEvent])
    | split
    | (refine (body_foldl _ _ _ ?_).trans ?_ <;> try intro _ _)
    | (refine (body_foldl1 _ _ _ ?_).trans ?_ <;> try intro _ _)
theorem body_State_emitCap (x0 : State) (x1 : ℕ) (x2 : ℕ) (x3 : ℕ) (x4 : ℕ) (x5 : BitVec 112) : (State.emitCap x0 x1 x2 x3 x4 x5).body = x0.body := by
  unfold State.emitCap
  repeat' first
    | (simp only [body_ite, body_foldl, body_foldl1, body_ite1, implies_true, ite_self, body_st, body_pwr, body_ev, body_pp, body_State_emitAt]; done)
    | with_reducible rfl
    | (simp only [body_ite, body_foldl, body_foldl1, body_ite1, implies_true, ite_self, body_st, body_pwr, body_ev, body_pp, body_State_emitAt])
    | split
    | (refine (body_foldl _ _ _ ?_).trans ?_ <;> try intro _ _)
    | (refine (body_foldl1 _ _ _ ?_).trans ?_ <;> try intro _ _)
theorem body_State_emit (x0 : State) (x1 : ℕ) (x2 : ℕ) (x3 : ℕ) (x4 : BitVec 112) : (State.emit x0 x1 x2 x3 x4).body = x0.body := by
  unfold State.emit
  repeat' first
    | (simp only [body_ite, body_foldl, body_foldl1, body_ite1, implies_true, ite_self, body_st, body_pwr, body_ev, body_pp, body_State_emitCap]; done)
    | with_reducible rfl
    | (simp only [body_ite, body_foldl, body_foldl1, body_ite1, implies_true, ite_self, body_st, body_pwr, body_ev, body_pp, body_State_emitCap])
    | split
    | (refine (body_foldl _ _ _ ?_).trans ?_ <;> try intro _ _)
    | (refine (body_foldl1 _ _ _ ?_).trans ?_ <;> try intro _ _)
theorem body_State_evt (x0 : State) (x1 : ℕ) (x2 : ℕ) (x3 : List (ℕ × ℕ × ℕ)) : (State.evt x0 x1 x2 x3).body = x0.body := by
  unfold State.evt
  repeat' first
    | (simp only [body_ite, body_foldl, body_foldl1, body_ite1, implies_true, ite_self, body_st, body_pwr, body_ev, body_pp, body_State_emit]; done)
    | with_reducible rfl
    | (simp only [body_ite, body_foldl, body_foldl1, body_ite1, implies_true, ite_self, body_st, body_pwr, body_ev, body_pp, body_State_emit])
    | split
    | (refine (body_foldl _ _ _ ?_).trans ?_ <;> try intro _ _)
    | (refine (body_foldl1 _ _ _ ?_).trans ?_ <;> try intro _ _)
theorem body_State_pwrState (x0 : State) (x1 : ℕ) (x2 : ℕ) (x3 : ℕ) (x4 : ℕ) (x5 : ℕ) : (State.pwrState x0 x1 x2 x3 x4 x5).body = x0.body := by
  unfold State.pwrState
  repeat' first
    | (simp only [body_ite, body_foldl, body_foldl1, body_ite1, implies_true, ite_self, body_st, body_pwr, body_ev, body_pp, body_State_evt]; done)
    | with_reducible rfl
    | (simp only [body_ite, body_foldl, body_foldl1, body_ite1, implies_true, ite_self, body_st, body_pwr, body_ev, body_pp, body_State_evt])
    | split
    | (refine (body_foldl _ _ _ ?_).trans ?_ <;> try intro _ _)
    | (refine (body_foldl1 _ _ _ ?_).trans ?_ <;> try intro _ _)
theorem body_State_wakeRegion (x0 : State) (x1 : ℕ) (x2 : ℕ) (x3 : Bool) : (State.wakeRegion x0 x1 x2 x3).1.body = x0.body := by
  unfold State.wakeRegion
  repeat' first
    | (simp only [body_ite, body_foldl, body_foldl1, body_ite1, implies_true, ite_self, body_st, body_pwr, body_ev, body_pp, body_State_pwrState, body_State_setRegion]; done)
    | with_reducible rfl
    | (simp only [body_ite, body_foldl, body_foldl1, body_ite1, implies_true, ite_self, body_st, body_pwr, body_ev, body_pp, body_State_pwrState, body_State_setRegion])
    | split
    | (refine (body_foldl _ _ _ ?_).trans ?_ <;> try intro _ _)
    | (refine (body_foldl1 _ _ _ ?_).trans ?_ <;> try intro _ _)
theorem body_State_recordWake (x0 : State) (x1 : ℕ) (x2 : List ℕ) : (State.recordWake x0 x1 x2).body = x0.body := by
  unfold State.recordWake
  repeat' first
    | (simp only [body_ite, body_foldl, body_foldl1, body_ite1, implies_true, ite_self, body_st, body_pwr, body_ev, body_pp, body_State_evt]; done)
    | with_reducible rfl
    | (simp only [body_ite, body_foldl, body_foldl1, body_ite1, implies_true, ite_self, body_st, body_pwr, body_ev, body_pp, body_State_evt])
    | split
    | (refine (body_foldl _ _ _ ?_).trans ?_ <;> try intro _ _)
    | (refine (body_foldl1 _ _ _ ?_).trans ?_ <;> try intro _ _)
theorem body_State_wake (x0 : State) (x1 : ℕ) (x2 : Bool) (x3 : List ℕ) : (State.wake x0 x1 x2 x3).body = x0.body := by
  unfold State.wake
  repeat' first
    | (simp only [body_ite, body_foldl, body_foldl1, body_ite1, implies_true, ite_self, body_st, body_pwr, body_ev, body_pp, body_State_wakeRegion, body_State_recordWake]; done)
    | with_reducible rfl
    | (simp only [body_ite, body_foldl, body_foldl1, body_ite1, implies_true, ite_self, body_st, body_pwr, body_ev, body_pp, body_State_wakeRegion, body_State_recordWake])
    | split
    | (refine (body_foldl _ _ _ ?_).trans ?_ <;> try intro _ _)
    | (refine (body_foldl1 _ _ _ ?_).trans ?_ <;> try intro _ _)
theorem body_State_voteWakes (x0 : State) : (State.voteWakes x0).body = x0.body := by
  unfold State.voteWakes
  repeat' first
    | (simp only [body_ite, body_foldl, body_foldl1, body_ite1, implies_true, ite_self, body_st, body_pwr, body_ev, body_pp, body_State_wake]; done)
    | with_reducible rfl
    | (simp only [body_ite, body_foldl, body_foldl1, body_ite1, implies_true, ite_self, body_st, body_pwr, body_ev, body_pp, body_State_wake])
    | split
    | (refine (body_foldl _ _ _ ?_).trans ?_ <;> try intro _ _)
    | (refine (body_foldl1 _ _ _ ?_).trans ?_ <;> try intro _ _)
theorem body_State_setSport (x0 : State) (x1 : ℕ) (x2 : SPort) : (State.setSport x0 x1 x2).body = x0.body := by
  unfold State.setSport
  repeat' first
    | (simp only [body_ite, body_foldl, body_foldl1, body_ite1, implies_true, ite_self, body_st, body_pwr, body_ev, body_pp]; done)
    | with_reducible rfl
    | (simp only [body_ite, body_foldl, body_foldl1, body_ite1, implies_true, ite_self, body_st, body_pwr, body_ev, body_pp])
    | split
    | (refine (body_foldl _ _ _ ?_).trans ?_ <;> try intro _ _)
    | (refine (body_foldl1 _ _ _ ?_).trans ?_ <;> try intro _ _)
theorem body_State_streamFault (x0 : State) (x1 : ℕ) (x2 : ℕ) (x3 : ℕ) (x4 : ℕ) (x5 : Word) : (State.streamFault x0 x1 x2 x3 x4 x5).body = x0.body := by
  unfold State.streamFault
  repeat' first
    | (simp only [body_ite, body_foldl, body_foldl1, body_ite1, implies_true, ite_self, body_st, body_pwr, body_ev, body_pp, body_State_evt]; done)
    | with_reducible rfl
    | (simp only [body_ite, body_foldl, body_foldl1, body_ite1, implies_true, ite_self, body_st, body_pwr, body_ev, body_pp, body_State_evt])
    | split
    | (refine (body_foldl _ _ _ ?_).trans ?_ <;> try intro _ _)
    | (refine (body_foldl1 _ _ _ ?_).trans ?_ <;> try intro _ _)
theorem body_State_setQueue (x0 : State) (x1 : ℕ) (x2 : Queue) : (State.setQueue x0 x1 x2).body = x0.body := by
  unfold State.setQueue
  repeat' first
    | (simp only [body_ite, body_foldl, body_foldl1, body_ite1, implies_true, ite_self, body_st, body_pwr, body_ev, body_pp]; done)
    | with_reducible rfl
    | (simp only [body_ite, body_foldl, body_foldl1, body_ite1, implies_true, ite_self, body_st, body_pwr, body_ev, body_pp])
    | split
    | (refine (body_foldl _ _ _ ?_).trans ?_ <;> try intro _ _)
    | (refine (body_foldl1 _ _ _ ?_).trans ?_ <;> try intro _ _)
theorem body_State_reserve (x0 : State) (x1 : ℕ) (x2 : ℕ) : (State.reserve x0 x1 x2).body = x0.body := by
  unfold State.reserve
  repeat' first
    | (simp only [body_ite, body_foldl, body_foldl1, body_ite1, implies_true, ite_self, body_st, body_pwr, body_ev, body_pp, body_State_setQueue]; done)
    | with_reducible rfl
    | (simp only [body_ite, body_foldl, body_foldl1, body_ite1, implies_true, ite_self, body_st, body_pwr, body_ev, body_pp, body_State_setQueue])
    | split
    | (refine (body_foldl _ _ _ ?_).trans ?_ <;> try intro _ _)
    | (refine (body_foldl1 _ _ _ ?_).trans ?_ <;> try intro _ _)
theorem body_State_unreserve (x0 : State) (x1 : List ℕ) : (State.unreserve x0 x1).body = x0.body := by
  unfold State.unreserve
  repeat' first
    | (simp only [body_ite, body_foldl, body_foldl1, body_ite1, implies_true, ite_self, body_st, body_pwr, body_ev, body_pp, body_State_setQueue]; done)
    | with_reducible rfl
    | (simp only [body_ite, body_foldl, body_foldl1, body_ite1, implies_true, ite_self, body_st, body_pwr, body_ev, body_pp, body_State_setQueue])
    | split
    | (refine (body_foldl _ _ _ ?_).trans ?_ <;> try intro _ _)
    | (refine (body_foldl1 _ _ _ ?_).trans ?_ <;> try intro _ _)
theorem body_State_enqueue (x0 : State) (x1 : ℕ) (x2 : Word) (x3 : BitVec 128) (x4 : Option ℕ) (x5 : Bool) : (State.enqueue x0 x1 x2 x3 x4 x5).body = x0.body := by
  unfold State.enqueue
  repeat' first
    | (simp only [body_ite, body_foldl, body_foldl1, body_ite1, implies_true, ite_self, body_st, body_pwr, body_ev, body_pp, body_State_setQueue]; done)
    | with_reducible rfl
    | (simp only [body_ite, body_foldl, body_foldl1, body_ite1, implies_true, ite_self, body_st, body_pwr, body_ev, body_pp, body_State_setQueue])
    | split
    | (refine (body_foldl _ _ _ ?_).trans ?_ <;> try intro _ _)
    | (refine (body_foldl1 _ _ _ ?_).trans ?_ <;> try intro _ _)
theorem body_State_setBuffer (x0 : State) (x1 : ℕ) (x2 : Buffer) : (State.setBuffer x0 x1 x2).body = x0.body := by
  unfold State.setBuffer
  repeat' first
    | (simp only [body_ite, body_foldl, body_foldl1, body_ite1, implies_true, ite_self, body_st, body_pwr, body_ev, body_pp]; done)
    | with_reducible rfl
    | (simp only [body_ite, body_foldl, body_foldl1, body_ite1, implies_true, ite_self, body_st, body_pwr, body_ev, body_pp])
    | split
    | (refine (body_foldl _ _ _ ?_).trans ?_ <;> try intro _ _)
    | (refine (body_foldl1 _ _ _ ?_).trans ?_ <;> try intro _ _)
theorem body_State_owe (x0 : State) (x1 : ℕ) (x2 : ℕ) (x3 : Word) : (State.owe x0 x1 x2 x3).body = x0.body := by
  unfold State.owe
  repeat' first
    | (simp only [body_ite, body_foldl, body_foldl1, body_ite1, implies_true, ite_self, body_st, body_pwr, body_ev, body_pp, body_State_setQueue, body_State_streamFault]; done)
    | with_reducible rfl
    | (simp only [body_ite, body_foldl, body_foldl1, body_ite1, implies_true, ite_self, body_st, body_pwr, body_ev, body_pp, body_State_setQueue, body_State_streamFault])
    | split
    | (refine (body_foldl _ _ _ ?_).trans ?_ <;> try intro _ _)
    | (refine (body_foldl1 _ _ _ ?_).trans ?_ <;> try intro _ _)
theorem body_State_setPart (x0 : State) (x1 : ℕ) (x2 : Partition) : (State.setPart x0 x1 x2).body = x0.body := by
  unfold State.setPart
  repeat' first
    | (simp only [body_ite, body_foldl, body_foldl1, body_ite1, implies_true, ite_self, body_st, body_pwr, body_ev, body_pp]; done)
    | with_reducible rfl
    | (simp only [body_ite, body_foldl, body_foldl1, body_ite1, implies_true, ite_self, body_st, body_pwr, body_ev, body_pp])
    | split
    | (refine (body_foldl _ _ _ ?_).trans ?_ <;> try intro _ _)
    | (refine (body_foldl1 _ _ _ ?_).trans ?_ <;> try intro _ _)
theorem body_State_setRing (x0 : State) (x1 : ℕ) (x2 : Ring) : (State.setRing x0 x1 x2).body = x0.body := by
  unfold State.setRing
  repeat' first
    | (simp only [body_ite, body_foldl, body_foldl1, body_ite1, implies_true, ite_self, body_st, body_pwr, body_ev, body_pp]; done)
    | with_reducible rfl
    | (simp only [body_ite, body_foldl, body_foldl1, body_ite1, implies_true, ite_self, body_st, body_pwr, body_ev, body_pp])
    | split
    | (refine (body_foldl _ _ _ ?_).trans ?_ <;> try intro _ _)
    | (refine (body_foldl1 _ _ _ ?_).trans ?_ <;> try intro _ _)
theorem body_State_ringRelease (x0 : State) (x1 : ℕ) (x2 : ℕ) : (State.ringRelease x0 x1 x2).body = x0.body := by
  unfold State.ringRelease
  repeat' first
    | (simp only [body_ite, body_foldl, body_foldl1, body_ite1, implies_true, ite_self, body_st, body_pwr, body_ev, body_pp, body_State_setRing]; done)
    | with_reducible rfl
    | (simp only [body_ite, body_foldl, body_foldl1, body_ite1, implies_true, ite_self, body_st, body_pwr, body_ev, body_pp, body_State_setRing])
    | split
    | (refine (body_foldl _ _ _ ?_).trans ?_ <;> try intro _ _)
    | (refine (body_foldl1 _ _ _ ?_).trans ?_ <;> try intro _ _)
theorem body_State_freeBuffer (x0 : State) (x1 : ℕ) : (State.freeBuffer x0 x1).body = x0.body := by
  unfold State.freeBuffer
  repeat' first
    | (simp only [body_ite, body_foldl, body_foldl1, body_ite1, implies_true, ite_self, body_st, body_pwr, body_ev, body_pp, body_State_setPart, body_State_ringRelease, body_State_setBuffer]; done)
    | with_reducible rfl
    | (simp only [body_ite, body_foldl, body_foldl1, body_ite1, implies_true, ite_self, body_st, body_pwr, body_ev, body_pp, body_State_setPart, body_State_ringRelease, body_State_setBuffer])
    | split
    | (refine (body_foldl _ _ _ ?_).trans ?_ <;> try intro _ _)
    | (refine (body_foldl1 _ _ _ ?_).trans ?_ <;> try intro _ _)
theorem body_State_dropRef (x0 : State) (x1 : ℕ) : (State.dropRef x0 x1).body = x0.body := by
  unfold State.dropRef
  repeat' first
    | (simp only [body_ite, body_foldl, body_foldl1, body_ite1, implies_true, ite_self, body_st, body_pwr, body_ev, body_pp, body_State_setBuffer, body_State_freeBuffer]; done)
    | with_reducible rfl
    | (simp only [body_ite, body_foldl, body_foldl1, body_ite1, implies_true, ite_self, body_st, body_pwr, body_ev, body_pp, body_State_setBuffer, body_State_freeBuffer])
    | split
    | (refine (body_foldl _ _ _ ?_).trans ?_ <;> try intro _ _)
    | (refine (body_foldl1 _ _ _ ?_).trans ?_ <;> try intro _ _)
theorem body_State_setPeal (x0 : State) (x1 : ℕ) (x2 : Peal) : (State.setPeal x0 x1 x2).body = x0.body := by
  unfold State.setPeal
  repeat' first
    | (simp only [body_ite, body_foldl, body_foldl1, body_ite1, implies_true, ite_self, body_st, body_pwr, body_ev, body_pp]; done)
    | with_reducible rfl
    | (simp only [body_ite, body_foldl, body_foldl1, body_ite1, implies_true, ite_self, body_st, body_pwr, body_ev, body_pp])
    | split
    | (refine (body_foldl _ _ _ ?_).trans ?_ <;> try intro _ _)
    | (refine (body_foldl1 _ _ _ ?_).trans ?_ <;> try intro _ _)
theorem body_State_shedOne (x0 : State) (x1 : ℕ) (x2 : ℕ) : (State.shedOne x0 x1 x2).body = x0.body := by
  unfold State.shedOne
  repeat' first
    | (simp only [body_ite, body_foldl, body_foldl1, body_ite1, implies_true, ite_self, body_st, body_pwr, body_ev, body_pp, body_State_setPeal, body_State_evt]; done)
    | with_reducible rfl
    | (simp only [body_ite, body_foldl, body_foldl1, body_ite1, implies_true, ite_self, body_st, body_pwr, body_ev, body_pp, body_State_setPeal, body_State_evt])
    | split
    | (refine (body_foldl _ _ _ ?_).trans ?_ <;> try intro _ _)
    | (refine (body_foldl1 _ _ _ ?_).trans ?_ <;> try intro _ _)
theorem body_State_push (x0 : State) (x1 : ℕ) (x2 : Word) (x3 : BitVec 128) (x4 : List ℕ) : (State.push x0 x1 x2 x3 x4).body = x0.body := by
  unfold State.push
  repeat' first
    | (simp only [body_ite, body_foldl, body_foldl1, body_ite1, implies_true, ite_self, body_st, body_pwr, body_ev, body_pp, body_State_unreserve, body_State_enqueue, body_State_setBuffer, body_State_owe, body_State_dropRef, body_State_shedOne]; done)
    | with_reducible rfl
    | (simp only [body_ite, body_foldl, body_foldl1, body_ite1, implies_true, ite_self, body_st, body_pwr, body_ev, body_pp, body_State_unreserve, body_State_enqueue, body_State_setBuffer, body_State_owe, body_State_dropRef, body_State_shedOne])
    | split
    | (refine (body_foldl _ _ _ ?_).trans ?_ <;> try intro _ _)
    | (refine (body_foldl1 _ _ _ ?_).trans ?_ <;> try intro _ _)
theorem body_State_sinPush (x0 : State) (x1 : ℕ) (x2 : SinRecv) : (State.sinPush x0 x1 x2).body = x0.body := by
  unfold State.sinPush
  repeat' first
    | (simp only [body_ite, body_foldl, body_foldl1, body_ite1, implies_true, ite_self, body_st, body_pwr, body_ev, body_pp, body_State_setSport, body_State_push]; done)
    | with_reducible rfl
    | (simp only [body_ite, body_foldl, body_foldl1, body_ite1, implies_true, ite_self, body_st, body_pwr, body_ev, body_pp, body_State_setSport, body_State_push])
    | split
    | (refine (body_foldl _ _ _ ?_).trans ?_ <;> try intro _ _)
    | (refine (body_foldl1 _ _ _ ?_).trans ?_ <;> try intro _ _)
theorem body_State_sinGiveUp (x0 : State) (x1 : ℕ) (x2 : SinRecv) (x3 : Bool) : (State.sinGiveUp x0 x1 x2 x3).body = x0.body := by
  unfold State.sinGiveUp
  repeat' first
    | (simp only [body_ite, body_foldl, body_foldl1, body_ite1, implies_true, ite_self, body_st, body_pwr, body_ev, body_pp, body_State_setSport, body_State_streamFault, body_State_unreserve, body_State_dropRef]; done)
    | with_reducible rfl
    | (simp only [body_ite, body_foldl, body_foldl1, body_ite1, implies_true, ite_self, body_st, body_pwr, body_ev, body_pp, body_State_setSport, body_State_streamFault, body_State_unreserve, body_State_dropRef])
    | split
    | (refine (body_foldl _ _ _ ?_).trans ?_ <;> try intro _ _)
    | (refine (body_foldl1 _ _ _ ?_).trans ?_ <;> try intro _ _)
theorem body_State_sinFilled (x0 : State) (x1 : ℕ) (x2 : SinRecv) : (State.sinFilled x0 x1 x2).body = x0.body := by
  unfold State.sinFilled
  repeat' first
    | (simp only [body_ite, body_foldl, body_foldl1, body_ite1, implies_true, ite_self, body_st, body_pwr, body_ev, body_pp, body_State_setSport, body_State_setBuffer]; done)
    | with_reducible rfl
    | (simp only [body_ite, body_foldl, body_foldl1, body_ite1, implies_true, ite_self, body_st, body_pwr, body_ev, body_pp, body_State_setSport, body_State_setBuffer])
    | split
    | (refine (body_foldl _ _ _ ?_).trans ?_ <;> try intro _ _)
    | (refine (body_foldl1 _ _ _ ?_).trans ?_ <;> try intro _ _)
theorem body_State_takeBuffers (x0 : State) (x1 : ℕ) (x2 : ℕ) : (State.takeBuffers x0 x1 x2).1.body = x0.body := by
  unfold State.takeBuffers
  repeat' first
    | (simp only [body_ite, body_foldl, body_foldl1, body_ite1, implies_true, ite_self, body_st, body_pwr, body_ev, body_pp, body_State_setPart, body_State_setBuffer]; done)
    | with_reducible rfl
    | (simp only [body_ite, body_foldl, body_foldl1, body_ite1, implies_true, ite_self, body_st, body_pwr, body_ev, body_pp, body_State_setPart, body_State_setBuffer])
    | split
    | (refine (body_foldl _ _ _ ?_).trans ?_ <;> try intro _ _)
    | (refine (body_foldl1 _ _ _ ?_).trans ?_ <;> try intro _ _)
theorem body_State_sinBeat (x0 : State) (x1 : ℕ) : (State.sinBeat x0 x1).body = x0.body := by
  unfold State.sinBeat
  repeat' first
    | (simp only [body_ite, body_foldl, body_foldl1, body_ite1, implies_true, ite_self, body_st, body_pwr, body_ev, body_pp, body_State_setSport, body_State_streamFault, body_State_reserve, body_State_sinPush, body_State_sinGiveUp, body_State_sinFilled, body_State_takeBuffers]; done)
    | with_reducible rfl
    | (simp only [body_ite, body_foldl, body_foldl1, body_ite1, implies_true, ite_self, body_st, body_pwr, body_ev, body_pp, body_State_setSport, body_State_streamFault, body_State_reserve, body_State_sinPush, body_State_sinGiveUp, body_State_sinFilled, body_State_takeBuffers])
    | split
    | (refine (body_foldl _ _ _ ?_).trans ?_ <;> try intro _ _)
    | (refine (body_foldl1 _ _ _ ?_).trans ?_ <;> try intro _ _)
theorem body_State_sinDrain (x0 x1 : Nat) (x2 : State) : (State.sinDrain x0 x1 x2).body = x2.body := by
  induction x1 generalizing x2 with
  | zero => rfl
  | succ n ih => exact (ih _).trans (body_State_sinBeat _ _)
theorem body_State_sinAgain (x0 : State) (x1 : ℕ) : (State.sinAgain x0 x1).body = x0.body := by
  unfold State.sinAgain
  repeat' first
    | (simp only [body_ite, body_foldl, body_foldl1, body_ite1, implies_true, ite_self, body_st, body_pwr, body_ev, body_pp, body_State_sinPush]; done)
    | with_reducible rfl
    | (simp only [body_ite, body_foldl, body_foldl1, body_ite1, implies_true, ite_self, body_st, body_pwr, body_ev, body_pp, body_State_sinPush])
    | split
    | (refine (body_foldl _ _ _ ?_).trans ?_ <;> try intro _ _)
    | (refine (body_foldl1 _ _ _ ?_).trans ?_ <;> try intro _ _)
theorem body_State_sinPump (x0 : State) : (State.sinPump x0).body = x0.body := by
  unfold State.sinPump
  repeat' first
    | (simp only [body_ite, body_foldl, body_foldl1, body_ite1, implies_true, ite_self, body_st, body_pwr, body_ev, body_pp, body_State_sinDrain, body_State_sinAgain]; done)
    | with_reducible rfl
    | (simp only [body_ite, body_foldl, body_foldl1, body_ite1, implies_true, ite_self, body_st, body_pwr, body_ev, body_pp, body_State_sinDrain, body_State_sinAgain])
    | split
    | (refine (body_foldl _ _ _ ?_).trans ?_ <;> try intro _ _)
    | (refine (body_foldl1 _ _ _ ?_).trans ?_ <;> try intro _ _)
theorem body_settle (x0 : State) (x1 : State) : (settle x0 x1).body = x1.body := by
  unfold settle
  repeat' first
    | (simp only [body_ite, body_foldl, body_foldl1, body_ite1, implies_true, ite_self, body_st, body_pwr, body_ev, body_pp, body_State_fall, body_State_voteWakes, body_State_sinPump]; done)
    | with_reducible rfl
    | (simp only [body_ite, body_foldl, body_foldl1, body_ite1, implies_true, ite_self, body_st, body_pwr, body_ev, body_pp, body_State_fall, body_State_voteWakes, body_State_sinPump])
    | split
    | (refine (body_foldl _ _ _ ?_).trans ?_ <;> try intro _ _)
    | (refine (body_foldl1 _ _ _ ?_).trans ?_ <;> try intro _ _)

/-! ### What follows an effect leaves alone -/

theorem body_eq_regs {a b : State} (h : a.body = b.body) : a.regs = b.regs := by have k := congrArg State.regs h; exact k
theorem body_eq_tu {a b : State} (h : a.body = b.body) : a.tu = b.tu := by have k := congrArg State.tu h; exact k
theorem body_eq_gong {a b : State} (h : a.body = b.body) : a.gong = b.gong := by have k := congrArg State.gong h; exact k
theorem body_eq_cores {a b : State} (h : a.body = b.body) : a.cores = b.cores := by have k := congrArg State.cores h; exact k
theorem body_eq_lcs {a b : State} (h : a.body = b.body) : a.lcs = b.lcs := by have k := congrArg State.lcs h; exact k
theorem body_eq_so {a b : State} (h : a.body = b.body) : a.so = b.so := by have k := congrArg State.so h; exact k
theorem body_eq_routes {a b : State} (h : a.body = b.body) : a.routes = b.routes := by have k := congrArg State.routes h; exact k
theorem body_eq_seqMem {a b : State} (h : a.body = b.body) : a.seqMem = b.seqMem := by have k := congrArg State.seqMem h; exact k
theorem body_eq_retain {a b : State} (h : a.body = b.body) : a.retain = b.retain := by have k := congrArg State.retain h; exact k
theorem body_eq_cfg {a b : State} (h : a.body = b.body) : a.cfg = b.cfg := by have k := congrArg State.cfg h; exact k
theorem body_eq_mp {a b : State} (h : a.body = b.body) : a.mp = b.mp := by have k := congrArg State.mp h; exact k
theorem body_eq_sm {a b : State} (h : a.body = b.body) : a.sm = b.sm := by have k := congrArg State.sm h; exact k
theorem body_eq_boot {a b : State} (h : a.body = b.body) : a.boot = b.boot := by have k := congrArg State.boot h; exact k
theorem body_eq_hcp {a b : State} (h : a.body = b.body) : a.hcp = b.hcp := by have k := congrArg State.hcp h; exact k
theorem body_eq_pins {a b : State} (h : a.body = b.body) : a.pins = b.pins := by have k := congrArg State.pins h; exact k
theorem body_eq_freeCnt {a b : State} (h : a.body = b.body) : a.freeCnt = b.freeCnt := by have k := congrArg State.freeCnt h; exact k
@[simp] theorem settle_regs (s0 s : State) : (settle s0 s).regs = s.regs := body_eq_regs (body_settle s0 s)
@[simp] theorem settle_tu (s0 s : State) : (settle s0 s).tu = s.tu := body_eq_tu (body_settle s0 s)
@[simp] theorem settle_gong (s0 s : State) : (settle s0 s).gong = s.gong := body_eq_gong (body_settle s0 s)
@[simp] theorem settle_cores (s0 s : State) : (settle s0 s).cores = s.cores := body_eq_cores (body_settle s0 s)
@[simp] theorem settle_lcs (s0 s : State) : (settle s0 s).lcs = s.lcs := body_eq_lcs (body_settle s0 s)
@[simp] theorem settle_so (s0 s : State) : (settle s0 s).so = s.so := body_eq_so (body_settle s0 s)
@[simp] theorem settle_routes (s0 s : State) : (settle s0 s).routes = s.routes := body_eq_routes (body_settle s0 s)
@[simp] theorem settle_seqMem (s0 s : State) : (settle s0 s).seqMem = s.seqMem := body_eq_seqMem (body_settle s0 s)
@[simp] theorem settle_retain (s0 s : State) : (settle s0 s).retain = s.retain := body_eq_retain (body_settle s0 s)
@[simp] theorem settle_cfg (s0 s : State) : (settle s0 s).cfg = s.cfg := body_eq_cfg (body_settle s0 s)
@[simp] theorem settle_mp (s0 s : State) : (settle s0 s).mp = s.mp := body_eq_mp (body_settle s0 s)
@[simp] theorem settle_sm (s0 s : State) : (settle s0 s).sm = s.sm := body_eq_sm (body_settle s0 s)
@[simp] theorem settle_boot (s0 s : State) : (settle s0 s).boot = s.boot := body_eq_boot (body_settle s0 s)
@[simp] theorem settle_hcp (s0 s : State) : (settle s0 s).hcp = s.hcp := body_eq_hcp (body_settle s0 s)
@[simp] theorem settle_pins (s0 s : State) : (settle s0 s).pins = s.pins := body_eq_pins (body_settle s0 s)
@[simp] theorem settle_freeCnt (s0 s : State) : (settle s0 s).freeCnt = s.freeCnt := body_eq_freeCnt (body_settle s0 s)
@[simp] theorem settle_par (s0 s : State) : (settle s0 s).par = s0.par := by simp only [settle]
@[simp] theorem settle_pending (s0 s : State) : (settle s0 s).pending = s0.pending := by simp only [settle]

end Sys2Proof.Machine
end

