-- ==== Sys2Proof/Laws/Access.lean ====
section
/-! SUPPORT. What an access on the HCP does by the verdict of the control matrix, once for all rows, and how the readings of the
state pass through what follows an effect. -/

set_option maxRecDepth 4000

namespace Sys2Proof.Machine

set_option Elab.async false

/-- Every access row but those without a value. -/
def valued : Instr → Bool
  | .regionOffAccess _ _ _ | .defaultTargetAccess _ _ _ => false
  | _ => true

theorem valued_of (c : Instr) (h : ∀ m o b, c ≠ .regionOffAccess m o b) (h' : ∀ m o b, c ≠ .defaultTargetAccess m o b) : valued c = true := by
  cases c <;> first | rfl | exact absurd rfl (h _ _ _) | exact absurd rfl (h' _ _ _)

/-- Every row that is an access, but for those without a value, is answered by the control matrix. -/
theorem exec_access (c : Instr) (s : State) (h : (accessAt c).isSome = true) (hn : valued c = true) :
    exec c s = hcpAccess c s := by
  cases c <;> first | exact absurd h Bool.false_ne_true | exact absurd hn Bool.false_ne_true | (unfold exec; rfl)

/-! ### The grant of a free path (R287, R288) -/

/-- Of two writes of one number the later stands. -/
theorem SMap.set_set {α : Type} [DecidableEq α] (m : SMap α) (d : α) (k : Nat) (v w : α) :
    SMap.set (SMap.set m d k v) d k w = SMap.set m d k w := by
  unfold SMap.set
  have a : ∀ l : List (Nat × α), (l.filter (fun e => decide (k < e.1))).filter (fun e => decide (e.1 < k)) = [] := by
    intro l; rw [List.filter_filter, List.filter_eq_nil_iff]; intro e _; simp; omega
  have b : ∀ l : List (Nat × α), (l.filter (fun e => decide (e.1 < k))).filter (fun e => decide (k < e.1)) = [] := by
    intro l; rw [List.filter_filter, List.filter_eq_nil_iff]; intro e _; simp; omega
  have c : ((if v = d then [] else [(k, v)] : List (Nat × α)).filter (fun e => decide (e.1 < k))) = [] := by split <;> simp
  have e : ((if v = d then [] else [(k, v)] : List (Nat × α)).filter (fun e => decide (k < e.1))) = [] := by split <;> simp
  simp only [List.filter_append, a, b, c, e, List.append_nil, List.nil_append, List.filter_filter, Bool.and_self]

theorem State.setTarget_setTarget (s : State) (k : Nat) (x y : Target) : (s.setTarget k x).setTarget k y = s.setTarget k y := by
  unfold State.setTarget; simp only [SMap.set_set]

/-- A port with one request grants it, whatever it granted last. -/
theorem Target.pick_one (t : Target) (a : MAccess) (h : t.waits = [a]) : t.pick = some a.who := by
  have key : ∀ m : Master, a.who = m → t.pick = some m := by
    intro m ha
    unfold Target.pick
    simp only [h, List.any_cons, List.any_nil, ha, Bool.or_false]
    cases t.last with
    | none => cases m <;> first | rfl | simp
    | some l => cases l <;> cases m <;> first | rfl | simp
  exact key _ rfl

/-- The parts of a free path. -/
theorem pathFree_iff (s : State) (off : Nat) : s.pathFree off = true ↔ s.hcp.offers = [] ∧ (s.target (s.portOf .hcp off)).path = none
    ∧ (s.target (s.portOf .hcp off)).waits = [] ∧ s.hcpBursts true < 16 ∧ s.hcpBursts false < 16 := by
  simp [State.pathFree, and_assoc]

@[simp] theorem hcpBursts_hcp (s : State) (x : HcpPort) (w : Bool) : ({ s with hcp := x } : State).hcpBursts w = s.hcpBursts w := rfl
@[simp] theorem portOf_hcp (s : State) (x : HcpPort) (m : Master) (off : Nat) : ({ s with hcp := x } : State).portOf m off = s.portOf m off := rfl
@[simp] theorem target_hcp (s : State) (x : HcpPort) (k : Nat) : ({ s with hcp := x } : State).target k = s.target k := rfl

/-- The only access offered, accepted (R272). -/
theorem acceptOffers_one (c : Instr) (s : State) (off : Nat) (w : Bool) (h : accessAt c = some (off, w)) (hb : s.hcpBursts w < 16) :
    State.acceptOffers 1 { s with hcp := { s.hcp with offers := [c] } } = State.submit { s with hcp := { s.hcp with offers := [] } } .hcp c := by
  simp [State.acceptOffers, h, hb]

/-- An access that reaches an idle target port is granted and tried with the path in hand (R287). -/
theorem submit_free (c : Instr) (s : State) (m : Master) (off : Nat) (w : Bool) (h : accessAt c = some (off, w))
    (hp : (s.target (s.portOf m off)).path = none) (hw : (s.target (s.portOf m off)).waits = []) :
    s.submit m c = (s.setTarget (s.portOf m off) { last := some m, park := some m, smRun := 0
                                                   path := some { who := m, cmd := c, orphan := false }, waits := [] }).tryPath
      (s.portOf m off) true := by
  unfold State.submit
  simp only [h, hw, List.nil_append, List.length_nil, Nat.zero_add]
  simp only [State.arbitrate, State.target_setTarget, if_true, hp, Option.isSome_none, Bool.false_eq_true, if_false]
  rw [Target.pick_one _ { who := m, cmd := c, orphan := false } rfl]
  simp only [State.setTarget_setTarget]
  simp [Target.grant]

/-- An access offered on an idle HCP reaches its idle target port at once. -/
theorem offer_free (c : Instr) (s : State) (off : Nat) (w : Bool) (h : accessAt c = some (off, w)) (hp : s.pathFree off = true) :
    s.offer c = (s.setTarget (s.portOf .hcp off) { last := some .hcp, park := some .hcp, smRun := 0
                                                   path := some { who := .hcp, cmd := c, orphan := false }, waits := [] }).tryPath
      (s.portOf .hcp off) true := by
  obtain ⟨ho, hpn, hw, ht, hf⟩ := (pathFree_iff s off).1 hp
  have hb : s.hcpBursts w < 16 := by cases w <;> assumption
  have hs : ({ s with hcp := { s.hcp with offers := [] } } : State) = s := by
    have : ({ s.hcp with offers := [] } : HcpPort) = s.hcp := by rw [← ho]
    rw [this]
  unfold State.offer
  simp only [ho, List.nil_append, List.length_singleton]
  rw [acceptOffers_one c s off w h hb, hs, submit_free c s .hcp off w h hpn hw]

/-- The state of the paths decides no verdict. -/
theorem verdict_setTarget (s : State) (k : Nat) (x : Target) (m : Master) (off : Nat) : (s.setTarget k x).verdict m off = s.verdict m off := rfl

/-- An access served at once. -/
theorem hcpAccess_serve (c : Instr) (s : State) (off : Nat) (w : Bool) (h : accessAt c = some (off, w))
    (hs : s.serves off = true) (hr : s.accessReserved c = false) : hcpAccess c s = .next (settle s ((s.granted off).serve c)) := by
  simp only [State.serves, Bool.and_eq_true, Bool.not_eq_true', decide_eq_true_eq] at hs
  obtain ⟨⟨hb, hv⟩, hp⟩ := hs
  have hi : s.inReset = false := by
    cases hi : s.inReset with
    | false => rfl
    | true => rw [State.verdict, hi] at hv; cases hv
  simp only [hcpAccess, h, hb, hv, hi, hr, Bool.false_eq_true, if_false, offer_free c s off w h hp]
  congr 2
  unfold State.tryPath
  simp only [State.target_setTarget, if_true, h, verdict_setTarget, hv, Bool.false_eq_true, if_false, State.serveFor, State.freePath,
    State.setTarget_setTarget, State.granted, State.grantedTo]

/-- A served access in terms of what it does and answers. -/
theorem exec_served (c : Instr) (s : State) (off : Nat) (w : Bool) (h : accessAt c = some (off, w)) (hs : s.serves off = true)
    (hr : s.accessReserved c = false) (hn : valued c = true) :
    exec c s = .next (settle s ((applyAccess c (s.granted off)).1.respond (applyAccess c (s.granted off)).2)) := by
  rw [exec_access c s (by rw [h]; rfl) hn, hcpAccess_serve c s off w h hs hr]; rfl

/-- The parts of being served. -/
theorem serves_iff (s : State) (off : Nat) :
    s.serves off = true ↔ s.pwr.blockOff = false ∧ s.verdict .hcp off = .serve ∧ s.pathFree off = true := by
  simp [State.serves, and_assoc]

/-! ### Readings through what follows an effect -/

@[simp] theorem core_settle (s0 s : State) (n : Nat) : (settle s0 s).core n = s.core n := by unfold State.core; rw [settle_cores]
@[simp] theorem lc_settle (s0 s : State) (n : Nat) : (settle s0 s).lc n = s.lc n := by unfold State.lc; rw [settle_lcs]
@[simp] theorem sync_settle (s0 s : State) (n : Nat) : (settle s0 s).sync n = s.sync n := by unfold State.sync; rw [settle_so]
@[simp] theorem mport_settle (s0 s : State) (n : Nat) : (settle s0 s).mport n = s.mport n := by unfold State.mport; rw [settle_mp]
@[simp] theorem seq_settle (s0 s : State) (n : Nat) : (settle s0 s).seq n = s.seq n := by unfold State.seq; rw [settle_seqMem]
@[simp] theorem pair_settle (s0 s : State) (i : PairId) : (settle s0 s).pair i = s.pair i := by
  cases i <;> simp only [State.pair, settle_cfg]
theorem reg_settle (s0 s : State) (h : s.par = s0.par) (n : Nat) : (settle s0 s).reg n = s.reg n := by
  unfold State.reg; rw [settle_regs, settle_par, h]
@[simp] theorem core_respond (s : State) (r : Resp) (n : Nat) : (s.respond r).core n = s.core n := rfl
@[simp] theorem lc_respond (s : State) (r : Resp) (n : Nat) : (s.respond r).lc n = s.lc n := rfl
@[simp] theorem sync_respond (s : State) (r : Resp) (n : Nat) : (s.respond r).sync n = s.sync n := rfl
@[simp] theorem reg_respond (s : State) (r : Resp) (n : Nat) : (s.respond r).reg n = s.reg n := rfl
@[simp] theorem region_respond (s : State) (r : Resp) (n : Nat) : (s.respond r).region n = s.region n := rfl
@[simp] theorem pair_respond (s : State) (r : Resp) (i : PairId) : (s.respond r).pair i = s.pair i := by cases i <;> rfl
@[simp] theorem pair_setPair (s : State) (i j : PairId) (x : PairLatch) :
    (s.setPair i x).pair j = if j = i then x else s.pair j := by
  cases i <;> cases j <;> simp [State.pair, State.setPair, SMap.get_set]

/-! ### Readings through a grant -/

@[simp] theorem core_granted (s : State) (off : Nat) (n : Nat) : (s.granted off).core n = s.core n := rfl
@[simp] theorem lc_granted (s : State) (off : Nat) (n : Nat) : (s.granted off).lc n = s.lc n := rfl
@[simp] theorem sync_granted (s : State) (off : Nat) (n : Nat) : (s.granted off).sync n = s.sync n := rfl
@[simp] theorem reg_granted (s : State) (off : Nat) (n : Nat) : (s.granted off).reg n = s.reg n := rfl
@[simp] theorem region_granted (s : State) (off : Nat) (n : Nat) : (s.granted off).region n = s.region n := rfl
@[simp] theorem queue_granted (s : State) (off : Nat) (n : Nat) : (s.granted off).queue n = s.queue n := rfl
@[simp] theorem part_granted (s : State) (off : Nat) (n : Nat) : (s.granted off).part n = s.part n := rfl
@[simp] theorem seq_granted (s : State) (off : Nat) (n : Nat) : (s.granted off).seq n = s.seq n := rfl
@[simp] theorem mport_granted (s : State) (off : Nat) (n : Nat) : (s.granted off).mport n = s.mport n := rfl
@[simp] theorem evRing_granted (s : State) (off : Nat) (n : Nat) : (s.granted off).evRing n = s.evRing n := rfl
@[simp] theorem inj_granted (s : State) (off : Nat) (n : Nat) : (s.granted off).inj n = s.inj n := rfl
@[simp] theorem hasCore_granted (s : State) (off : Nat) (n : Nat) : (s.granted off).hasCore n = s.hasCore n := rfl
@[simp] theorem hasRegion_granted (s : State) (off : Nat) (n : Nat) : (s.granted off).hasRegion n = s.hasRegion n := rfl
@[simp] theorem hasReg_granted (s : State) (off : Nat) (n : Nat) : (s.granted off).hasReg n = s.hasReg n := rfl
@[simp] theorem rwMask_granted (s : State) (off : Nat) (n : Nat) : (s.granted off).rwMask n = s.rwMask n := rfl
@[simp] theorem fenced_granted (s : State) (off : Nat) (n : Nat) : (s.granted off).fenced n = s.fenced n := rfl
@[simp] theorem incOf_granted (s : State) (off : Nat) (n : Nat) : (s.granted off).incOf n = s.incOf n := rfl
@[simp] theorem groupLive_granted (s : State) (off : Nat) (n : Nat) : (s.granted off).groupLive n = s.groupLive n := rfl
@[simp] theorem hasPair_granted (s : State) (off : Nat) (i : PairId) : (s.granted off).hasPair i = s.hasPair i := by cases i <;> rfl
@[simp] theorem pair_granted (s : State) (off : Nat) (i : PairId) : (s.granted off).pair i = s.pair i := by cases i <;> rfl
@[simp] theorem nowNs_granted (s : State) (off : Nat) : (s.granted off).nowNs = s.nowNs := rfl
@[simp] theorem now_granted (s : State) (off : Nat) : (s.granted off).now = s.now := rfl
@[simp] theorem slotCount_granted (s : State) (off : Nat) : (s.granted off).slotCount = s.slotCount := rfl
@[simp] theorem alignNs_granted (s : State) (off : Nat) : (s.granted off).alignNs = s.alignNs := rfl
@[simp] theorem imgAddr_granted (s : State) (off : Nat) : (s.granted off).imgAddr = s.imgAddr := rfl

/-! ### What a served access does, row by row -/

@[simp] theorem applied_gongEnable (s : State) : applyAccess .gongEnable s = (s.gongOn, .ok) := rfl
@[simp] theorem applied_gongDisable (s : State) : applyAccess .gongDisable s = (s.gongOff, .ok) := rfl
@[simp] theorem applied_gongModeWrite (m : Bool) (s : State) : applyAccess (.gongModeWrite m) s = (s.setGongMode m, .ok) := rfl
@[simp] theorem applied_gongTypeOvrArm (t : BitVec 4) (s : State) : applyAccess (.gongTypeOvrArm t) s = (s.overrideArm t.toNat, .ok) := rfl
@[simp] theorem applied_clrCnt (s : State) : applyAccess .clrCnt s = (s.clrCnt, .ok) := rfl
@[simp] theorem applied_clrMin (s : State) : applyAccess .clrMin s = (s.clrMin, .ok) := rfl
@[simp] theorem applied_pairHalfWrite (p : PairId) (h : Half) (v : Word) (s : State) : applyAccess (.pairHalfWrite p h v) s = (if s.hasPair p then s.pairWrite p h v.toNat else s, .ok) := rfl
@[simp] theorem applied_registerWrite (off : Nat) (v : DWord) (strb : BitVec 8) (s : State) : applyAccess (.registerWrite off v strb) s = s.regWrite off v strb := rfl
@[simp] theorem applied_trfPartWrite (pc : Nat) (p : Bool) (s : State) : applyAccess (.trfPartWrite pc p) s = (if s.hasCore pc then s.partWrite pc p else s, .ok) := rfl
@[simp] theorem applied_trfCntClr (pc : Nat) (s : State) : applyAccess (.trfCntClr pc) s = (if s.hasCore pc then s.trfCntClr pc else s, .ok) := rfl
@[simp] theorem applied_fabCntClr (pc : Nat) (s : State) : applyAccess (.fabCntClr pc) s = (if s.hasCore pc then s.fabCntClr pc else s, .ok) := rfl
@[simp] theorem applied_routeTableWrite (off : Nat) (v : DWord) (strb : BitVec 8) (s : State) : applyAccess (.routeTableWrite off v strb) s = s.tableWrite (off % 0x400000 / 8) v strb := rfl
@[simp] theorem applied_shadowDirWrite (off : Nat) (v : DWord) (strb : BitVec 8) (s : State) : applyAccess (.shadowDirWrite off v strb) s = (s.shadowWrite (off % 0x8000 / 8) v strb, .ok) := rfl
@[simp] theorem applied_routeUpdArm (s : State) : applyAccess .routeUpdArm s = (s.updArm, .ok) := rfl
@[simp] theorem applied_routeUpdDrop (s : State) : applyAccess .routeUpdDrop s = (s.updDrop, .ok) := rfl
@[simp] theorem applied_soCountWrite (n : Nat) (v : Word) (strb : BitVec 4) (s : State) : applyAccess (.soCountWrite n v strb) s = s.soWrite (n % 32768) false v strb := rfl
@[simp] theorem applied_soAddWrite (n : Nat) (v : Word) (strb : BitVec 4) (s : State) : applyAccess (.soAddWrite n v strb) s = s.soWrite (n % 32768) true v strb := rfl
@[simp] theorem applied_cvtLfsrWrite (pc : Nat) (v : Word) (s : State) : applyAccess (.cvtLfsrWrite pc v) s = (if s.hasCore pc then s.lfsrWrite pc v else s, .ok) := rfl
@[simp] theorem applied_cvtCntClr (pc : Nat) (s : State) : applyAccess (.cvtCntClr pc) s = (if s.hasCore pc then s.cvtCntClr pc else s, .ok) := rfl
@[simp] theorem applied_histClr (lc : Nat) (h : Nat) (s : State) : applyAccess (.histClr lc h) s = (s.histClr (lc % 16) (h % 16), .ok) := rfl
@[simp] theorem applied_poolWindowRead (off : Nat) (n : Nat) (s : State) : applyAccess (.poolWindowRead off n) s = (s.poolRead (off % 0x1000000 / 8 * 8) n, .ok) := rfl
@[simp] theorem applied_poolWindowWrite (off : Nat) (bs : List HcpBeat) (s : State) : applyAccess (.poolWindowWrite off bs) s = (s.poolWrite (off % 0x1000000 / 8 * 8) bs, .ok) := rfl
@[simp] theorem applied_streamCntClr (s : State) : applyAccess .streamCntClr s = (s.streamCntClr, .ok) := rfl
@[simp] theorem applied_stallCntClr (pc : Nat) (s : State) : applyAccess (.stallCntClr pc) s = (if s.hasCore pc then s.stallCntClr pc else s, .ok) := rfl
@[simp] theorem applied_load (s : State) : applyAccess .load s = (s.load, .ok) := rfl
@[simp] theorem applied_abort (s : State) : applyAccess .abort s = (s.loadAbort, .ok) := rfl
@[simp] theorem applied_commit (s : State) : applyAccess .commit s = (s.commitReq, .ok) := rfl
@[simp] theorem applied_restore (s : State) : applyAccess .restore s = (s.restoreReq, .ok) := rfl
@[simp] theorem applied_drop (s : State) : applyAccess .drop s = (s.loadDrop, .ok) := rfl
@[simp] theorem applied_pairDrop (s : State) : applyAccess .pairDrop s = (s.pairDrop, .ok) := rfl
@[simp] theorem applied_cfgKeyLock (s : State) : applyAccess .cfgKeyLock s = (s.lockKey, .ok) := rfl
@[simp] theorem applied_setCtrlGo (s : State) : applyAccess .setCtrlGo s = (s.setGo, .ok) := rfl
@[simp] theorem applied_rateNomWrite (v : DWord) (s : State) : applyAccess (.rateNomWrite v) s = (s.rateNomWrite v, .ok) := rfl
@[simp] theorem applied_tlbInvAll (s : State) : applyAccess .tlbInvAll s = (s.tlbClear, .ok) := rfl
@[simp] theorem applied_xlpPasidWrite (p : BitVec 20) (en : Bool) (s : State) : applyAccess (.xlpPasidWrite p en) s = (s.pasidWrite p en, .ok) := rfl
@[simp] theorem applied_rgnVoteSet (g : Nat) (v : BitVec 16) (s : State) : applyAccess (.rgnVoteSet g v) s = (if s.hasRegion (g % 8) then s.voteSet (g % 8) v else s, .ok) := rfl
@[simp] theorem applied_rgnVoteClr (g : Nat) (v : BitVec 16) (s : State) : applyAccess (.rgnVoteClr g v) s = (if s.hasRegion (g % 8) then s.voteClr (g % 8) v else s, .ok) := rfl
@[simp] theorem applied_lastWakeAck (s : State) : applyAccess .lastWakeAck s = (s.wakeAck, .ok) := rfl
@[simp] theorem applied_blockOff (s : State) : applyAccess .blockOff s = (s.goOff, .ok) := rfl
@[simp] theorem applied_railReqGo (mv : BitVec 10) (s : State) : applyAccess (.railReqGo mv) s = ((s.putLow 0x20028 0x3FF (mv.setWidth 32)).railGo mv.toNat, .ok) := rfl
@[simp] theorem applied_knellReqGo (pc : BitVec 5) (s : State) : applyAccess (.knellReqGo pc) s = ((s.putLow 0x30040 0x1F (pc.setWidth 32)).knell pc.toNat 0xF, .ok) := rfl
@[simp] theorem applied_injArm (d : Nat) (v : Word) (s : State) : applyAccess (.injArm d v) s = (s.injArm (d % 16) v, .ok) := rfl
@[simp] theorem applied_diagGo (pc : BitVec 5) (s : State) : applyAccess (.diagGo pc) s = ((s.putLow 0x30048 0x1F (pc.setWidth 32)).diagGo pc.toNat, .ok) := rfl
@[simp] theorem applied_unknell (pc : BitVec 5) (s : State) : applyAccess (.unknell pc) s = ((s.putLow 0x30050 0x1F (pc.setWidth 32)).unknellReq pc.toNat, .ok) := rfl
@[simp] theorem applied_fetch (s : State) : applyAccess .fetch s = (s.fetchSet, .ok) := rfl
@[simp] theorem applied_restart (s : State) : applyAccess .restart s = (s.restart, .ok) := rfl
@[simp] theorem applied_fscClr (s : State) : applyAccess .fscClr s = (s.fscClr, .ok) := rfl
@[simp] theorem applied_monBist (c : BitVec 18) (sp : Bool) (ct : Bool) (s : State) : applyAccess (.monBist c sp ct) s = ((s.monPut 1).monBist c sp ct, .ok) := rfl
@[simp] theorem applied_monReadRetention (a : Word) (s : State) : applyAccess (.monReadRetention a) s = (((s.monPut 2).setReg 0x80034 a).monRead a, .ok) := rfl
@[simp] theorem applied_monReserved (c : BitVec 8) (s : State) : applyAccess (.monReserved c) s = (if 3 ≤ c.toNat then (s.monPut c.toNat).monOther else s, .ok) := rfl

end Sys2Proof.Machine
end

