-- ==== Sys2Proof/Laws/Gsn.lean ====
section
/-! SUPPORT. What leaves the gong sequence number alone (R17): one lemma for each operation that a command other than a gong, a step of
presented time or a loss of all state goes through. -/

namespace Sys2Proof.Machine

set_option Elab.async false

set_option linter.all false
set_option maxRecDepth 4000

theorem gsn_ite (c : Prop) [Decidable c] (a b : State) : (if c then a else b).gong.gsn = if c then a.gong.gsn else b.gong.gsn := by split <;> rfl
theorem gsn_ite1 {β : Type} (c : Prop) [Decidable c] (a b : State × β) : (if c then a else b).1.gong.gsn = if c then a.1.gong.gsn else b.1.gong.gsn := by split <;> rfl
theorem gsn_foldl {α : Type} (f : State → α → State) (l : List α) (s : State) (h : ∀ s a, (f s a).gong.gsn = s.gong.gsn) : (l.foldl f s).gong.gsn = s.gong.gsn := by
  induction l generalizing s with
  | nil => rfl
  | cons a l ih => exact (ih _).trans (h _ _)
theorem gsn_foldl1 {α β : Type} (f : State × β → α → State × β) (l : List α) (s : State × β) (h : ∀ s a, (f s a).1.gong.gsn = s.1.gong.gsn) : (l.foldl f s).1.gong.gsn = s.1.gong.gsn := by
  induction l generalizing s with
  | nil => rfl
  | cons a l ih => exact (ih _).trans (h _ _)
theorem gsn_State_report (x0 : State) (x1 : Report) : (State.report x0 x1).gong.gsn = x0.gong.gsn := by
  simp only [State.report, gsn_ite, ite_self]
theorem gsn_State_acceptEvent (x0 : State) (x1 : EvRec) (x2 : ℕ) : (State.acceptEvent x0 x1 x2).gong.gsn = x0.gong.gsn := by
  simp only [State.acceptEvent, gsn_ite, ite_self]
theorem gsn_State_emitAt (x0 : State) (x1 : BitVec 56) (x2 : ℕ) (x3 : ℕ) (x4 : ℕ) (x5 : ℕ) (x6 : BitVec 112) : (State.emitAt x0 x1 x2 x3 x4 x5 x6).gong.gsn = x0.gong.gsn := by
  simp only [State.emitAt, gsn_ite, ite_self, gsn_State_acceptEvent]
theorem gsn_State_emitCap (x0 : State) (x1 : ℕ) (x2 : ℕ) (x3 : ℕ) (x4 : ℕ) (x5 : BitVec 112) : (State.emitCap x0 x1 x2 x3 x4 x5).gong.gsn = x0.gong.gsn := by
  simp only [State.emitCap, gsn_ite, ite_self, gsn_State_emitAt]
theorem gsn_State_emit (x0 : State) (x1 : ℕ) (x2 : ℕ) (x3 : ℕ) (x4 : BitVec 112) : (State.emit x0 x1 x2 x3 x4).gong.gsn = x0.gong.gsn := by
  simp only [State.emit, gsn_ite, ite_self, gsn_State_emitCap]
theorem gsn_State_evt (x0 : State) (x1 : ℕ) (x2 : ℕ) (x3 : List (ℕ × ℕ × ℕ)) : (State.evt x0 x1 x2 x3).gong.gsn = x0.gong.gsn := by
  simp only [State.evt, gsn_ite, ite_self, gsn_State_emit]
theorem gsn_State_auditEnd (x0 : State) : (State.auditEnd x0).gong.gsn = x0.gong.gsn := by
  unfold State.auditEnd
  repeat' first
    | (simp only [gsn_ite, gsn_foldl, gsn_foldl1, gsn_ite1, implies_true, ite_self, gsn_State_report, gsn_State_evt]; done)
    | with_reducible rfl
    | split
theorem gsn_State_dropBoot (x0 : State) : (State.dropBoot x0).gong.gsn = x0.gong.gsn := by
  simp only [State.dropBoot, gsn_ite, ite_self]
theorem gsn_State_endStart (x0 : State) (x1 : BootState) (x2 : ℕ) (x3 : ℕ) : (State.endStart x0 x1 x2 x3).gong.gsn = x0.gong.gsn := by
  simp only [State.endStart, gsn_ite, ite_self, gsn_State_dropBoot, gsn_State_evt]
theorem gsn_State_failStart (x0 : State) (x1 : ℕ) (x2 : ℕ) : (State.failStart x0 x1 x2).gong.gsn = x0.gong.gsn := by
  simp only [State.failStart, gsn_ite, ite_self, gsn_State_endStart]
theorem gsn_State_unack (x0 : State) (x1 : ℕ) : (State.unack x0 x1).gong.gsn = x0.gong.gsn := by
  simp only [State.unack, gsn_ite, ite_self]
theorem gsn_State_dropReq (x0 : State) (x1 : ℕ) : (State.dropReq x0 x1).gong.gsn = x0.gong.gsn := by
  simp only [State.dropReq, gsn_ite, ite_self, gsn_State_unack]
theorem gsn_State_setEvRing (x0 : State) (x1 : ℕ) (x2 : EvRing) : (State.setEvRing x0 x1 x2).gong.gsn = x0.gong.gsn := by
  simp only [State.setEvRing, gsn_ite, ite_self]
theorem gsn_State_dropSent (x0 : State) (x1 : ℕ) : (State.dropSent x0 x1).gong.gsn = x0.gong.gsn := by
  simp only [State.dropSent, gsn_ite, ite_self, gsn_State_setEvRing]
theorem gsn_State_lostWrite (x0 : State) (x1 : PReq) : (State.lostWrite x0 x1).gong.gsn = x0.gong.gsn := by
  unfold State.lostWrite
  repeat' first
    | (simp only [gsn_ite, gsn_foldl, gsn_foldl1, gsn_ite1, implies_true, ite_self, gsn_State_dropSent]; done)
    | with_reducible rfl
    | split
theorem gsn_State_setSport (x0 : State) (x1 : ℕ) (x2 : SPort) : (State.setSport x0 x1 x2).gong.gsn = x0.gong.gsn := by
  simp only [State.setSport, gsn_ite, ite_self]
theorem gsn_State_fresh (x0 : State) : (State.fresh x0).2.gong.gsn = x0.gong.gsn := by
  simp only [State.fresh, gsn_ite, ite_self]
theorem gsn_State_setCore (x0 : State) (x1 : ℕ) (x2 : Core) : (State.setCore x0 x1 x2).gong.gsn = x0.gong.gsn := by
  simp only [State.setCore, gsn_ite, ite_self]
theorem gsn_State_onCore (x0 : State) (x1 : ℕ) (x2 : Core → Core) : (State.onCore x0 x1 x2).gong.gsn = x0.gong.gsn := by
  simp only [State.onCore, gsn_ite, ite_self, gsn_State_setCore]
theorem gsn_State_cachePut (x0 : State) (x1 : ℕ) (x2 : Line) : (State.cachePut x0 x1 x2).gong.gsn = x0.gong.gsn := by
  simp only [State.cachePut, gsn_ite, ite_self, gsn_State_fresh, gsn_State_onCore]
theorem gsn_State_setChan (x0 : State) (x1 : ℕ) (x2 : Channel) : (State.setChan x0 x1 x2).gong.gsn = x0.gong.gsn := by
  simp only [State.setChan, gsn_ite, ite_self]
theorem gsn_State_fillRow (x0 : State) (x1 : ℕ) (x2 : InRow) : (State.fillRow x0 x1 x2).gong.gsn = x0.gong.gsn := by
  unfold State.fillRow
  repeat' first
    | (simp only [gsn_ite, gsn_foldl, gsn_foldl1, gsn_ite1, implies_true, ite_self, gsn_State_setChan]; done)
    | with_reducible rfl
    | (simp only [gsn_ite, gsn_foldl, gsn_foldl1, gsn_ite1, implies_true, ite_self, gsn_State_setChan])
    | split
    | (refine (gsn_foldl _ _ _ ?_).trans ?_ <;> try intro _ _)
    | (refine (gsn_foldl1 _ _ _ ?_).trans ?_ <;> try intro _ _)
theorem gsn_State_fillWindow (x0 : State) (x1 : ℕ) (x2 : List InRow) : (State.fillWindow x0 x1 x2).gong.gsn = x0.gong.gsn := by
  unfold State.fillWindow
  repeat' first
    | (simp only [gsn_ite, gsn_foldl, gsn_foldl1, gsn_ite1, implies_true, ite_self, gsn_State_setChan, gsn_State_fillRow]; done)
    | with_reducible rfl
    | split
theorem gsn_State_setRing (x0 : State) (x1 : ℕ) (x2 : Ring) : (State.setRing x0 x1 x2).gong.gsn = x0.gong.gsn := by
  simp only [State.setRing, gsn_ite, ite_self]
theorem gsn_State_ringRead (x0 : State) (x1 : ℕ) (x2 : PReq) (x3 : List Byte) (x4 : Bool) : (State.ringRead x0 x1 x2 x3 x4).gong.gsn = x0.gong.gsn := by
  unfold State.ringRead
  repeat' first
    | (simp only [gsn_ite, gsn_foldl, gsn_foldl1, gsn_ite1, implies_true, ite_self, gsn_State_setRing]; done)
    | with_reducible rfl
    | split
theorem gsn_State_deliver (x0 : State) (x1 : PReq) (x2 : List Byte) (x3 : List ℕ) (x4 : Kinds) : (State.deliver x0 x1 x2 x3 x4).gong.gsn = x0.gong.gsn := by
  unfold State.deliver
  repeat' first
    | (simp only [gsn_ite, gsn_foldl, gsn_foldl1, gsn_ite1, implies_true, ite_self, gsn_State_setSport, gsn_State_cachePut, gsn_State_fillWindow, gsn_State_setRing, gsn_State_ringRead]; done)
    | with_reducible rfl
    | split
theorem gsn_State_ringLost (x0 : State) (x1 : ℕ) (x2 : PReq) : (State.ringLost x0 x1 x2).gong.gsn = x0.gong.gsn := by
  simp only [State.ringLost, gsn_ite, ite_self, gsn_State_setRing]
theorem gsn_State_poisonReq (x0 : State) (x1 : PReq) (x2 : Kinds) : (State.poisonReq x0 x1 x2).gong.gsn = x0.gong.gsn := by
  unfold State.poisonReq
  repeat' first
    | (simp only [gsn_ite, gsn_foldl, gsn_foldl1, gsn_ite1, implies_true, ite_self, gsn_State_dropReq, gsn_State_lostWrite, gsn_State_deliver, gsn_State_ringLost]; done)
    | with_reducible rfl
    | split
theorem gsn_State_setMport (x0 : State) (x1 : ℕ) (x2 : MPort) : (State.setMport x0 x1 x2).gong.gsn = x0.gong.gsn := by
  simp only [State.setMport, gsn_ite, ite_self]
theorem gsn_State_lastFault (x0 : State) (x1 : ℕ) (x2 : ℕ) (x3 : ℕ) (x4 : ℕ) : (State.lastFault x0 x1 x2 x3 x4).gong.gsn = x0.gong.gsn := by
  simp only [State.lastFault, gsn_ite, ite_self, gsn_State_setMport]
theorem gsn_State_dropPartial (x0 : State) (x1 : ℕ) (x2 : ℕ) : (State.dropPartial x0 x1 x2).gong.gsn = x0.gong.gsn := by
  simp only [State.dropPartial, gsn_ite, ite_self]
theorem gsn_State_onFlight (x0 : State) (x1 : ℕ) (x2 : ℕ) (x3 : InFlight → InFlight) : (State.onFlight x0 x1 x2 x3).gong.gsn = x0.gong.gsn := by
  simp only [State.onFlight, gsn_ite, ite_self, gsn_State_onCore]
theorem gsn_State_abandonRec (x0 : State) (x1 : ℕ) (x2 : ℕ) (x3 : ℕ) (x4 : ℕ) (x5 : ℕ) (x6 : ℕ) : (State.abandonRec x0 x1 x2 x3 x4 x5 x6).gong.gsn = x0.gong.gsn := by
  simp only [State.abandonRec, gsn_ite, ite_self, gsn_State_evt, gsn_State_onCore]
theorem gsn_State_abandonFault (x0 : State) (x1 : ℕ) (x2 : ℕ) (x3 : ℕ) : (State.abandonFault x0 x1 x2 x3).gong.gsn = x0.gong.gsn := by
  unfold State.abandonFault
  repeat' first
    | (simp only [gsn_ite, gsn_foldl, gsn_foldl1, gsn_ite1, implies_true, ite_self, gsn_State_dropReq, gsn_State_dropPartial, gsn_State_onFlight, gsn_State_abandonRec]; done)
    | with_reducible rfl
    | split
theorem gsn_State_askPage (x0 : State) (x1 : PReq) : (State.askPage x0 x1).gong.gsn = x0.gong.gsn := by
  simp only [State.askPage, gsn_ite, ite_self]
theorem gsn_State_xlateRec (x0 : State) (x1 : ℕ) (x2 : PReq) (x3 : ℕ) : (State.xlateRec x0 x1 x2 x3).gong.gsn = x0.gong.gsn := by
  simp only [State.xlateRec, gsn_ite, ite_self, gsn_State_evt]
theorem gsn_State_noteXlate (x0 : State) (x1 : PReq) (x2 : ℕ) : (State.noteXlate x0 x1 x2).gong.gsn = x0.gong.gsn := by
  unfold State.noteXlate
  repeat' first
    | (simp only [gsn_ite, gsn_foldl, gsn_foldl1, gsn_ite1, implies_true, ite_self, gsn_State_xlateRec, gsn_State_onFlight]; done)
    | with_reducible rfl
    | split
theorem gsn_State_onReq (x0 : State) (x1 : ℕ) (x2 : PReq → PReq) : (State.onReq x0 x1 x2).gong.gsn = x0.gong.gsn := by
  simp only [State.onReq, gsn_ite, ite_self]
theorem gsn_State_faultReq (x0 : State) (x1 : PReq) (x2 : ℕ) : (State.faultReq x0 x1 x2).gong.gsn = x0.gong.gsn := by
  unfold State.faultReq
  repeat' first
    | (simp only [gsn_ite, gsn_foldl, gsn_foldl1, gsn_ite1, implies_true, ite_self, gsn_State_poisonReq, gsn_State_lastFault, gsn_State_dropReq, gsn_State_abandonFault, gsn_State_askPage, gsn_State_noteXlate, gsn_State_deliver, gsn_State_onReq]; done)
    | with_reducible rfl
    | split
theorem gsn_State_askXlp (x0 : State) (x1 : PReq) : (State.askXlp x0 x1).gong.gsn = x0.gong.gsn := by
  unfold State.askXlp
  repeat' first
    | (simp only [gsn_ite, gsn_foldl, gsn_foldl1, gsn_ite1, implies_true, ite_self, gsn_State_onReq]; done)
    | with_reducible rfl
    | (simp only [gsn_ite, gsn_foldl, gsn_foldl1, gsn_ite1, implies_true, ite_self, gsn_State_onReq])
    | split
    | (refine (gsn_foldl _ _ _ ?_).trans ?_ <;> try intro _ _)
    | (refine (gsn_foldl1 _ _ _ ?_).trans ?_ <;> try intro _ _)
theorem gsn_State_tlbPut (x0 : State) (x1 : List TlbEntry) (x2 : ℕ) (x3 : TlbEntry) : (State.tlbPut x0 x1 x2 x3).1.gong.gsn = x0.gong.gsn := by
  unfold State.tlbPut
  repeat' first
    | (simp only [gsn_ite, gsn_foldl, gsn_foldl1, gsn_ite1, implies_true, ite_self, gsn_State_fresh]; done)
    | with_reducible rfl
    | split
theorem gsn_State_tryReq (x0 : State) (x1 : ℕ) : (State.tryReq x0 x1).gong.gsn = x0.gong.gsn := by
  unfold State.tryReq
  repeat' first
    | (simp only [gsn_ite, gsn_foldl, gsn_foldl1, gsn_ite1, implies_true, ite_self, gsn_State_faultReq, gsn_State_askXlp, gsn_State_tlbPut, gsn_State_onReq, gsn_State_onCore]; done)
    | with_reducible rfl
    | (simp only [gsn_ite, gsn_foldl, gsn_foldl1, gsn_ite1, implies_true, ite_self, gsn_State_faultReq, gsn_State_askXlp, gsn_State_tlbPut, gsn_State_onReq, gsn_State_onCore])
    | split
    | (refine (gsn_foldl _ _ _ ?_).trans ?_ <;> try intro _ _)
    | (refine (gsn_foldl1 _ _ _ ?_).trans ?_ <;> try intro _ _)
theorem gsn_State_newReqAt (x0 : State) (x1 : Requester) (x2 : ℕ) (x3 : Option ℕ) (x4 : ℕ) (x5 : ℕ) (x6 : Bool) (x7 : List Byte) (x8 : List ℕ) (x9 : ℕ) (x10 : ℕ) : (State.newReqAt x0 x1 x2 x3 x4 x5 x6 x7 x8 x9 x10).gong.gsn = x0.gong.gsn := by
  simp only [State.newReqAt, gsn_ite, ite_self, gsn_State_tryReq]
theorem gsn_State_newReq (x0 : State) (x1 : Requester) (x2 : ℕ) (x3 : Option ℕ) (x4 : ℕ) (x5 : ℕ) (x6 : Bool) (x7 : List Byte) (x8 : List ℕ) : (State.newReq x0 x1 x2 x3 x4 x5 x6 x7 x8).gong.gsn = x0.gong.gsn := by
  simp only [State.newReq, gsn_ite, ite_self, gsn_State_newReqAt]
theorem gsn_State_bootFetch (x0 : State) (x1 : ℕ) (x2 : ℕ) : (State.bootFetch x0 x1 x2).gong.gsn = x0.gong.gsn := by
  unfold State.bootFetch
  repeat' first
    | (simp only [gsn_ite, gsn_foldl, gsn_foldl1, gsn_ite1, implies_true, ite_self, gsn_State_newReq]; done)
    | with_reducible rfl
    | split
theorem gsn_State_fetchStart (x0 : State) : (State.fetchStart x0).gong.gsn = x0.gong.gsn := by
  simp only [State.fetchStart, gsn_ite, ite_self, gsn_State_bootFetch]
theorem gsn_State_dropLines (x0 : State) (x1 : ℕ) (x2 : ℕ) : (State.dropLines x0 x1 x2).gong.gsn = x0.gong.gsn := by
  simp only [State.dropLines, gsn_ite, ite_self, gsn_State_onCore]
theorem gsn_State_stopPrefetch (x0 : State) (x1 : ℕ) (x2 : Ctx) : (State.stopPrefetch x0 x1 x2).gong.gsn = x0.gong.gsn := by
  simp only [State.stopPrefetch, gsn_ite, ite_self]
theorem gsn_State_releaseMallet (x0 : State) (x1 : Option Mallet) : (State.releaseMallet x0 x1).gong.gsn = x0.gong.gsn := by
  unfold State.releaseMallet
  repeat' first
    | (simp only [gsn_ite, gsn_foldl, gsn_foldl1, gsn_ite1, implies_true, ite_self]; done)
    | with_reducible rfl
    | split
theorem gsn_State_abandonOne (x0 : State) (x1 : ℕ) (x2 : ℕ) (x3 : InFlight) : (State.abandonOne x0 x1 x2 x3).gong.gsn = x0.gong.gsn := by
  simp only [State.abandonOne, gsn_ite, ite_self, gsn_State_dropPartial, gsn_State_releaseMallet, gsn_State_abandonRec, gsn_State_onCore]
theorem gsn_State_setColl (x0 : State) (x1 : ℕ) (x2 : Collective) : (State.setColl x0 x1 x2).gong.gsn = x0.gong.gsn := by
  simp only [State.setColl, gsn_ite, ite_self]
theorem gsn_State_dropColls (x0 : State) : (State.dropColls x0).gong.gsn = x0.gong.gsn := by
  simp only [State.dropColls, gsn_ite, ite_self]
theorem gsn_State_fabFail (x0 : State) (x1 : ℕ) (x2 : ℕ) (x3 : ℕ) (x4 : Bool) : (State.fabFail x0 x1 x2 x3 x4).gong.gsn = x0.gong.gsn := by
  simp only [State.fabFail, gsn_ite, ite_self, gsn_State_report, gsn_State_onCore]
theorem gsn_State_fabFails (x0 : State) (x1 : ℕ) (x2 : Fails) (x3 : Bool) : (State.fabFails x0 x1 x2 x3).gong.gsn = x0.gong.gsn := by
  unfold State.fabFails
  repeat' first
    | (simp only [gsn_ite, gsn_foldl, gsn_foldl1, gsn_ite1, implies_true, ite_self, gsn_State_fabFail]; done)
    | with_reducible rfl
    | split
theorem gsn_State_fabDone (x0 : State) (x1 : ℕ) (x2 : ℕ) (x3 : List (ℕ × ℕ)) (x4 : Fails) : (State.fabDone x0 x1 x2 x3 x4).gong.gsn = x0.gong.gsn := by
  simp only [State.fabDone, gsn_ite, ite_self, gsn_State_fabFails, gsn_State_onCore]
theorem gsn_State_finishColl (x0 : State) (x1 : ℕ) : (State.finishColl x0 x1).gong.gsn = x0.gong.gsn := by
  unfold State.finishColl
  repeat' first
    | (simp only [gsn_ite, gsn_foldl, gsn_foldl1, gsn_ite1, implies_true, ite_self, gsn_State_setColl, gsn_State_fresh, gsn_State_fabFails, gsn_State_fabDone, gsn_State_dropColls, gsn_State_onCore]; done)
    | with_reducible rfl
    | (simp only [gsn_ite, gsn_foldl, gsn_foldl1, gsn_ite1, implies_true, ite_self, gsn_State_setColl, gsn_State_fresh, gsn_State_fabFails, gsn_State_fabDone, gsn_State_dropColls, gsn_State_onCore])
    | split
    | (refine (gsn_foldl _ _ _ ?_).trans ?_ <;> try intro _ _)
    | (refine (gsn_foldl1 _ _ _ ?_).trans ?_ <;> try intro _ _)
theorem gsn_State_fillColl (x0 : State) (x1 : ℕ) (x2 : Option ℕ) (x3 : Kinds) (x4 : ℕ) : (State.fillColl x0 x1 x2 x3 x4).gong.gsn = x0.gong.gsn := by
  unfold State.fillColl
  repeat' first
    | (simp only [gsn_ite, gsn_foldl, gsn_foldl1, gsn_ite1, implies_true, ite_self, gsn_State_setColl, gsn_State_evt, gsn_State_finishColl]; done)
    | with_reducible rfl
    | split
theorem gsn_State_fillFor (x0 : State) (x1 : ℕ) (x2 : List ℕ) (x3 : Kinds) (x4 : ℕ) : (State.fillFor x0 x1 x2 x3 x4).gong.gsn = x0.gong.gsn := by
  unfold State.fillFor
  repeat' first
    | (simp only [gsn_ite, gsn_foldl, gsn_foldl1, gsn_ite1, implies_true, ite_self, gsn_State_setColl, gsn_State_dropColls, gsn_State_fillColl]; done)
    | with_reducible rfl
    | (simp only [gsn_ite, gsn_foldl, gsn_foldl1, gsn_ite1, implies_true, ite_self, gsn_State_setColl, gsn_State_dropColls, gsn_State_fillColl])
    | split
    | (refine (gsn_foldl _ _ _ ?_).trans ?_ <;> try intro _ _)
    | (refine (gsn_foldl1 _ _ _ ?_).trans ?_ <;> try intro _ _)
theorem gsn_State_setLc (x0 : State) (x1 : ℕ) (x2 : LogCore) : (State.setLc x0 x1 x2).gong.gsn = x0.gong.gsn := by
  simp only [State.setLc, gsn_ite, ite_self]
theorem gsn_State_onLc (x0 : State) (x1 : ℕ) (x2 : LogCore → LogCore) : (State.onLc x0 x1 x2).gong.gsn = x0.gong.gsn := by
  simp only [State.onLc, gsn_ite, ite_self, gsn_State_setLc]
theorem gsn_State_withdraw (x0 : State) (x1 : AcReq → Bool) : (State.withdraw x0 x1).gong.gsn = x0.gong.gsn := by
  simp only [State.withdraw, gsn_ite, ite_self]
theorem gsn_State_onCtx (x0 : State) (x1 : ℕ) (x2 : Ctx) (x3 : Context → Context) : (State.onCtx x0 x1 x2 x3).gong.gsn = x0.gong.gsn := by
  simp only [State.onCtx, gsn_ite, ite_self, gsn_State_onCore]
theorem gsn_State_unhold (x0 : State) (x1 : ℕ) (x2 : Ctx) : (State.unhold x0 x1 x2).gong.gsn = x0.gong.gsn := by
  simp only [State.unhold, gsn_ite, ite_self, gsn_State_onCtx]
theorem gsn_State_setQueue (x0 : State) (x1 : ℕ) (x2 : Queue) : (State.setQueue x0 x1 x2).gong.gsn = x0.gong.gsn := by
  simp only [State.setQueue, gsn_ite, ite_self]
theorem gsn_State_unreserve (x0 : State) (x1 : List ℕ) : (State.unreserve x0 x1).gong.gsn = x0.gong.gsn := by
  unfold State.unreserve
  repeat' first
    | (simp only [gsn_ite, gsn_foldl, gsn_foldl1, gsn_ite1, implies_true, ite_self, gsn_State_setQueue]; done)
    | with_reducible rfl
    | split
theorem gsn_State_setBuffer (x0 : State) (x1 : ℕ) (x2 : Buffer) : (State.setBuffer x0 x1 x2).gong.gsn = x0.gong.gsn := by
  simp only [State.setBuffer, gsn_ite, ite_self]
theorem gsn_State_setPart (x0 : State) (x1 : ℕ) (x2 : Partition) : (State.setPart x0 x1 x2).gong.gsn = x0.gong.gsn := by
  simp only [State.setPart, gsn_ite, ite_self]
theorem gsn_State_ringRelease (x0 : State) (x1 : ℕ) (x2 : ℕ) : (State.ringRelease x0 x1 x2).gong.gsn = x0.gong.gsn := by
  simp only [State.ringRelease, gsn_ite, ite_self, gsn_State_setRing]
theorem gsn_State_freeBuffer (x0 : State) (x1 : ℕ) : (State.freeBuffer x0 x1).gong.gsn = x0.gong.gsn := by
  unfold State.freeBuffer
  repeat' first
    | (simp only [gsn_ite, gsn_foldl, gsn_foldl1, gsn_ite1, implies_true, ite_self, gsn_State_setPart, gsn_State_ringRelease, gsn_State_setBuffer]; done)
    | with_reducible rfl
    | (simp only [gsn_ite, gsn_foldl, gsn_foldl1, gsn_ite1, implies_true, ite_self, gsn_State_setPart, gsn_State_ringRelease, gsn_State_setBuffer])
    | split
    | (refine (gsn_foldl _ _ _ ?_).trans ?_ <;> try intro _ _)
    | (refine (gsn_foldl1 _ _ _ ?_).trans ?_ <;> try intro _ _)
theorem gsn_State_dropRef (x0 : State) (x1 : ℕ) : (State.dropRef x0 x1).gong.gsn = x0.gong.gsn := by
  simp only [State.dropRef, gsn_ite, ite_self, gsn_State_setBuffer, gsn_State_freeBuffer]
theorem gsn_State_streamFault (x0 : State) (x1 : ℕ) (x2 : ℕ) (x3 : ℕ) (x4 : ℕ) (x5 : Word) : (State.streamFault x0 x1 x2 x3 x4 x5).gong.gsn = x0.gong.gsn := by
  simp only [State.streamFault, gsn_ite, ite_self, gsn_State_evt]
theorem gsn_State_staleFault (x0 : State) (x1 : ℕ) (x2 : ℕ) (x3 : ℕ) (x4 : ℕ) (x5 : Word) : (State.staleFault x0 x1 x2 x3 x4 x5).gong.gsn = x0.gong.gsn := by
  simp only [State.staleFault, gsn_ite, ite_self, gsn_State_streamFault, gsn_State_report]
theorem gsn_State_releaseHandle (x0 : State) (x1 : Word) (x2 : ℕ) (x3 : ℕ) (x4 : ℕ) : (State.releaseHandle x0 x1 x2 x3 x4).gong.gsn = x0.gong.gsn := by
  unfold State.releaseHandle
  repeat' first
    | (simp only [gsn_ite, gsn_foldl, gsn_foldl1, gsn_ite1, implies_true, ite_self, gsn_State_dropRef, gsn_State_staleFault]; done)
    | with_reducible rfl
    | split
theorem gsn_State_ghost (x0 : State) (x1 : ℕ) : (State.ghost x0 x1).gong.gsn = x0.gong.gsn := by
  simp only [State.ghost, gsn_ite, ite_self, gsn_State_report]
theorem gsn_State_enqueue (x0 : State) (x1 : ℕ) (x2 : Word) (x3 : BitVec 128) (x4 : Option ℕ) (x5 : Bool) : (State.enqueue x0 x1 x2 x3 x4 x5).gong.gsn = x0.gong.gsn := by
  simp only [State.enqueue, gsn_ite, ite_self, gsn_State_setQueue]
theorem gsn_State_owe (x0 : State) (x1 : ℕ) (x2 : ℕ) (x3 : Word) : (State.owe x0 x1 x2 x3).gong.gsn = x0.gong.gsn := by
  simp only [State.owe, gsn_ite, ite_self, gsn_State_setQueue, gsn_State_streamFault]
theorem gsn_State_setPeal (x0 : State) (x1 : ℕ) (x2 : Peal) : (State.setPeal x0 x1 x2).gong.gsn = x0.gong.gsn := by
  simp only [State.setPeal, gsn_ite, ite_self]
theorem gsn_State_shedOne (x0 : State) (x1 : ℕ) (x2 : ℕ) : (State.shedOne x0 x1 x2).gong.gsn = x0.gong.gsn := by
  simp only [State.shedOne, gsn_ite, ite_self, gsn_State_setPeal, gsn_State_evt]
theorem gsn_State_push (x0 : State) (x1 : ℕ) (x2 : Word) (x3 : BitVec 128) (x4 : List ℕ) : (State.push x0 x1 x2 x3 x4).gong.gsn = x0.gong.gsn := by
  unfold State.push
  repeat' first
    | (simp only [gsn_ite, gsn_foldl, gsn_foldl1, gsn_ite1, implies_true, ite_self, gsn_State_unreserve, gsn_State_enqueue, gsn_State_setBuffer, gsn_State_owe, gsn_State_dropRef, gsn_State_shedOne]; done)
    | with_reducible rfl
    | split
theorem gsn_State_syncFlags (x0 : State) (x1 : ℕ) : (State.syncFlags x0 x1).gong.gsn = x0.gong.gsn := by
  simp only [State.syncFlags, gsn_ite, ite_self]
theorem gsn_State_markBuffer (x0 : State) (x1 : ℕ) (x2 : Kinds) (x3 : ℕ) : (State.markBuffer x0 x1 x2 x3).gong.gsn = x0.gong.gsn := by
  simp only [State.markBuffer, gsn_ite, ite_self, gsn_State_syncFlags, gsn_State_setBuffer]
theorem gsn_State_flushHandle (x0 : State) (x1 : ℕ) (x2 : ℕ) (x3 : Option Kinds) (x4 : HReg) : (State.flushHandle x0 x1 x2 x3 x4).gong.gsn = x0.gong.gsn := by
  unfold State.flushHandle
  repeat' first
    | (simp only [gsn_ite, gsn_foldl, gsn_foldl1, gsn_ite1, implies_true, ite_self, gsn_State_unreserve, gsn_State_releaseHandle, gsn_State_ghost, gsn_State_push, gsn_State_markBuffer, gsn_State_staleFault]; done)
    | with_reducible rfl
    | split
theorem gsn_State_stopList (x0 : State) (x1 : ℕ) (x2 : Ctx) (x3 : Kinds) (x4 : ℕ) : (State.stopList x0 x1 x2 x3 x4).gong.gsn = x0.gong.gsn := by
  unfold State.stopList
  repeat' first
    | (simp only [gsn_ite, gsn_foldl, gsn_foldl1, gsn_ite1, implies_true, ite_self, gsn_State_dropLines, gsn_State_stopPrefetch, gsn_State_abandonOne, gsn_State_fillFor, gsn_State_onLc, gsn_State_withdraw, gsn_State_unhold, gsn_State_onCtx, gsn_State_releaseMallet, gsn_State_flushHandle]; done)
    | with_reducible rfl
    | (simp only [gsn_ite, gsn_foldl, gsn_foldl1, gsn_ite1, implies_true, ite_self, gsn_State_dropLines, gsn_State_stopPrefetch, gsn_State_abandonOne, gsn_State_fillFor, gsn_State_onLc, gsn_State_withdraw, gsn_State_unhold, gsn_State_onCtx, gsn_State_releaseMallet, gsn_State_flushHandle])
    | split
    | (refine (gsn_foldl _ _ _ ?_).trans ?_ <;> try intro _ _)
    | (refine (gsn_foldl1 _ _ _ ?_).trans ?_ <;> try intro _ _)
theorem gsn_State_stopCore (x0 : State) (x1 : ℕ) : (State.stopCore x0 x1).gong.gsn = x0.gong.gsn := by
  simp only [State.stopCore, gsn_ite, ite_self, gsn_State_stopList, gsn_State_onCore]
theorem gsn_State_markFilled (x0 : State) (x1 : ℕ) (x2 : ℕ) : (State.markFilled x0 x1 x2).gong.gsn = x0.gong.gsn := by
  unfold State.markFilled
  repeat' first
    | (simp only [gsn_ite, gsn_foldl, gsn_foldl1, gsn_ite1, implies_true, ite_self, gsn_State_markBuffer]; done)
    | with_reducible rfl
    | split
theorem gsn_State_strobesOff (x0 : State) (x1 : PReq → Bool) : (State.strobesOff x0 x1).gong.gsn = x0.gong.gsn := by
  unfold State.strobesOff
  repeat' first
    | (simp only [gsn_ite, gsn_foldl, gsn_foldl1, gsn_ite1, implies_true, ite_self, gsn_State_fresh, gsn_State_onReq]; done)
    | with_reducible rfl
    | split
theorem gsn_State_mpFault (x0 : State) (x1 : ℕ) (x2 : ℕ) (x3 : ℕ) (x4 : ℕ) (x5 : ℕ) : (State.mpFault x0 x1 x2 x3 x4 x5).gong.gsn = x0.gong.gsn := by
  simp only [State.mpFault, gsn_ite, ite_self, gsn_State_evt]
theorem gsn_State_portGhost (x0 : State) (x1 : PReq) (x2 : ℕ) : (State.portGhost x0 x1 x2).gong.gsn = x0.gong.gsn := by
  simp only [State.portGhost, gsn_ite, ite_self, gsn_State_mpFault, gsn_State_ghost, gsn_State_setMport]
theorem gsn_State_dropCoreReqs (x0 : State) (x1 : ℕ) : (State.dropCoreReqs x0 x1).gong.gsn = x0.gong.gsn := by
  unfold State.dropCoreReqs
  repeat' first
    | (simp only [gsn_ite, gsn_foldl, gsn_foldl1, gsn_ite1, implies_true, ite_self, gsn_State_strobesOff, gsn_State_portGhost]; done)
    | with_reducible rfl
    | split
theorem gsn_State_knell (x0 : State) (x1 : ℕ) (x2 : ℕ) : (State.knell x0 x1 x2).gong.gsn = x0.gong.gsn := by
  unfold State.knell
  repeat' first
    | (simp only [gsn_ite, gsn_foldl, gsn_foldl1, gsn_ite1, implies_true, ite_self, gsn_State_stopCore, gsn_State_markFilled, gsn_State_fillFor, gsn_State_dropCoreReqs, gsn_State_setLc, gsn_State_onCore]; done)
    | with_reducible rfl
    | (simp only [gsn_ite, gsn_foldl, gsn_foldl1, gsn_ite1, implies_true, ite_self, gsn_State_stopCore, gsn_State_markFilled, gsn_State_fillFor, gsn_State_dropCoreReqs, gsn_State_setLc, gsn_State_onCore])
    | split
    | (refine (gsn_foldl _ _ _ ?_).trans ?_ <;> try intro _ _)
    | (refine (gsn_foldl1 _ _ _ ?_).trans ?_ <;> try intro _ _)
theorem gsn_State_bootRec (x0 : State) (x1 : ℕ) : (State.bootRec x0 x1).gong.gsn = x0.gong.gsn := by
  simp only [State.bootRec, gsn_ite, ite_self, gsn_State_evt]
theorem gsn_State_bootWarn (x0 : State) (x1 : ℕ) : (State.bootWarn x0 x1).gong.gsn = x0.gong.gsn := by
  simp only [State.bootWarn, gsn_ite, ite_self, gsn_State_bootRec]
theorem gsn_State_bistEnd (x0 : State) (x1 : BitVec 18) (x2 : Bool) (x3 : Bool) (x4 : Bool) : (State.bistEnd x0 x1 x2 x3 x4).gong.gsn = x0.gong.gsn := by
  unfold State.bistEnd
  repeat' first
    | (simp only [gsn_ite, gsn_foldl, gsn_foldl1, gsn_ite1, implies_true, ite_self, gsn_State_failStart, gsn_State_fetchStart, gsn_State_knell, gsn_State_bootWarn]; done)
    | with_reducible rfl
    | split
theorem gsn_State_blankRead (x0 : State) (x1 : Instr) : (State.blankRead x0 x1).gong.gsn = x0.gong.gsn := by
  unfold State.blankRead
  repeat' first
    | (simp only [gsn_ite, gsn_foldl, gsn_foldl1, gsn_ite1, implies_true, ite_self]; done)
    | with_reducible rfl
    | split
theorem gsn_State_sendWrite (x0 : State) (x1 : ℕ) (x2 : ℕ) (x3 : ℕ) (x4 : ℕ × List Byte × List ℕ) : (State.sendWrite x0 x1 x2 x3 x4).gong.gsn = x0.gong.gsn := by
  simp only [State.sendWrite, gsn_ite, ite_self, gsn_State_newReq]
theorem gsn_State_sendRead (x0 : State) (x1 : ℕ) (x2 : ℕ × ℕ × ℕ) : (State.sendRead x0 x1 x2).gong.gsn = x0.gong.gsn := by
  simp only [State.sendRead, gsn_ite, ite_self, gsn_State_newReq]
theorem gsn_State_burstFlush (x0 : State) (x1 : ℕ) : (State.burstFlush x0 x1).gong.gsn = x0.gong.gsn := by
  unfold State.burstFlush
  repeat' first
    | (simp only [gsn_ite, gsn_foldl, gsn_foldl1, gsn_ite1, implies_true, ite_self, gsn_State_setChan, gsn_State_sendWrite, gsn_State_sendRead]; done)
    | with_reducible rfl
    | split
theorem gsn_State_cfgCheckRec (x0 : State) (x1 : Bool) (x2 : ℕ) : (State.cfgCheckRec x0 x1 x2).gong.gsn = x0.gong.gsn := by
  simp only [State.cfgCheckRec, gsn_ite, ite_self, gsn_State_evt]
theorem gsn_State_checkActive (x0 : State) : (State.checkActive x0).gong.gsn = x0.gong.gsn := by
  unfold State.checkActive
  repeat' first
    | (simp only [gsn_ite, gsn_foldl, gsn_foldl1, gsn_ite1, implies_true, ite_self, gsn_State_report, gsn_State_cfgCheckRec]; done)
    | with_reducible rfl
    | split
theorem gsn_State_cfgLoadRec (x0 : State) (x1 : ℕ) (x2 : ℕ) (x3 : Margin) (x4 : Bool × Bool) : (State.cfgLoadRec x0 x1 x2 x3 x4).gong.gsn = x0.gong.gsn := by
  simp only [State.cfgLoadRec, gsn_ite, ite_self, gsn_State_evt]
theorem gsn_State_discardStaged (x0 : State) : (State.discardStaged x0).gong.gsn = x0.gong.gsn := by
  simp only [State.discardStaged, gsn_ite, ite_self, gsn_State_cfgLoadRec]
theorem gsn_State_checkStaged (x0 : State) : (State.checkStaged x0).gong.gsn = x0.gong.gsn := by
  unfold State.checkStaged
  repeat' first
    | (simp only [gsn_ite, gsn_foldl, gsn_foldl1, gsn_ite1, implies_true, ite_self, gsn_State_discardStaged, gsn_State_cfgCheckRec]; done)
    | with_reducible rfl
    | split
theorem gsn_State_pwrState (x0 : State) (x1 : ℕ) (x2 : ℕ) (x3 : ℕ) (x4 : ℕ) (x5 : ℕ) : (State.pwrState x0 x1 x2 x3 x4 x5).gong.gsn = x0.gong.gsn := by
  simp only [State.pwrState, gsn_ite, ite_self, gsn_State_evt]
theorem gsn_State_setRegion (x0 : State) (x1 : ℕ) (x2 : Region) : (State.setRegion x0 x1 x2).gong.gsn = x0.gong.gsn := by
  simp only [State.setRegion, gsn_ite, ite_self]
theorem gsn_State_wakeRegion (x0 : State) (x1 : ℕ) (x2 : ℕ) (x3 : Bool) : (State.wakeRegion x0 x1 x2 x3).1.gong.gsn = x0.gong.gsn := by
  unfold State.wakeRegion
  repeat' first
    | (simp only [gsn_ite, gsn_foldl, gsn_foldl1, gsn_ite1, implies_true, ite_self, gsn_State_pwrState, gsn_State_setRegion]; done)
    | with_reducible rfl
    | (simp only [gsn_ite, gsn_foldl, gsn_foldl1, gsn_ite1, implies_true, ite_self, gsn_State_pwrState, gsn_State_setRegion])
    | split
    | (refine (gsn_foldl _ _ _ ?_).trans ?_ <;> try intro _ _)
    | (refine (gsn_foldl1 _ _ _ ?_).trans ?_ <;> try intro _ _)
theorem gsn_State_recordWake (x0 : State) (x1 : ℕ) (x2 : List ℕ) : (State.recordWake x0 x1 x2).gong.gsn = x0.gong.gsn := by
  simp only [State.recordWake, gsn_ite, ite_self, gsn_State_evt]
theorem gsn_State_wake (x0 : State) (x1 : ℕ) (x2 : Bool) (x3 : List ℕ) : (State.wake x0 x1 x2 x3).gong.gsn = x0.gong.gsn := by
  unfold State.wake
  repeat' first
    | (simp only [gsn_ite, gsn_foldl, gsn_foldl1, gsn_ite1, implies_true, ite_self, gsn_State_wakeRegion, gsn_State_recordWake]; done)
    | with_reducible rfl
    | split
theorem gsn_State_askRef (x0 : State) : (State.askRef x0).gong.gsn = x0.gong.gsn := by
  simp only [State.askRef, gsn_ite, ite_self]
theorem gsn_State_compareWake (x0 : State) (x1 : Compare) : (State.compareWake x0 x1).gong.gsn = x0.gong.gsn := by
  unfold State.compareWake
  repeat' first
    | (simp only [gsn_ite, gsn_foldl, gsn_foldl1, gsn_ite1, implies_true, ite_self, gsn_State_wake, gsn_State_askRef]; done)
    | with_reducible rfl
    | split
theorem gsn_State_copiesDiffer (x0 : State) : (State.copiesDiffer x0).gong.gsn = x0.gong.gsn := by
  simp only [State.copiesDiffer, gsn_ite, ite_self, gsn_State_report]
theorem gsn_State_corePgFall (x0 : State) : (State.corePgFall x0).gong.gsn = x0.gong.gsn := by
  unfold State.corePgFall
  repeat' first
    | (simp only [gsn_ite, gsn_foldl, gsn_foldl1, gsn_ite1, implies_true, ite_self, gsn_State_report]; done)
    | with_reducible rfl
    | split
theorem gsn_State_curfewStart (x0 : State) : (State.curfewStart x0).gong.gsn = x0.gong.gsn := by
  unfold State.curfewStart
  repeat' first
    | (simp only [gsn_ite, gsn_foldl, gsn_foldl1, gsn_ite1, implies_true, ite_self, gsn_State_withdraw, gsn_State_onCtx]; done)
    | with_reducible rfl
    | split
theorem gsn_State_abortOne (x0 : State) (x1 : List DNode) (x2 : Option ℕ) (x3 : ℕ) : (State.abortOne x0 x1 x2 x3).gong.gsn = x0.gong.gsn := by
  unfold State.abortOne
  repeat' first
    | (simp only [gsn_ite, gsn_foldl, gsn_foldl1, gsn_ite1, implies_true, ite_self, gsn_State_streamFault, gsn_State_stopList]; done)
    | with_reducible rfl
    | (simp only [gsn_ite, gsn_foldl, gsn_foldl1, gsn_ite1, implies_true, ite_self, gsn_State_streamFault, gsn_State_stopList])
    | split
    | (refine (gsn_foldl _ _ _ ?_).trans ?_ <;> try intro _ _)
    | (refine (gsn_foldl1 _ _ _ ?_).trans ?_ <;> try intro _ _)
theorem gsn_State_onEntry (x0 : State) (x1 : ℕ) (x2 : ℕ) (x3 : QEnt → QEnt) : (State.onEntry x0 x1 x2 x3).gong.gsn = x0.gong.gsn := by
  simp only [State.onEntry, gsn_ite, ite_self, gsn_State_setQueue]
theorem gsn_State_spillStart (s s' : State) (q i : Nat) (h : Word) (e : s.spillStart q i h = some s') : s'.gong.gsn = s.gong.gsn := by
  unfold State.spillStart at e; simp only [] at e; split at e
  · cases e
  · cases e; rw [gsn_State_newReq, gsn_State_onEntry]
theorem gsn_State_spills (q : Nat) (p : Option Nat) (l : List (Nat × QEnt)) (w n : Nat) (s : State) : (State.spills q p l w n s).1.gong.gsn = s.gong.gsn := by
  induction l generalizing w n s with
  | nil => rfl
  | cons x l ih =>
    obtain ⟨i, e⟩ := x
    unfold State.spills
    split
    · rfl
    · split
      · exact ih _ _ _
      · split
        · rfl
        · rename_i s' h; exact (ih _ _ _).trans (gsn_State_spillStart _ _ _ _ _ h)
theorem gsn_State_breakCycle (x0 : State) (x1 : List DNode) : (State.breakCycle x0 x1).gong.gsn = x0.gong.gsn := by
  unfold State.breakCycle
  repeat' first
    | (simp only [gsn_ite, gsn_foldl, gsn_foldl1, gsn_ite1, implies_true, ite_self, gsn_State_abortOne, gsn_State_spills, gsn_State_evt]; done)
    | with_reducible rfl
    | (simp only [gsn_ite, gsn_foldl, gsn_foldl1, gsn_ite1, implies_true, ite_self, gsn_State_abortOne, gsn_State_spills, gsn_State_evt])
    | split
    | (refine (gsn_foldl _ _ _ ?_).trans ?_ <;> try intro _ _)
    | (refine (gsn_foldl1 _ _ _ ?_).trans ?_ <;> try intro _ _)
theorem gsn_State_detect (x0 : State) : (State.detect x0).gong.gsn = x0.gong.gsn := by
  unfold State.detect
  repeat' first
    | (simp only [gsn_ite, gsn_foldl, gsn_foldl1, gsn_ite1, implies_true, ite_self, gsn_State_breakCycle]; done)
    | with_reducible rfl
    | split
theorem gsn_State_knellRec (x0 : State) (x1 : Drain) : (State.knellRec x0 x1).gong.gsn = x0.gong.gsn := by
  simp only [State.knellRec, gsn_ite, ite_self, gsn_State_evt]
theorem gsn_State_diagEnd (x0 : State) (x1 : Bool) : (State.diagEnd x0 x1).gong.gsn = x0.gong.gsn := by
  simp only [State.diagEnd, gsn_ite, ite_self, gsn_State_knellRec]
theorem gsn_State_drainEnd (x0 : State) (x1 : ℕ) : (State.drainEnd x0 x1).gong.gsn = x0.gong.gsn := by
  unfold State.drainEnd
  repeat' first
    | (simp only [gsn_ite, gsn_foldl, gsn_foldl1, gsn_ite1, implies_true, ite_self, gsn_State_knellRec]; done)
    | with_reducible rfl
    | split
theorem gsn_State_setRate (x0 : State) (x1 : ℕ) : (State.setRate x0 x1).gong.gsn = x0.gong.gsn := by
  simp only [State.setRate, gsn_ite, ite_self]
theorem gsn_State_applyRate (x0 : State) : (State.applyRate x0).gong.gsn = x0.gong.gsn := by
  simp only [State.applyRate, gsn_ite, ite_self, gsn_State_setRate]
theorem gsn_State_tick (x0 : State) (x1 : ℕ) : (State.tick x0 x1).gong.gsn = x0.gong.gsn := by
  simp only [State.tick, gsn_ite, ite_self]
theorem gsn_State_elapse (x0 : State) (x1 : ℕ) : (State.elapse x0 x1).gong.gsn = x0.gong.gsn := by
  simp only [State.elapse, gsn_ite, ite_self, gsn_State_applyRate, gsn_State_tick]
theorem gsn_State_elapseTo (x0 : State) (x1 : ℕ) : (State.elapseTo x0 x1).gong.gsn = x0.gong.gsn := by
  simp only [State.elapseTo, gsn_ite, ite_self, gsn_State_elapse]
theorem gsn_State_onRegion (x0 : State) (x1 : ℕ) (x2 : Region → Region) : (State.onRegion x0 x1 x2).gong.gsn = x0.gong.gsn := by
  simp only [State.onRegion, gsn_ite, ite_self, gsn_State_setRegion]
theorem gsn_State_forget (x0 : State) (x1 : List (ℕ × ℕ)) : (State.forget x0 x1).gong.gsn = x0.gong.gsn := by
  simp only [State.forget, gsn_ite, ite_self]
theorem gsn_State_controlOff (x0 : State) : (State.controlOff x0).gong.gsn = x0.gong.gsn := by
  simp only [State.controlOff, gsn_ite, ite_self, gsn_State_forget]
theorem gsn_State_coresDark (x0 : State) (x1 : ℕ) (x2 : Bool) : (State.coresDark x0 x1 x2).gong.gsn = x0.gong.gsn := by
  unfold State.coresDark
  repeat' first
    | (simp only [gsn_ite, gsn_foldl, gsn_foldl1, gsn_ite1, implies_true, ite_self, gsn_State_forget, gsn_State_setCore]; done)
    | with_reducible rfl
    | split
theorem gsn_State_spineOff (x0 : State) : (State.spineOff x0).gong.gsn = x0.gong.gsn := by
  simp only [State.spineOff, gsn_ite, ite_self, gsn_State_forget]
theorem gsn_State_spineDeep (x0 : State) : (State.spineDeep x0).gong.gsn = x0.gong.gsn := by
  simp only [State.spineDeep, gsn_ite, ite_self]
theorem gsn_State_ledgerOpen (x0 : State) (x1 : RgnState) : (State.ledgerOpen x0 x1).gong.gsn = x0.gong.gsn := by
  simp only [State.ledgerOpen, gsn_ite, ite_self]
theorem gsn_State_lose (x0 : State) (x1 : ℕ) (x2 : RgnState) : (State.lose x0 x1 x2).gong.gsn = x0.gong.gsn := by
  unfold State.lose
  repeat' first
    | (simp only [gsn_ite, gsn_foldl, gsn_foldl1, gsn_ite1, implies_true, ite_self, gsn_State_controlOff, gsn_State_coresDark, gsn_State_spineOff, gsn_State_spineDeep, gsn_State_ledgerOpen]; done)
    | with_reducible rfl
    | split
theorem gsn_State_writeCompares (x0 : State) : (State.writeCompares x0).gong.gsn = x0.gong.gsn := by
  unfold State.writeCompares
  repeat' first
    | (simp only [gsn_ite, gsn_foldl, gsn_foldl1, gsn_ite1, implies_true, ite_self, gsn_State_onRegion]; done)
    | with_reducible rfl
    | split
theorem gsn_State_entryDone (x0 : State) (x1 : ℕ) : (State.entryDone x0 x1).gong.gsn = x0.gong.gsn := by
  unfold State.entryDone
  repeat' first
    | (simp only [gsn_ite, gsn_foldl, gsn_foldl1, gsn_ite1, implies_true, ite_self, gsn_State_elapseTo, gsn_State_onRegion, gsn_State_pwrState, gsn_State_wakeRegion, gsn_State_lose, gsn_State_recordWake, gsn_State_writeCompares]; done)
    | with_reducible rfl
    | split
theorem gsn_State_evWrite (x0 : State) (x1 : ℕ) (x2 : ℕ) : (State.evWrite x0 x1 x2).gong.gsn = x0.gong.gsn := by
  simp only [State.evWrite, gsn_ite, ite_self, gsn_State_setEvRing, gsn_State_newReqAt]
theorem gsn_State_fetched (x0 : State) (x1 : ℕ) (x2 : ℕ) : (State.fetched x0 x1 x2).gong.gsn = x0.gong.gsn := by
  simp only [State.fetched, gsn_ite, ite_self, gsn_State_onCore]
theorem gsn_State_ringAccess (x0 : State) (x1 : Requester) (x2 : ℕ) (x3 : ℕ) (x4 : ℕ) (x5 : Bool) (x6 : List Byte) : (State.ringAccess x0 x1 x2 x3 x4 x5 x6).gong.gsn = x0.gong.gsn := by
  simp only [State.ringAccess, gsn_ite, ite_self, gsn_State_newReqAt]
theorem gsn_State_ringBuffer (x0 : State) (x1 : ℕ) : (State.ringBuffer x0 x1).gong.gsn = x0.gong.gsn := by
  unfold State.ringBuffer
  repeat' first
    | (simp only [gsn_ite, gsn_foldl, gsn_foldl1, gsn_ite1, implies_true, ite_self, gsn_State_setRing, gsn_State_newReq]; done)
    | with_reducible rfl
    | (simp only [gsn_ite, gsn_foldl, gsn_foldl1, gsn_ite1, implies_true, ite_self, gsn_State_setRing, gsn_State_newReq])
    | split
    | (refine (gsn_foldl _ _ _ ?_).trans ?_ <;> try intro _ _)
    | (refine (gsn_foldl1 _ _ _ ?_).trans ?_ <;> try intro _ _)
theorem gsn_State_ringStep (x0 : State) (x1 : ℕ) : (State.ringStep x0 x1).gong.gsn = x0.gong.gsn := by
  unfold State.ringStep
  repeat' first
    | (simp only [gsn_ite, gsn_foldl, gsn_foldl1, gsn_ite1, implies_true, ite_self, gsn_State_releaseHandle, gsn_State_ringAccess, gsn_State_setRing, gsn_State_ringBuffer]; done)
    | with_reducible rfl
    | (simp only [gsn_ite, gsn_foldl, gsn_foldl1, gsn_ite1, implies_true, ite_self, gsn_State_releaseHandle, gsn_State_ringAccess, gsn_State_setRing, gsn_State_ringBuffer])
    | split
    | (refine (gsn_foldl _ _ _ ?_).trans ?_ <;> try intro _ _)
    | (refine (gsn_foldl1 _ _ _ ?_).trans ?_ <;> try intro _ _)
theorem gsn_State_ringBad (x0 : State) (x1 : ℕ) (x2 : ℕ) (x3 : ℕ) : (State.ringBad x0 x1 x2 x3).gong.gsn = x0.gong.gsn := by
  simp only [State.ringBad, gsn_ite, ite_self, gsn_State_streamFault, gsn_State_ringRelease, gsn_State_setRing, gsn_State_push]
theorem gsn_State_ringIndex (x0 : State) (x1 : ℕ) (x2 : Word) : (State.ringIndex x0 x1 x2).gong.gsn = x0.gong.gsn := by
  simp only [State.ringIndex, gsn_ite, ite_self, gsn_State_streamFault, gsn_State_setRing, gsn_State_ringBad]
theorem gsn_State_ringAsk (x0 : State) (x1 : ℕ) : (State.ringAsk x0 x1).gong.gsn = x0.gong.gsn := by
  unfold State.ringAsk
  repeat' first
    | (simp only [gsn_ite, gsn_foldl, gsn_foldl1, gsn_ite1, implies_true, ite_self, gsn_State_setRing, gsn_State_newReq]; done)
    | with_reducible rfl
    | split
theorem gsn_State_ringSlot (x0 : State) (x1 : ℕ) (x2 : ℕ) (x3 : ℕ) (x4 : RingDesc) : (State.ringSlot x0 x1 x2 x3 x4).gong.gsn = x0.gong.gsn := by
  simp only [State.ringSlot, gsn_ite, ite_self, gsn_State_setBuffer, gsn_State_setRing, gsn_State_push, gsn_State_ringBad]
theorem gsn_State_ringSlots (r n : Nat) (s : State) : (State.ringSlots r n s).gong.gsn = s.gong.gsn := by
  induction n generalizing s with
  | zero => rfl
  | succ n ih =>
    unfold State.ringSlots; simp only []
    repeat' split
    all_goals simp only [ih, gsn_State_ringSlot, gsn_State_ringBad]
theorem gsn_State_ringGo (x0 : State) (x1 : ℕ) : (State.ringGo x0 x1).gong.gsn = x0.gong.gsn := by
  unfold State.ringGo
  repeat' first
    | (simp only [gsn_ite, gsn_foldl, gsn_foldl1, gsn_ite1, implies_true, ite_self, gsn_State_ringStep, gsn_State_ringIndex, gsn_State_ringAsk, gsn_State_ringSlots]; done)
    | with_reducible rfl
    | split
theorem gsn_State_ringsGo (x0 : State) : (State.ringsGo x0).gong.gsn = x0.gong.gsn := by
  unfold State.ringsGo
  repeat' first
    | (simp only [gsn_ite, gsn_foldl, gsn_foldl1, gsn_ite1, implies_true, ite_self, gsn_State_ringGo]; done)
    | with_reducible rfl
    | split
theorem gsn_State_lostRecs (x0 : State) : (State.lostRecs x0).gong.gsn = x0.gong.gsn := by
  unfold State.lostRecs
  repeat' first
    | (simp only [gsn_ite, gsn_foldl, gsn_foldl1, gsn_ite1, implies_true, ite_self, gsn_State_emitCap]; done)
    | with_reducible rfl
    | split
theorem gsn_State_eventsGo (x0 : State) : (State.eventsGo x0).gong.gsn = x0.gong.gsn := by
  simp only [State.eventsGo, gsn_ite, ite_self, gsn_State_lostRecs]
theorem gsn_State_trimWindow (x0 : State) (x1 : ℕ) (x2 : ℕ) (x3 : Ctx) : (State.trimWindow x0 x1 x2 x3).gong.gsn = x0.gong.gsn := by
  simp only [State.trimWindow, gsn_ite, ite_self, gsn_State_setChan]
theorem gsn_State_scanRead (x0 : State) (x1 : ℕ) (x2 : ℕ) (x3 : ℕ) : (State.scanRead x0 x1 x2 x3).gong.gsn = x0.gong.gsn := by
  unfold State.scanRead
  repeat' first
    | (simp only [gsn_ite, gsn_foldl, gsn_foldl1, gsn_ite1, implies_true, ite_self, gsn_State_setChan, gsn_State_sendRead]; done)
    | with_reducible rfl
    | (simp only [gsn_ite, gsn_foldl, gsn_foldl1, gsn_ite1, implies_true, ite_self, gsn_State_setChan, gsn_State_sendRead])
    | split
    | (refine (gsn_foldl _ _ _ ?_).trans ?_ <;> try intro _ _)
    | (refine (gsn_foldl1 _ _ _ ?_).trans ?_ <;> try intro _ _)
theorem gsn_State_scanFrom (c pc : Nat) (x : Ctx) (l : ListRef) (n : Nat) (s : State) : (State.scanFrom c pc x l n s).gong.gsn = s.gong.gsn := by
  induction n generalizing s with
  | zero => rfl
  | succ n ih =>
    unfold State.scanFrom; simp only []
    repeat' split
    all_goals simp only [ih, gsn_State_setChan, gsn_State_scanRead]
theorem gsn_State_prefetch (x0 : State) : (State.prefetch x0).gong.gsn = x0.gong.gsn := by
  unfold State.prefetch
  repeat' first
    | (simp only [gsn_ite, gsn_foldl, gsn_foldl1, gsn_ite1, implies_true, ite_self, gsn_State_trimWindow, gsn_State_scanFrom]; done)
    | with_reducible rfl
    | (simp only [gsn_ite, gsn_foldl, gsn_foldl1, gsn_ite1, implies_true, ite_self, gsn_State_trimWindow, gsn_State_scanFrom])
    | split
    | (refine (gsn_foldl _ _ _ ?_).trans ?_ <;> try intro _ _)
    | (refine (gsn_foldl1 _ _ _ ?_).trans ?_ <;> try intro _ _)
theorem gsn_State_flimitEnd (x0 : State) (x1 : ℕ) : (State.flimitEnd x0 x1).gong.gsn = x0.gong.gsn := by
  unfold State.flimitEnd
  repeat' first
    | (simp only [gsn_ite, gsn_foldl, gsn_foldl1, gsn_ite1, implies_true, ite_self, gsn_State_poisonReq, gsn_State_dropReq, gsn_State_ringsGo, gsn_State_xlateRec, gsn_State_eventsGo, gsn_State_onFlight, gsn_State_prefetch]; done)
    | with_reducible rfl
    | split
theorem gsn_State_grant (x0 : State) : (State.grant x0).gong.gsn = x0.gong.gsn := by
  unfold State.grant
  repeat' first
    | (simp only [gsn_ite, gsn_foldl, gsn_foldl1, gsn_ite1, implies_true, ite_self, gsn_State_onCtx]; done)
    | with_reducible rfl
    | split
theorem gsn_State_setSeq (x0 : State) (x1 : ℕ) (x2 : Memory) : (State.setSeq x0 x1 x2).gong.gsn = x0.gong.gsn := by
  simp only [State.setSeq, gsn_ite, ite_self]
theorem gsn_State_markWord (x0 : State) (x1 : MemKind) (x2 : ℕ) : (State.markWord x0 x1 x2).gong.gsn = x0.gong.gsn := by
  unfold State.markWord
  repeat' first
    | (simp only [gsn_ite, gsn_foldl, gsn_foldl1, gsn_ite1, implies_true, ite_self, gsn_State_setSeq, gsn_State_onCore]; done)
    | with_reducible rfl
    | (simp only [gsn_ite, gsn_foldl, gsn_foldl1, gsn_ite1, implies_true, ite_self, gsn_State_setSeq, gsn_State_onCore])
    | split
    | (refine (gsn_foldl _ _ _ ?_).trans ?_ <;> try intro _ _)
    | (refine (gsn_foldl1 _ _ _ ?_).trans ?_ <;> try intro _ _)
theorem gsn_State_applyRegion (x0 : State) (x1 : ℕ) (x2 : ℕ) (x3 : ℕ) : (State.applyRegion x0 x1 x2 x3).gong.gsn = x0.gong.gsn := by
  simp only [State.applyRegion, gsn_ite, ite_self, gsn_State_setRegion]
theorem gsn_State_forceDown (x0 : State) (x1 : ℕ) (x2 : ℕ) : (State.forceDown x0 x1 x2).gong.gsn = x0.gong.gsn := by
  simp only [State.forceDown, gsn_ite, ite_self, gsn_State_applyRegion, gsn_State_onRegion, gsn_State_report, gsn_State_evt]
theorem gsn_State_timeFault (x0 : State) (x1 : ℕ) : (State.timeFault x0 x1).gong.gsn = x0.gong.gsn := by
  simp only [State.timeFault, gsn_ite, ite_self, gsn_State_report]
theorem gsn_State_violation (x0 : State) (x1 : ℕ) (x2 : ℕ) (x3 : optParam (Option PReq) none) : (State.violation x0 x1 x2 x3).gong.gsn = x0.gong.gsn := by
  simp only [State.violation, gsn_ite, ite_self, gsn_State_report, gsn_State_mpFault]
theorem gsn_State_masterReset (x0 : State) (x1 : Master → Bool) : (State.masterReset x0 x1).gong.gsn = x0.gong.gsn := by
  simp only [State.masterReset, gsn_ite, ite_self]
theorem gsn_State_pairStart (x0 : State) (x1 : ℕ) : (State.pairStart x0 x1).gong.gsn = x0.gong.gsn := by
  simp only [State.pairStart, gsn_ite, ite_self, gsn_State_masterReset]
theorem gsn_State_mismatch (x0 : State) (x1 : ℕ) : (State.mismatch x0 x1).gong.gsn = x0.gong.gsn := by
  unfold State.mismatch
  repeat' first
    | (simp only [gsn_ite, gsn_foldl, gsn_foldl1, gsn_ite1, implies_true, ite_self, gsn_State_pairStart, gsn_State_failStart, gsn_State_report]; done)
    | with_reducible rfl
    | split
theorem gsn_State_matrixRec (x0 : State) (x1 : ℕ) (x2 : ℕ) (x3 : ℕ) (x4 : ℕ) (x5 : ℕ) (x6 : ℕ) (x7 : ℕ) : (State.matrixRec x0 x1 x2 x3 x4 x5 x6 x7).gong.gsn = x0.gong.gsn := by
  simp only [State.matrixRec, gsn_ite, ite_self, gsn_State_evt]
theorem gsn_State_coreGhost (x0 : State) (x1 : ℕ) : (State.coreGhost x0 x1).gong.gsn = x0.gong.gsn := by
  simp only [State.coreGhost, gsn_ite, ite_self, gsn_State_matrixRec, gsn_State_ghost]
theorem gsn_State_missWindow (x0 : State) (x1 : ℕ) : (State.missWindow x0 x1).gong.gsn = x0.gong.gsn := by
  simp only [State.missWindow, gsn_ite, ite_self, gsn_State_report, gsn_State_coreGhost, gsn_State_onCore]
theorem gsn_State_faultAt (x0 : State) (x1 : ℕ) (x2 : ℕ) (x3 : ℕ) : (State.faultAt x0 x1 x2 x3).gong.gsn = x0.gong.gsn := by
  unfold State.faultAt
  repeat' first
    | (simp only [gsn_ite, gsn_foldl, gsn_foldl1, gsn_ite1, implies_true, ite_self, gsn_State_markWord, gsn_State_forceDown, gsn_State_auditEnd, gsn_State_timeFault, gsn_State_report, gsn_State_ghost, gsn_State_violation, gsn_State_mismatch, gsn_State_missWindow, gsn_State_onCore]; done)
    | with_reducible rfl
    | split
theorem gsn_State_markInjected (x0 : State) (x1 : ℕ) : (State.markInjected x0 x1).gong.gsn = x0.gong.gsn := by
  simp only [State.markInjected, gsn_ite, ite_self]
theorem gsn_State_setInj (x0 : State) (x1 : ℕ) (x2 : Inj) : (State.setInj x0 x1 x2).gong.gsn = x0.gong.gsn := by
  simp only [State.setInj, gsn_ite, ite_self]
theorem gsn_State_inject (x0 : State) (x1 : ℕ) : (State.inject x0 x1).gong.gsn = x0.gong.gsn := by
  simp only [State.inject, gsn_ite, ite_self, gsn_State_faultAt, gsn_State_markInjected, gsn_State_setInj]
theorem gsn_State_unlearn (x0 : State) (x1 : TlbEntry → Bool) : (State.unlearn x0 x1).gong.gsn = x0.gong.gsn := by
  simp only [State.unlearn, gsn_ite, ite_self]
theorem gsn_State_invalidate (x0 : State) (x1 : ℕ) (x2 : ℕ) (x3 : ℕ) (x4 : Bool) : (State.invalidate x0 x1 x2 x3 x4).gong.gsn = x0.gong.gsn := by
  simp only [State.invalidate, gsn_ite, ite_self, gsn_State_unlearn]
theorem gsn_State_cfgPhase (x0 : State) (x1 : ℕ) : (State.cfgPhase x0 x1).gong.gsn = x0.gong.gsn := by
  simp only [State.cfgPhase, gsn_ite, ite_self]
theorem gsn_State_cfgFetch (x0 : State) (x1 : ℕ) (x2 : ℕ) : (State.cfgFetch x0 x1 x2).gong.gsn = x0.gong.gsn := by
  unfold State.cfgFetch
  repeat' first
    | (simp only [gsn_ite, gsn_foldl, gsn_foldl1, gsn_ite1, implies_true, ite_self, gsn_State_newReq]; done)
    | with_reducible rfl
    | split
theorem gsn_State_resumeStart (x0 : State) : (State.resumeStart x0).gong.gsn = x0.gong.gsn := by
  unfold State.resumeStart
  repeat' first
    | (simp only [gsn_ite, gsn_foldl, gsn_foldl1, gsn_ite1, implies_true, ite_self, gsn_State_cfgPhase, gsn_State_cfgFetch]; done)
    | with_reducible rfl
    | split
theorem gsn_State_linksUp (x0 : State) : (State.linksUp x0).gong.gsn = x0.gong.gsn := by
  unfold State.linksUp
  repeat' first
    | (simp only [gsn_ite, gsn_foldl, gsn_foldl1, gsn_ite1, implies_true, ite_self, gsn_State_setSport]; done)
    | with_reducible rfl
    | split
theorem gsn_State_romVotes (x0 : State) (x1 : Bool) : (State.romVotes x0 x1).gong.gsn = x0.gong.gsn := by
  unfold State.romVotes
  repeat' first
    | (simp only [gsn_ite, gsn_foldl, gsn_foldl1, gsn_ite1, implies_true, ite_self, gsn_State_onRegion]; done)
    | with_reducible rfl
    | split
theorem gsn_State_timeBack (x0 : State) : (State.timeBack x0).gong.gsn = x0.gong.gsn := by
  unfold State.timeBack
  repeat' first
    | (simp only [gsn_ite, gsn_foldl, gsn_foldl1, gsn_ite1, implies_true, ite_self, gsn_State_bootWarn]; done)
    | with_reducible rfl
    | split
theorem gsn_State_limnyEnd (x0 : State) (x1 : Bool) : (State.limnyEnd x0 x1).gong.gsn = x0.gong.gsn := by
  unfold State.limnyEnd
  repeat' first
    | (simp only [gsn_ite, gsn_foldl, gsn_foldl1, gsn_ite1, implies_true, ite_self, gsn_State_resumeStart, gsn_State_failStart, gsn_State_linksUp, gsn_State_romVotes, gsn_State_timeBack, gsn_State_bootRec]; done)
    | with_reducible rfl
    | split
theorem gsn_State_loadFail (x0 : State) (x1 : ℕ) : (State.loadFail x0 x1).gong.gsn = x0.gong.gsn := by
  simp only [State.loadFail, gsn_ite, ite_self, gsn_State_cfgPhase, gsn_State_cfgLoadRec]
theorem gsn_State_setReg (x0 : State) (x1 : ℕ) (x2 : Word) : (State.setReg x0 x1 x2).gong.gsn = x0.gong.gsn := by
  simp only [State.setReg, gsn_ite, ite_self]
theorem gsn_State_putQueues (x0 : State) (x1 : Image) : (State.putQueues x0 x1).gong.gsn = x0.gong.gsn := by
  unfold State.putQueues
  repeat' first
    | (simp only [gsn_ite, gsn_foldl, gsn_foldl1, gsn_ite1, implies_true, ite_self, gsn_State_setReg, gsn_State_setQueue]; done)
    | with_reducible rfl
    | split
theorem gsn_State_putPartitions (x0 : State) (x1 : Image) : (State.putPartitions x0 x1).gong.gsn = x0.gong.gsn := by
  unfold State.putPartitions
  repeat' first
    | (simp only [gsn_ite, gsn_foldl, gsn_foldl1, gsn_ite1, implies_true, ite_self, gsn_State_setPart]; done)
    | with_reducible rfl
    | split
theorem gsn_State_putSafety (x0 : State) (x1 : Image) : (State.putSafety x0 x1).gong.gsn = x0.gong.gsn := by
  simp only [State.putSafety, gsn_ite, ite_self]
theorem gsn_State_putChannels (x0 : State) (x1 : Image) : (State.putChannels x0 x1).gong.gsn = x0.gong.gsn := by
  unfold State.putChannels
  repeat' first
    | (simp only [gsn_ite, gsn_foldl, gsn_foldl1, gsn_ite1, implies_true, ite_self, gsn_State_setReg, gsn_State_setChan]; done)
    | with_reducible rfl
    | split
theorem gsn_State_gongStart (x0 : State) : (State.gongStart x0).gong.gsn = x0.gong.gsn := by
  simp only [State.gongStart, gsn_ite, ite_self]
theorem gsn_State_gongStop (x0 : State) : (State.gongStop x0).gong.gsn = x0.gong.gsn := by
  simp only [State.gongStop, gsn_ite, ite_self]
theorem gsn_State_setGongEn (x0 : State) (x1 : Bool) : (State.setGongEn x0 x1).gong.gsn = x0.gong.gsn := by
  simp only [State.setGongEn, gsn_ite, ite_self, gsn_State_gongStart, gsn_State_gongStop]
theorem gsn_State_afterMode (x0 : State) (x1 : ℤ) : (State.afterMode x0 x1).gong.gsn = x0.gong.gsn := by
  simp only [State.afterMode, gsn_ite, ite_self]
theorem gsn_State_putGong (x0 : State) (x1 : Image) : (State.putGong x0 x1).gong.gsn = x0.gong.gsn := by
  simp only [State.putGong, gsn_ite, ite_self, gsn_State_setReg, gsn_State_setGongEn, gsn_State_afterMode]
theorem gsn_State_setSync (x0 : State) (x1 : ℕ) (x2 : SyncObj) : (State.setSync x0 x1 x2).gong.gsn = x0.gong.gsn := by
  simp only [State.setSync, gsn_ite, ite_self]
theorem gsn_State_setCount (x0 : State) (x1 : ℕ) (x2 : Word) (x3 : ℕ) (x4 : ℕ) (x5 : Bool) : (State.setCount x0 x1 x2 x3 x4 x5).gong.gsn = x0.gong.gsn := by
  simp only [State.setCount, gsn_ite, ite_self, gsn_State_setSync, gsn_State_evt]
theorem gsn_State_putSync (x0 : State) (x1 : Image) : (State.putSync x0 x1).gong.gsn = x0.gong.gsn := by
  unfold State.putSync
  repeat' first
    | (simp only [gsn_ite, gsn_foldl, gsn_foldl1, gsn_ite1, implies_true, ite_self, gsn_State_setSync, gsn_State_setCount]; done)
    | with_reducible rfl
    | split
theorem gsn_State_routeUpdateRec (x0 : State) (x1 : ℕ) (x2 : ℕ) : (State.routeUpdateRec x0 x1 x2).gong.gsn = x0.gong.gsn := by
  simp only [State.routeUpdateRec, gsn_ite, ite_self, gsn_State_evt]
theorem gsn_State_putRoutes (x0 : State) (x1 : Image) : (State.putRoutes x0 x1).gong.gsn = x0.gong.gsn := by
  simp only [State.putRoutes, gsn_ite, ite_self, gsn_State_routeUpdateRec]
theorem gsn_State_putOverrides (x0 : State) (x1 : Image) (x2 : ℕ) : (State.putOverrides x0 x1 x2).gong.gsn = x0.gong.gsn := by
  unfold State.putOverrides
  repeat' first
    | (simp only [gsn_ite, gsn_foldl, gsn_foldl1, gsn_ite1, implies_true, ite_self, gsn_State_setQueue]; done)
    | with_reducible rfl
    | split
theorem gsn_State_putMap (x0 : State) (x1 : Image) (x2 : ℕ) : (State.putMap x0 x1 x2).gong.gsn = x0.gong.gsn := by
  unfold State.putMap
  repeat' first
    | (simp only [gsn_ite, gsn_foldl, gsn_foldl1, gsn_ite1, implies_true, ite_self, gsn_State_putOverrides, gsn_State_onLc, gsn_State_onCore]; done)
    | with_reducible rfl
    | split
theorem gsn_State_resetRecs (x0 : State) (x1 : Bool) : (State.resetRecs x0 x1).gong.gsn = x0.gong.gsn := by
  unfold State.resetRecs
  repeat' first
    | (simp only [gsn_ite, gsn_foldl, gsn_foldl1, gsn_ite1, implies_true, ite_self, gsn_State_evt]; done)
    | with_reducible rfl
    | split
theorem gsn_State_putHistory (x0 : State) (x1 : Image) : (State.putHistory x0 x1).gong.gsn = x0.gong.gsn := by
  unfold State.putHistory
  repeat' first
    | (simp only [gsn_ite, gsn_foldl, gsn_foldl1, gsn_ite1, implies_true, ite_self, gsn_State_setReg, gsn_State_onLc]; done)
    | with_reducible rfl
    | split
theorem gsn_State_setReady (x0 : State) : (State.setReady x0).gong.gsn = x0.gong.gsn := by
  simp only [State.setReady, gsn_ite, ite_self, gsn_State_evt]
theorem gsn_State_putPeals (x0 : State) (x1 : Image) : (State.putPeals x0 x1).gong.gsn = x0.gong.gsn := by
  unfold State.putPeals
  repeat' first
    | (simp only [gsn_ite, gsn_foldl, gsn_foldl1, gsn_ite1, implies_true, ite_self, gsn_State_setReg, gsn_State_setPeal]; done)
    | with_reducible rfl
    | split
theorem gsn_State_putRings (x0 : State) (x1 : Image) : (State.putRings x0 x1).gong.gsn = x0.gong.gsn := by
  unfold State.putRings
  repeat' first
    | (simp only [gsn_ite, gsn_foldl, gsn_foldl1, gsn_ite1, implies_true, ite_self, gsn_State_setRing]; done)
    | with_reducible rfl
    | split
theorem gsn_State_putPower (x0 : State) (x1 : Image) : (State.putPower x0 x1).gong.gsn = x0.gong.gsn := by
  unfold State.putPower
  repeat' first
    | (simp only [gsn_ite, gsn_foldl, gsn_foldl1, gsn_ite1, implies_true, ite_self, gsn_State_applyRegion]; done)
    | with_reducible rfl
    | split
theorem gsn_State_putOverflow (x0 : State) (x1 : Image) : (State.putOverflow x0 x1).gong.gsn = x0.gong.gsn := by
  simp only [State.putOverflow, gsn_ite, ite_self]
theorem gsn_State_putPorts (x0 : State) (x1 : Image) : (State.putPorts x0 x1).gong.gsn = x0.gong.gsn := by
  unfold State.putPorts
  repeat' first
    | (simp only [gsn_ite, gsn_foldl, gsn_foldl1, gsn_ite1, implies_true, ite_self, gsn_State_setSport]; done)
    | with_reducible rfl
    | split
theorem gsn_State_clearSignallers (x0 : State) : (State.clearSignallers x0).gong.gsn = x0.gong.gsn := by
  simp only [State.clearSignallers, gsn_ite, ite_self]
theorem gsn_State_commitImage (x0 : State) (x1 : Image) : (State.commitImage x0 x1).gong.gsn = x0.gong.gsn := by
  simp only [State.commitImage, gsn_ite, ite_self, gsn_State_putQueues, gsn_State_putPartitions, gsn_State_putSafety, gsn_State_putChannels, gsn_State_putGong, gsn_State_putSync, gsn_State_putRoutes, gsn_State_putMap, gsn_State_resetRecs, gsn_State_putHistory, gsn_State_evt, gsn_State_setReady, gsn_State_putPeals, gsn_State_putRings, gsn_State_putPower, gsn_State_putOverflow, gsn_State_putPorts, gsn_State_clearSignallers]
theorem gsn_State_commit (x0 : State) (x1 : Image) : (State.commit x0 x1).gong.gsn = x0.gong.gsn := by
  simp only [State.commit, gsn_ite, ite_self, gsn_State_commitImage]
theorem gsn_State_tryCommit (x0 : State) : (State.tryCommit x0).gong.gsn = x0.gong.gsn := by
  unfold State.tryCommit
  repeat' first
    | (simp only [gsn_ite, gsn_foldl, gsn_foldl1, gsn_ite1, implies_true, ite_self, gsn_State_evt, gsn_State_commit]; done)
    | with_reducible rfl
    | split
theorem gsn_State_commitIdle (s : State) (im : Image) (k : State → State) (hk : ∀ s, (k s).gong.gsn = s.gong.gsn) : (s.commitIdle im k).gong.gsn = s.gong.gsn := by
  unfold State.commitIdle
  split
  · exact hk _
  · exact gsn_State_putGong _ _
theorem gsn_State_arm (s : State) : (s.arm).gong.gsn = s.gong.gsn := by
  unfold State.arm
  split
  · rfl
  · simp only []
    split
    · rfl
    · exact gsn_State_commitIdle _ _ _ (fun s => gsn_State_tryCommit s)
theorem gsn_State_writeBulk (x0 : State) (x1 : Section) (x2 : List Byte) : (State.writeBulk x0 x1 x2).gong.gsn = x0.gong.gsn := by
  simp only [State.writeBulk, gsn_ite, ite_self, gsn_State_setSeq]
theorem gsn_State_writeBulks (l : List Section) (s : State) : (State.writeBulks s l).1.gong.gsn = s.gong.gsn := by
  induction l generalizing s with
  | nil => rfl
  | cons x l ih =>
    unfold State.writeBulks; simp only []
    split
    · exact (ih _).trans (gsn_State_writeBulk _ _ _)
    · exact gsn_State_writeBulk _ _ _
theorem gsn_State_loadDone (x0 : State) : (State.loadDone x0).gong.gsn = x0.gong.gsn := by
  unfold State.loadDone
  repeat' first
    | (simp only [gsn_ite, gsn_foldl, gsn_foldl1, gsn_ite1, implies_true, ite_self, gsn_State_cfgPhase, gsn_State_loadFail, gsn_State_arm, gsn_State_writeBulks, gsn_State_cfgLoadRec]; done)
    | with_reducible rfl
    | split
theorem gsn_State_wipe (x0 : State) (x1 : Bool) : (State.wipe x0 x1).gong.gsn = x0.gong.gsn := by
  simp only [State.wipe, gsn_ite, ite_self]
theorem gsn_State_mbist (x0 : State) (x1 : BitVec 18) (x2 : Bool) (x3 : Bool) : (State.mbist x0 x1 x2 x3).gong.gsn = x0.gong.gsn := by
  simp only [State.mbist, gsn_ite, ite_self, gsn_State_wipe]
theorem gsn_State_releaseTo (x0 : State) (x1 : ℕ) (x2 : ℕ) : (State.releaseTo x0 x1 x2).gong.gsn = x0.gong.gsn := by
  unfold State.releaseTo
  repeat' first
    | (simp only [gsn_ite, gsn_foldl, gsn_foldl1, gsn_ite1, implies_true, ite_self, gsn_State_onLc, gsn_State_onCtx]; done)
    | with_reducible rfl
    | split
theorem gsn_State_lateReleases (x0 : State) (x1 : ℕ) : (State.lateReleases x0 x1).gong.gsn = x0.gong.gsn := by
  unfold State.lateReleases
  repeat' first
    | (simp only [gsn_ite, gsn_foldl, gsn_foldl1, gsn_ite1, implies_true, ite_self, gsn_State_releaseTo]; done)
    | with_reducible rfl
    | split
theorem gsn_State_rstPass (x0 : State) : (State.rstPass x0).gong.gsn = x0.gong.gsn := by
  simp only [State.rstPass, gsn_ite, ite_self, gsn_State_evt]
theorem gsn_State_rstCheck (x0 : State) : (State.rstCheck x0).gong.gsn = x0.gong.gsn := by
  simp only [State.rstCheck, gsn_ite, ite_self, gsn_State_rstPass]
theorem gsn_State_blockReset (x0 : State) (x1 : ℕ) : (State.blockReset x0 x1).gong.gsn = x0.gong.gsn := by
  unfold State.blockReset
  repeat' first
    | (simp only [gsn_ite, gsn_foldl, gsn_foldl1, gsn_ite1, implies_true, ite_self, gsn_State_strobesOff, gsn_State_setCore, gsn_State_rstCheck]; done)
    | with_reducible rfl
    | split
theorem gsn_State_smReset (x0 : State) (x1 : ℕ) : (State.smReset x0 x1).gong.gsn = x0.gong.gsn := by
  simp only [State.smReset, gsn_ite, ite_self, gsn_State_blockReset]
theorem gsn_State_lockstepRec (x0 : State) (x1 : ℕ) (x2 : ℕ) (x3 : ℕ) (x4 : ℕ) : (State.lockstepRec x0 x1 x2 x3 x4).gong.gsn = x0.gong.gsn := by
  simp only [State.lockstepRec, gsn_ite, ite_self, gsn_State_evt]
theorem gsn_State_pairEnd (x0 : State) (x1 : ℕ) (x2 : Bool) (x3 : Bool) : (State.pairEnd x0 x1 x2 x3).gong.gsn = x0.gong.gsn := by
  simp only [State.pairEnd, gsn_ite, ite_self, gsn_State_lateReleases, gsn_State_smReset, gsn_State_lockstepRec]
theorem gsn_State_partApply (x0 : State) (x1 : ℕ) (x2 : ℕ) (x3 : ℕ) : (State.partApply x0 x1 x2 x3).gong.gsn = x0.gong.gsn := by
  simp only [State.partApply, gsn_ite, ite_self, gsn_State_setPart]
theorem gsn_State_pairTake (x0 : State) (x1 : PairId) (x2 : ℕ) (x3 : ℕ) : (State.pairTake x0 x1 x2 x3).gong.gsn = x0.gong.gsn := by
  unfold State.pairTake
  repeat' first
    | (simp only [gsn_ite, gsn_foldl, gsn_foldl1, gsn_ite1, implies_true, ite_self, gsn_State_setQueue, gsn_State_applyRegion, gsn_State_partApply, gsn_State_setPeal, gsn_State_evt]; done)
    | with_reducible rfl
    | split
theorem gsn_State_setPair (x0 : State) (x1 : PairId) (x2 : PairLatch) : (State.setPair x0 x1 x2).gong.gsn = x0.gong.gsn := by
  simp only [State.setPair, gsn_ite, ite_self]
theorem gsn_State_applyPair (x0 : State) (x1 : PairId) : (State.applyPair x0 x1).gong.gsn = x0.gong.gsn := by
  unfold State.applyPair
  repeat' first
    | (simp only [gsn_ite, gsn_foldl, gsn_foldl1, gsn_ite1, implies_true, ite_self, gsn_State_pairTake, gsn_State_evt, gsn_State_setPair]; done)
    | with_reducible rfl
    | split
theorem gsn_State_pairNow (x0 : State) (x1 : PairId) : (State.pairNow x0 x1).gong.gsn = x0.gong.gsn := by
  simp only [State.pairNow, gsn_ite, ite_self, gsn_State_applyPair]
theorem gsn_State_probe (x0 : State) (x1 : ℕ) (x2 : Bool) : (State.probe x0 x1 x2).gong.gsn = x0.gong.gsn := by
  simp only [State.probe, gsn_ite, ite_self, gsn_State_missWindow, gsn_State_onCore]
theorem gsn_State_ptestRec (x0 : State) (x1 : ℕ) (x2 : ℕ) (x3 : ℕ) : (State.ptestRec x0 x1 x2 x3).gong.gsn = x0.gong.gsn := by
  simp only [State.ptestRec, gsn_ite, ite_self, gsn_State_evt]
theorem gsn_State_raiseDet (x0 : State) (x1 : ℕ) : (State.raiseDet x0 x1).gong.gsn = x0.gong.gsn := by
  simp only [State.raiseDet, gsn_ite, ite_self]
theorem gsn_State_ptestBad (x0 : State) (x1 : ℕ × Option ℕ) : (State.ptestBad x0 x1).gong.gsn = x0.gong.gsn := by
  unfold State.ptestBad
  repeat' first
    | (simp only [gsn_ite, gsn_foldl, gsn_foldl1, gsn_ite1, implies_true, ite_self, gsn_State_knell, gsn_State_ptestRec, gsn_State_raiseDet]; done)
    | with_reducible rfl
    | split
theorem gsn_State_ptest (x0 : State) (x1 : List (ℕ × Option ℕ)) : (State.ptest x0 x1).gong.gsn = x0.gong.gsn := by
  unfold State.ptest
  repeat' first
    | (simp only [gsn_ite, gsn_foldl, gsn_foldl1, gsn_ite1, implies_true, ite_self, gsn_State_ptestBad, gsn_State_ptestRec]; done)
    | with_reducible rfl
    | split
theorem gsn_State_portRec (x0 : State) (x1 : ℕ) : (State.portRec x0 x1).gong.gsn = x0.gong.gsn := by
  simp only [State.portRec, gsn_ite, ite_self, gsn_State_evt]
theorem gsn_State_lockRec (x0 : State) : (State.lockRec x0).gong.gsn = x0.gong.gsn := by
  simp only [State.lockRec, gsn_ite, ite_self, gsn_State_evt]
theorem gsn_State_unlock (x0 : State) : (State.unlock x0).gong.gsn = x0.gong.gsn := by
  simp only [State.unlock, gsn_ite, ite_self, gsn_State_lockRec]
theorem gsn_State_pulseLate (x0 : State) : (State.pulseLate x0).gong.gsn = x0.gong.gsn := by
  unfold State.pulseLate
  repeat' first
    | (simp only [gsn_ite, gsn_foldl, gsn_foldl1, gsn_ite1, implies_true, ite_self, gsn_State_timeFault, gsn_State_portRec, gsn_State_unlock]; done)
    | with_reducible rfl
    | split
theorem gsn_State_pump (x0 : State) : (State.pump x0).gong.gsn = x0.gong.gsn := by
  unfold State.pump
  repeat' first
    | (simp only [gsn_ite, gsn_foldl, gsn_foldl1, gsn_ite1, implies_true, ite_self, gsn_State_tryReq]; done)
    | with_reducible rfl
    | split
theorem gsn_State_quiesceCheck (x0 : State) : (State.quiesceCheck x0).gong.gsn = x0.gong.gsn := by
  simp only [State.quiesceCheck, gsn_ite, ite_self, gsn_State_evt]
theorem gsn_State_putLimny (x0 : State) (x1 : List Byte) : (State.putLimny x0 x1).gong.gsn = x0.gong.gsn := by
  unfold State.putLimny
  repeat' first
    | (simp only [gsn_ite, gsn_foldl, gsn_foldl1, gsn_ite1, implies_true, ite_self, gsn_State_setSeq]; done)
    | with_reducible rfl
    | split
theorem gsn_State_limnyCheck (x0 : State) : (State.limnyCheck x0).gong.gsn = x0.gong.gsn := by
  simp only [State.limnyCheck, gsn_ite, ite_self, gsn_State_failStart, gsn_State_putLimny]
theorem gsn_State_bootProgress (x0 : State) : (State.bootProgress x0).gong.gsn = x0.gong.gsn := by
  unfold State.bootProgress
  repeat' first
    | (simp only [gsn_ite, gsn_foldl, gsn_foldl1, gsn_ite1, implies_true, ite_self, gsn_State_limnyCheck, gsn_State_bootFetch, gsn_State_failStart]; done)
    | with_reducible rfl
    | split
theorem gsn_State_headerRead (x0 : State) : (State.headerRead x0).gong.gsn = x0.gong.gsn := by
  simp only [State.headerRead, gsn_ite, ite_self, gsn_State_cfgPhase, gsn_State_loadFail, gsn_State_cfgFetch]
theorem gsn_State_verifyAndFit (x0 : State) (x1 : Image) (x2 : Bool) : (State.verifyAndFit x0 x1 x2).gong.gsn = x0.gong.gsn := by
  unfold State.verifyAndFit
  repeat' first
    | (simp only [gsn_ite, gsn_foldl, gsn_foldl1, gsn_ite1, implies_true, ite_self, gsn_State_cfgPhase, gsn_State_loadFail, gsn_State_cfgFetch]; done)
    | with_reducible rfl
    | split
theorem gsn_State_imageRead (x0 : State) : (State.imageRead x0).gong.gsn = x0.gong.gsn := by
  simp only [State.imageRead, gsn_ite, ite_self, gsn_State_loadFail, gsn_State_verifyAndFit]
theorem gsn_State_cfgProgress (x0 : State) : (State.cfgProgress x0).gong.gsn = x0.gong.gsn := by
  simp only [State.cfgProgress, gsn_ite, ite_self, gsn_State_loadFail, gsn_State_headerRead, gsn_State_imageRead]
theorem gsn_State_afterPort (x0 : State) : (State.afterPort x0).gong.gsn = x0.gong.gsn := by
  simp only [State.afterPort, gsn_ite, ite_self, gsn_State_pump, gsn_State_ringsGo, gsn_State_quiesceCheck, gsn_State_eventsGo, gsn_State_bootProgress, gsn_State_rstCheck, gsn_State_cfgProgress, gsn_State_prefetch]
theorem gsn_State_quiesceDown (x0 : State) : (State.quiesceDown x0).gong.gsn = x0.gong.gsn := by
  simp only [State.quiesceDown, gsn_ite, ite_self, gsn_State_afterPort]
theorem gsn_State_quiesceUp (x0 : State) : (State.quiesceUp x0).gong.gsn = x0.gong.gsn := by
  simp only [State.quiesceUp, gsn_ite, ite_self, gsn_State_quiesceCheck]
theorem gsn_State_deferReq (x0 : State) (x1 : PReq) (x2 : ℕ) : (State.deferReq x0 x1 x2).gong.gsn = x0.gong.gsn := by
  simp only [State.deferReq, gsn_ite, ite_self, gsn_State_unack, gsn_State_onReq]
theorem gsn_State_agentFault (x0 : State) (x1 : PReq) : (State.agentFault x0 x1).gong.gsn = x0.gong.gsn := by
  simp only [State.agentFault, gsn_ite, ite_self, gsn_State_unack, gsn_State_faultReq, gsn_State_unlearn]
theorem gsn_State_finalError (x0 : State) (x1 : PReq) (x2 : ℕ) (x3 : ℕ) : (State.finalError x0 x1 x2 x3).gong.gsn = x0.gong.gsn := by
  simp only [State.finalError, gsn_ite, ite_self, gsn_State_lastFault, gsn_State_mpFault, gsn_State_setMport]
theorem gsn_State_noteRtt (x0 : State) (x1 : PReq) : (State.noteRtt x0 x1).gong.gsn = x0.gong.gsn := by
  unfold State.noteRtt
  repeat' first
    | (simp only [gsn_ite, gsn_foldl, gsn_foldl1, gsn_ite1, implies_true, ite_self, gsn_State_fresh, gsn_State_setChan]; done)
    | with_reducible rfl
    | split
theorem gsn_State_readDone (x0 : State) (x1 : PReq) (x2 : ℕ) : (State.readDone x0 x1 x2).gong.gsn = x0.gong.gsn := by
  unfold State.readDone
  repeat' first
    | (simp only [gsn_ite, gsn_foldl, gsn_foldl1, gsn_ite1, implies_true, ite_self, gsn_State_dropReq, gsn_State_portGhost, gsn_State_deferReq, gsn_State_agentFault, gsn_State_finalError, gsn_State_noteRtt, gsn_State_deliver]; done)
    | with_reducible rfl
    | split
theorem gsn_State_readBeat (x0 : State) (x1 : PReq) (x2 : ℕ) (x3 : List Byte) (x4 : Resp) (x5 : BitVec 2) (x6 : Bool) : (State.readBeat x0 x1 x2 x3 x4 x5 x6).gong.gsn = x0.gong.gsn := by
  simp only [State.readBeat, gsn_ite, ite_self, gsn_State_dropReq, gsn_State_violation, gsn_State_readDone, gsn_State_onReq]
theorem gsn_State_lateBack (s s' : State) (port t : Nat) (w : Bool) (h : s.lateBack port t w = some s') : s'.gong.gsn = s.gong.gsn := by
  unfold State.lateBack at h; simp only [] at h; split at h
  · cases h; simp only [gsn_State_setMport]
  · cases h
theorem gsn_State_readData (s : State) (port n : Nat) (data : List Byte) (resp : Resp) (poison : BitVec 2) (last : Bool) :
    (s.readData port n data resp poison last).gong.gsn = s.gong.gsn := by
  unfold State.readData
  split
  · rw [gsn_State_afterPort, gsn_State_readBeat]
  · split
    · rename_i s' h; split
      · rw [gsn_State_afterPort, gsn_State_lateBack _ _ _ _ _ h]
      · rfl
    · exact gsn_State_violation _ _ _
theorem gsn_State_refLate (x0 : State) : (State.refLate x0).gong.gsn = x0.gong.gsn := by
  simp only [State.refLate, gsn_ite, ite_self, gsn_State_report]
theorem gsn_State_refSel (x0 : State) (x1 : Bool) : (State.refSel x0 x1).gong.gsn = x0.gong.gsn := by
  simp only [State.refSel, gsn_ite, ite_self, gsn_State_portRec]
theorem gsn_State_noTarget (x0 : State) (x1 : Master) : (State.noTarget x0 x1).gong.gsn = x0.gong.gsn := by
  simp only [State.noTarget, gsn_ite, ite_self]
theorem gsn_State_resetAccess (x0 : State) : (State.resetAccess x0).gong.gsn = x0.gong.gsn := by
  simp only [State.resetAccess, gsn_ite, ite_self, gsn_State_noTarget]
theorem gsn_State_resumeDone (s : State) : (s.resumeDone).1.gong.gsn = s.gong.gsn := by
  unfold State.resumeDone
  split
  · rfl
  · split
    · rfl
    · simp only []
      split
      · exact gsn_State_cfgPhase s 0
      · split
        · rfl
        · split
          · exact (gsn_State_cfgPhase (s.writeBulks _).1 0).trans (gsn_State_writeBulks _ _)
          · exact (gsn_State_commitIdle _ _ _ (fun s => gsn_State_commitImage s _)).trans ((gsn_State_cfgPhase _ _).trans (gsn_State_writeBulks _ _))
theorem gsn_State_resumeEnd (s : State) : (s.resumeEnd).gong.gsn = s.gong.gsn := by
  unfold State.resumeEnd
  have h0 := gsn_State_resumeDone s
  split
  · split
    · rename_i a code h; rw [h] at h0; exact (gsn_State_failStart _ _ _).trans h0
    · rename_i a h; rw [h] at h0; exact h0
  · rfl
theorem gsn_State_retryNow (x0 : State) (x1 : ℕ) (x2 : ℕ) : (State.retryNow x0 x1 x2).gong.gsn = x0.gong.gsn := by
  unfold State.retryNow
  repeat' first
    | (simp only [gsn_ite, gsn_foldl, gsn_foldl1, gsn_ite1, implies_true, ite_self, gsn_State_tryReq, gsn_State_onReq, gsn_State_setMport]; done)
    | with_reducible rfl
    | split
theorem gsn_State_pop (x0 : State) (x1 : ℕ) (x2 : Bool) : (State.pop x0 x1 x2).1.gong.gsn = x0.gong.gsn := by
  unfold State.pop
  repeat' first
    | (simp only [gsn_ite, gsn_foldl, gsn_foldl1, gsn_ite1, implies_true, ite_self, gsn_State_setQueue, gsn_State_fresh]; done)
    | with_reducible rfl
    | (simp only [gsn_ite, gsn_foldl, gsn_foldl1, gsn_ite1, implies_true, ite_self, gsn_State_setQueue, gsn_State_fresh])
    | split
    | (refine (gsn_foldl _ _ _ ?_).trans ?_ <;> try intro _ _)
    | (refine (gsn_foldl1 _ _ _ ?_).trans ?_ <;> try intro _ _)
    | (refine (gsn_State_commitIdle _ _ _ ?_).trans ?_ <;> try intros)
theorem gsn_State_ringCopy (s : State) (r : Nat) : (s.ringCopy r).gong.gsn = s.gong.gsn := by
  unfold State.ringCopy; simp only []
  split
  · rfl
  · have hp := gsn_State_pop s (s.ring r).queue false
    split
    · rename_i a w h; rw [h] at hp; exact hp
    · rename_i a hd side h; rw [h] at hp
      split
      · rw [gsn_State_staleFault]; exact hp
      · split
        · exact (gsn_foldl _ _ _ (fun _ _ => gsn_State_newReq _ _ _ _ _ _ _ _ _)).trans ((gsn_State_setRing _ _ _).trans hp)
        · rw [gsn_State_ringBuffer, gsn_State_setRing]; exact hp
theorem gsn_State_ringPoll (x0 : State) (x1 : ℕ) : (State.ringPoll x0 x1).gong.gsn = x0.gong.gsn := by
  simp only [State.ringPoll, gsn_ite, ite_self, gsn_State_ringAccess, gsn_State_ringGo, gsn_State_setRing]
theorem gsn_State_answer (s : State) (who : Requester) (beat : PReq → List Byte) : (s.answer who beat).gong.gsn = s.gong.gsn := by
  unfold State.answer
  split
  · split
    · exact gsn_State_readData ..
    · rfl
  · rfl
theorem gsn_State_ringAnswer (s : State) (r : Nat) (index : Option Word) (descs : List (List Byte)) :
    (s.ringAnswer r index descs).gong.gsn = s.gong.gsn := by
  unfold State.ringAnswer
  refine (gsn_foldl _ _ _ (fun s d => gsn_State_answer ..)).trans ?_
  cases index <;> simp only [gsn_State_answer]
theorem gsn_State_requestRows (x0 : State) (x1 : ℕ) (x2 : ℕ) : (State.requestRows x0 x1 x2).gong.gsn = x0.gong.gsn := by
  unfold State.requestRows
  repeat' first
    | (simp only [gsn_ite, gsn_foldl, gsn_foldl1, gsn_ite1, implies_true, ite_self, gsn_State_newReq]; done)
    | with_reducible rfl
    | (simp only [gsn_ite, gsn_foldl, gsn_foldl1, gsn_ite1, implies_true, ite_self, gsn_State_newReq])
    | split
    | (refine (gsn_foldl _ _ _ ?_).trans ?_ <;> try intro _ _)
    | (refine (gsn_foldl1 _ _ _ ?_).trans ?_ <;> try intro _ _)
    | (refine (gsn_State_commitIdle _ _ _ ?_).trans ?_ <;> try intros)
theorem gsn_State_rowReturn (x0 : State) (x1 : ℕ) (x2 : ℕ) (x3 : ℕ) : (State.rowReturn x0 x1 x2 x3).gong.gsn = x0.gong.gsn := by
  unfold State.rowReturn
  repeat' first
    | (simp only [gsn_ite, gsn_foldl, gsn_foldl1, gsn_ite1, implies_true, ite_self, gsn_State_cachePut, gsn_State_requestRows, gsn_State_onFlight]; done)
    | with_reducible rfl
    | (simp only [gsn_ite, gsn_foldl, gsn_foldl1, gsn_ite1, implies_true, ite_self, gsn_State_cachePut, gsn_State_requestRows, gsn_State_onFlight])
    | split
    | (refine (gsn_foldl _ _ _ ?_).trans ?_ <;> try intro _ _)
    | (refine (gsn_foldl1 _ _ _ ?_).trans ?_ <;> try intro _ _)
    | (refine (gsn_State_commitIdle _ _ _ ?_).trans ?_ <;> try intros)
theorem gsn_State_rstLate (x0 : State) : (State.rstLate x0).gong.gsn = x0.gong.gsn := by
  unfold State.rstLate
  repeat' first
    | (simp only [gsn_ite, gsn_foldl, gsn_foldl1, gsn_ite1, implies_true, ite_self, gsn_State_dropReq, gsn_State_mpFault, gsn_State_rstPass, gsn_State_setMport]; done)
    | with_reducible rfl
    | (simp only [gsn_ite, gsn_foldl, gsn_foldl1, gsn_ite1, implies_true, ite_self, gsn_State_dropReq, gsn_State_mpFault, gsn_State_rstPass, gsn_State_setMport])
    | split
    | (refine (gsn_foldl _ _ _ ?_).trans ?_ <;> try intro _ _)
    | (refine (gsn_foldl1 _ _ _ ?_).trans ?_ <;> try intro _ _)
    | (refine (gsn_State_commitIdle _ _ _ ?_).trans ?_ <;> try intros)
theorem gsn_State_sampleTemp (x0 : State) (x1 : ℕ) : (State.sampleTemp x0 x1).gong.gsn = x0.gong.gsn := by
  simp only [State.sampleTemp, gsn_ite, ite_self, gsn_State_report, gsn_State_setRegion]
theorem gsn_State_samplePair (x0 : State) (x1 : ℕ) (x2 : ℕ) (x3 : ℕ) : (State.samplePair x0 x1 x2 x3).gong.gsn = x0.gong.gsn := by
  simp only [State.samplePair, gsn_ite, ite_self, gsn_State_onRegion, gsn_State_forceDown]
theorem gsn_State_sample (x0 : State) (x1 : List ℤ) : (State.sample x0 x1).gong.gsn = x0.gong.gsn := by
  unfold State.sample
  repeat' first
    | (simp only [gsn_ite, gsn_foldl, gsn_foldl1, gsn_ite1, implies_true, ite_self, gsn_State_onRegion, gsn_State_sampleTemp, gsn_State_samplePair]; done)
    | with_reducible rfl
    | (simp only [gsn_ite, gsn_foldl, gsn_foldl1, gsn_ite1, implies_true, ite_self, gsn_State_onRegion, gsn_State_sampleTemp, gsn_State_samplePair])
    | split
    | (refine (gsn_foldl _ _ _ ?_).trans ?_ <;> try intro _ _)
    | (refine (gsn_foldl1 _ _ _ ?_).trans ?_ <;> try intro _ _)
    | (refine (gsn_State_commitIdle _ _ _ ?_).trans ?_ <;> try intros)
theorem gsn_State_scrub (x0 : State) (x1 : MemKind) (x2 : ℕ) (x3 : WordClass) : (State.scrub x0 x1 x2 x3).gong.gsn = x0.gong.gsn := by
  unfold State.scrub
  repeat' first
    | (simp only [gsn_ite, gsn_foldl, gsn_foldl1, gsn_ite1, implies_true, ite_self, gsn_State_markWord, gsn_State_report]; done)
    | with_reducible rfl
    | split
theorem gsn_State_reserve (x0 : State) (x1 : ℕ) (x2 : ℕ) : (State.reserve x0 x1 x2).gong.gsn = x0.gong.gsn := by
  unfold State.reserve
  repeat' first
    | (simp only [gsn_ite, gsn_foldl, gsn_foldl1, gsn_ite1, implies_true, ite_self, gsn_State_setQueue]; done)
    | with_reducible rfl
    | split
theorem gsn_State_sinPush (x0 : State) (x1 : ℕ) (x2 : SinRecv) : (State.sinPush x0 x1 x2).gong.gsn = x0.gong.gsn := by
  simp only [State.sinPush, gsn_ite, ite_self, gsn_State_setSport, gsn_State_push]
theorem gsn_State_sinGiveUp (x0 : State) (x1 : ℕ) (x2 : SinRecv) (x3 : Bool) : (State.sinGiveUp x0 x1 x2 x3).gong.gsn = x0.gong.gsn := by
  simp only [State.sinGiveUp, gsn_ite, ite_self, gsn_State_setSport, gsn_State_streamFault, gsn_State_unreserve, gsn_State_dropRef]
theorem gsn_State_sinFilled (x0 : State) (x1 : ℕ) (x2 : SinRecv) : (State.sinFilled x0 x1 x2).gong.gsn = x0.gong.gsn := by
  simp only [State.sinFilled, gsn_ite, ite_self, gsn_State_setSport, gsn_State_setBuffer]
theorem gsn_State_takeBuffers (x0 : State) (x1 : ℕ) (x2 : ℕ) : (State.takeBuffers x0 x1 x2).1.gong.gsn = x0.gong.gsn := by
  unfold State.takeBuffers
  repeat' first
    | (simp only [gsn_ite, gsn_foldl, gsn_foldl1, gsn_ite1, implies_true, ite_self, gsn_State_setPart, gsn_State_setBuffer]; done)
    | with_reducible rfl
    | split
theorem gsn_State_sinBeat (x0 : State) (x1 : ℕ) : (State.sinBeat x0 x1).gong.gsn = x0.gong.gsn := by
  unfold State.sinBeat
  repeat' first
    | (simp only [gsn_ite, gsn_foldl, gsn_foldl1, gsn_ite1, implies_true, ite_self, gsn_State_setSport, gsn_State_streamFault, gsn_State_reserve, gsn_State_sinPush, gsn_State_sinGiveUp, gsn_State_sinFilled, gsn_State_takeBuffers]; done)
    | with_reducible rfl
    | (simp only [gsn_ite, gsn_foldl, gsn_foldl1, gsn_ite1, implies_true, ite_self, gsn_State_setSport, gsn_State_streamFault, gsn_State_reserve, gsn_State_sinPush, gsn_State_sinGiveUp, gsn_State_sinFilled, gsn_State_takeBuffers])
    | split
    | (refine (gsn_foldl _ _ _ ?_).trans ?_ <;> try intro _ _)
    | (refine (gsn_foldl1 _ _ _ ?_).trans ?_ <;> try intro _ _)
    | (refine (gsn_State_commitIdle _ _ _ ?_).trans ?_ <;> try intros)
theorem gsn_State_sinDrain (x0 x1 : Nat) (x2 : State) : (State.sinDrain x0 x1 x2).gong.gsn = x2.gong.gsn := by
  induction x1 generalizing x2 with
  | zero => rfl
  | succ n ih => exact (ih _).trans (gsn_State_sinBeat _ _)
theorem gsn_State_sinAgain (x0 : State) (x1 : ℕ) : (State.sinAgain x0 x1).gong.gsn = x0.gong.gsn := by
  unfold State.sinAgain
  repeat' first
    | (simp only [gsn_ite, gsn_foldl, gsn_foldl1, gsn_ite1, implies_true, ite_self, gsn_State_sinPush]; done)
    | with_reducible rfl
    | split
theorem gsn_State_sinPump (x0 : State) : (State.sinPump x0).gong.gsn = x0.gong.gsn := by
  unfold State.sinPump
  repeat' first
    | (simp only [gsn_ite, gsn_foldl, gsn_foldl1, gsn_ite1, implies_true, ite_self, gsn_State_sinDrain, gsn_State_sinAgain]; done)
    | with_reducible rfl
    | split
theorem gsn_State_sinArrive (x0 : State) (x1 : ℕ) (x2 : List Byte) (x3 : Bool) : (State.sinArrive x0 x1 x2 x3).gong.gsn = x0.gong.gsn := by
  simp only [State.sinArrive, gsn_ite, ite_self, gsn_State_setSport, gsn_State_streamFault, gsn_State_sinPump]
theorem gsn_State_sinFrame (x0 : State) (x1 : ℕ) (x2 : SinFrame) : (State.sinFrame x0 x1 x2).gong.gsn = x0.gong.gsn := by
  unfold State.sinFrame
  repeat' first
    | (simp only [gsn_ite, gsn_foldl, gsn_foldl1, gsn_ite1, implies_true, ite_self, gsn_State_wake, gsn_State_sinArrive]; done)
    | with_reducible rfl
    | split
theorem gsn_State_solveComplete (x0 : State) (x1 : ℕ) (x2 : ℕ) : (State.solveComplete x0 x1 x2).gong.gsn = x0.gong.gsn := by
  unfold State.solveComplete
  repeat' first
    | (simp only [gsn_ite, gsn_foldl, gsn_foldl1, gsn_ite1, implies_true, ite_self, gsn_State_evt, gsn_State_onCore]; done)
    | with_reducible rfl
    | (simp only [gsn_ite, gsn_foldl, gsn_foldl1, gsn_ite1, implies_true, ite_self, gsn_State_evt, gsn_State_onCore])
    | split
    | (refine (gsn_foldl _ _ _ ?_).trans ?_ <;> try intro _ _)
    | (refine (gsn_foldl1 _ _ _ ?_).trans ?_ <;> try intro _ _)
    | (refine (gsn_State_commitIdle _ _ _ ?_).trans ?_ <;> try intros)
theorem gsn_State_soutSend (x0 : State) (x1 : ℕ) : (State.soutSend x0 x1).gong.gsn = x0.gong.gsn := by
  unfold State.soutSend
  repeat' first
    | (simp only [gsn_ite, gsn_foldl, gsn_foldl1, gsn_ite1, implies_true, ite_self, gsn_State_setSport, gsn_State_releaseHandle]; done)
    | with_reducible rfl
    | (simp only [gsn_ite, gsn_foldl, gsn_foldl1, gsn_ite1, implies_true, ite_self, gsn_State_setSport, gsn_State_releaseHandle])
    | split
    | (refine (gsn_foldl _ _ _ ?_).trans ?_ <;> try intro _ _)
    | (refine (gsn_foldl1 _ _ _ ?_).trans ?_ <;> try intro _ _)
    | (refine (gsn_State_commitIdle _ _ _ ?_).trans ?_ <;> try intros)
theorem gsn_State_soutCredit (x0 : State) (x1 : ℕ) (x2 : ℕ) : (State.soutCredit x0 x1 x2).gong.gsn = x0.gong.gsn := by
  simp only [State.soutCredit, gsn_ite, ite_self, gsn_State_setSport, gsn_State_soutSend]
theorem gsn_State_soutFetch (x0 : State) (x1 : ℕ) (x2 : OutFrame) : (State.soutFetch x0 x1 x2).gong.gsn = x0.gong.gsn := by
  unfold State.soutFetch
  repeat' first
    | (simp only [gsn_ite, gsn_foldl, gsn_foldl1, gsn_ite1, implies_true, ite_self, gsn_State_newReq]; done)
    | with_reducible rfl
    | split
theorem gsn_State_soutTake (s : State) (k : Nat) : (s.soutTake k).gong.gsn = s.gong.gsn := by
  unfold State.soutTake; simp only []
  split
  · rfl
  · rename_i sel l hs
    have hp := gsn_State_pop s (((s.sport k).selQueue sel).getD 0) false
    split
    · rename_i a w h; rw [h] at hp; exact hp
    · rename_i a hd side h; rw [h] at hp
      split
      · rw [gsn_State_staleFault]; exact hp
      · split
        · rw [gsn_State_soutFetch, gsn_State_setSport]; exact hp
        · rw [gsn_State_setSport]; exact hp
theorem gsn_State_soutFrame (x0 : State) (x1 : ℕ) : (State.soutFrame x0 x1).gong.gsn = x0.gong.gsn := by
  simp only [State.soutFrame, gsn_ite, ite_self, gsn_State_soutSend, gsn_State_soutTake]
theorem gsn_State_spillEnd (x0 : State) (x1 : ℕ) (x2 : ℕ) : (State.spillEnd x0 x1 x2).gong.gsn = x0.gong.gsn := by
  unfold State.spillEnd
  repeat' first
    | (simp only [gsn_ite, gsn_foldl, gsn_foldl1, gsn_ite1, implies_true, ite_self, gsn_State_abortOne, gsn_State_dropReq, gsn_State_setBuffer, gsn_State_evt, gsn_State_dropRef, gsn_State_onEntry]; done)
    | with_reducible rfl
    | (simp only [gsn_ite, gsn_foldl, gsn_foldl1, gsn_ite1, implies_true, ite_self, gsn_State_abortOne, gsn_State_dropReq, gsn_State_setBuffer, gsn_State_evt, gsn_State_dropRef, gsn_State_onEntry])
    | split
    | (refine (gsn_foldl _ _ _ ?_).trans ?_ <;> try intro _ _)
    | (refine (gsn_foldl1 _ _ _ ?_).trans ?_ <;> try intro _ _)
    | (refine (gsn_State_commitIdle _ _ _ ?_).trans ?_ <;> try intros)
theorem gsn_State_srpEnd (x0 : State) : (State.srpEnd x0).gong.gsn = x0.gong.gsn := by
  simp only [State.srpEnd, gsn_ite, ite_self]
theorem gsn_State_srpRec (x0 : State) (x1 : ℕ) (x2 : ℕ) : (State.srpRec x0 x1 x2).gong.gsn = x0.gong.gsn := by
  simp only [State.srpRec, gsn_ite, ite_self, gsn_State_evt]
theorem gsn_State_srpAnswer (x0 : State) (x1 : BitVec 2) (x2 : Bool) : (State.srpAnswer x0 x1 x2).gong.gsn = x0.gong.gsn := by
  simp only [State.srpAnswer, gsn_ite, ite_self, gsn_State_srpEnd, gsn_State_srpRec]
theorem gsn_State_srpLate (x0 : State) : (State.srpLate x0).gong.gsn = x0.gong.gsn := by
  simp only [State.srpLate, gsn_ite, ite_self, gsn_State_srpEnd, gsn_State_report, gsn_State_srpRec]
theorem gsn_State_minimal (x0 : State) : (State.minimal x0).gong.gsn = x0.gong.gsn := by
  unfold State.minimal
  repeat' first
    | (simp only [gsn_ite, gsn_foldl, gsn_foldl1, gsn_ite1, implies_true, ite_self, gsn_State_onRegion, gsn_State_endStart]; done)
    | with_reducible rfl
    | split
theorem gsn_State_startEntry (x0 : State) (x1 : ℕ) (x2 : KeyPort) : (State.startEntry x0 x1 x2).gong.gsn = x0.gong.gsn := by
  simp only [State.startEntry, gsn_ite, ite_self, gsn_State_failStart, gsn_State_quiesceCheck, gsn_State_minimal, gsn_State_romVotes]
theorem gsn_State_stepTimeout (x0 : State) (x1 : ℕ) : (State.stepTimeout x0 x1).gong.gsn = x0.gong.gsn := by
  simp only [State.stepTimeout, gsn_ite, ite_self, gsn_State_report, gsn_State_evt, gsn_State_setRegion]
theorem gsn_State_releaseAt (x0 : State) (x1 : ℕ) : (State.releaseAt x0 x1).gong.gsn = x0.gong.gsn := by
  unfold State.releaseAt
  repeat' first
    | (simp only [gsn_ite, gsn_foldl, gsn_foldl1, gsn_ite1, implies_true, ite_self, gsn_State_releaseTo]; done)
    | with_reducible rfl
    | split
theorem gsn_State_strokesDue (x0 : State) : (State.strokesDue x0).gong.gsn = x0.gong.gsn := by
  unfold State.strokesDue
  repeat' first
    | (simp only [gsn_ite, gsn_foldl, gsn_foldl1, gsn_ite1, implies_true, ite_self, gsn_State_releaseAt]; done)
    | with_reducible rfl
    | split
theorem gsn_State_dropRecord (x0 : State) (x1 : ℕ) : (State.dropRecord x0 x1).gong.gsn = x0.gong.gsn := by
  unfold State.dropRecord
  repeat' first
    | (simp only [gsn_ite, gsn_foldl, gsn_foldl1, gsn_ite1, implies_true, ite_self]; done)
    | with_reducible rfl
    | split
theorem gsn_State_errorStop (x0 : State) (x1 : ℕ) (x2 : Ctx) (x3 : List Word) : (State.errorStop x0 x1 x2 x3).gong.gsn = x0.gong.gsn := by
  simp only [State.errorStop, gsn_ite, ite_self, gsn_State_stopList, gsn_State_abandonRec]
theorem gsn_State_cmdError (x0 : State) (x1 : ℕ) (x2 : Ctx) (x3 : List Word) (x4 : ℕ) : (State.cmdError x0 x1 x2 x3 x4).gong.gsn = x0.gong.gsn := by
  simp only [State.cmdError, gsn_ite, ite_self, gsn_State_errorStop, gsn_State_evt]
theorem gsn_State_stopRecord (x0 : State) (x1 : ℕ) (x2 : ℕ) : (State.stopRecord x0 x1 x2).gong.gsn = x0.gong.gsn := by
  unfold State.stopRecord
  repeat' first
    | (simp only [gsn_ite, gsn_foldl, gsn_foldl1, gsn_ite1, implies_true, ite_self, gsn_State_cmdError]; done)
    | with_reducible rfl
    | (simp only [gsn_ite, gsn_foldl, gsn_foldl1, gsn_ite1, implies_true, ite_self, gsn_State_cmdError])
    | split
    | (refine (gsn_foldl _ _ _ ?_).trans ?_ <;> try intro _ _)
    | (refine (gsn_foldl1 _ _ _ ?_).trans ?_ <;> try intro _ _)
    | (refine (gsn_State_commitIdle _ _ _ ?_).trans ?_ <;> try intros)
theorem gsn_State_atPlace (x0 : State) (x1 : MemKind) (x2 : ℕ) : (State.atPlace x0 x1 x2).gong.gsn = x0.gong.gsn := by
  unfold State.atPlace
  repeat' first
    | (simp only [gsn_ite, gsn_foldl, gsn_foldl1, gsn_ite1, implies_true, ite_self, gsn_State_streamFault, gsn_State_report, gsn_State_dropRecord, gsn_State_stopRecord, gsn_State_onCore]; done)
    | with_reducible rfl
    | split
theorem gsn_State_detectRec (x0 : State) (x1 : Report) (x2 : ℕ) : (State.detectRec x0 x1 x2).gong.gsn = x0.gong.gsn := by
  simp only [State.detectRec, gsn_ite, ite_self, gsn_State_evt]
theorem gsn_State_poisonFor (x0 : State) (x1 : Report) : (State.poisonFor x0 x1).gong.gsn = x0.gong.gsn := by
  unfold State.poisonFor
  repeat' first
    | (simp only [gsn_ite, gsn_foldl, gsn_foldl1, gsn_ite1, implies_true, ite_self, gsn_State_markWord, gsn_State_markFilled]; done)
    | with_reducible rfl
    | split
theorem gsn_State_react (x0 : State) (x1 : Report) (x2 : Bool) : (State.react x0 x1 x2).gong.gsn = x0.gong.gsn := by
  unfold State.react
  repeat' first
    | (simp only [gsn_ite, gsn_foldl, gsn_foldl1, gsn_ite1, implies_true, ite_self, gsn_State_pairStart, gsn_State_atPlace, gsn_State_knell, gsn_State_smReset, gsn_State_detectRec, gsn_State_raiseDet, gsn_State_poisonFor]; done)
    | with_reducible rfl
    | (simp only [gsn_ite, gsn_foldl, gsn_foldl1, gsn_ite1, implies_true, ite_self, gsn_State_pairStart, gsn_State_atPlace, gsn_State_knell, gsn_State_smReset, gsn_State_detectRec, gsn_State_raiseDet, gsn_State_poisonFor])
    | split
    | (refine (gsn_foldl _ _ _ ?_).trans ?_ <;> try intro _ _)
    | (refine (gsn_foldl1 _ _ _ ?_).trans ?_ <;> try intro _ _)
    | (refine (gsn_State_commitIdle _ _ _ ?_).trans ?_ <;> try intros)
theorem gsn_State_takeReport (x0 : State) (x1 : Report) : (State.takeReport x0 x1).gong.gsn = x0.gong.gsn := by
  simp only [State.takeReport, gsn_ite, ite_self, gsn_State_react]
theorem gsn_State_revokeOne (x0 : State) (x1 : ℕ) (x2 : Ctx) : (State.revokeOne x0 x1 x2).1.gong.gsn = x0.gong.gsn := by
  unfold State.revokeOne
  repeat' first
    | (simp only [gsn_ite, gsn_foldl, gsn_foldl1, gsn_ite1, implies_true, ite_self, gsn_State_onCtx, gsn_State_releaseMallet]; done)
    | with_reducible rfl
    | split
theorem gsn_State_throttle (x0 : State) (x1 : Bool) : (State.throttle x0 x1).gong.gsn = x0.gong.gsn := by
  unfold State.throttle
  repeat' first
    | (simp only [gsn_ite, gsn_foldl, gsn_foldl1, gsn_ite1, implies_true, ite_self, gsn_State_evt, gsn_State_revokeOne]; done)
    | with_reducible rfl
    | split
theorem gsn_State_onCnt (x0 : State) (x1 : ℕ) (x2 : CoreCounters → CoreCounters) : (State.onCnt x0 x1 x2).gong.gsn = x0.gong.gsn := by
  simp only [State.onCnt, gsn_ite, ite_self, gsn_State_onCore]
theorem gsn_State_setHist (x0 : State) (x1 : ℕ) (x2 : ℕ) (x3 : Hist) : (State.setHist x0 x1 x2 x3).gong.gsn = x0.gong.gsn := by
  simp only [State.setHist, gsn_ite, ite_self, gsn_State_onLc]
theorem gsn_State_rescale (x0 : State) (x1 : ℕ) (x2 : InFlight) : (State.rescale x0 x1 x2).1.gong.gsn = x0.gong.gsn := by
  simp only [State.rescale, gsn_ite, ite_self, gsn_State_evt, gsn_State_onCnt, gsn_State_setHist]
theorem gsn_State_stampHandle (x0 : State) (x1 : ℕ) (x2 : InFlight) (x3 : List (ℕ × ℕ)) (x4 : ℕ) : (State.stampHandle x0 x1 x2 x3 x4).gong.gsn = x0.gong.gsn := by
  unfold State.stampHandle
  repeat' first
    | (simp only [gsn_ite, gsn_foldl, gsn_foldl1, gsn_ite1, implies_true, ite_self, gsn_State_syncFlags, gsn_State_setBuffer, gsn_State_onCtx]; done)
    | with_reducible rfl
    | split
theorem gsn_State_retire (x0 : State) (x1 : ℕ) (x2 : InFlight) : (State.retire x0 x1 x2).gong.gsn = x0.gong.gsn := by
  simp only [State.retire, gsn_ite, ite_self, gsn_State_releaseMallet, gsn_State_onCore]
theorem gsn_State_unbind (x0 : State) (x1 : HReg) : (State.unbind x0 x1).gong.gsn = x0.gong.gsn := by
  simp only [State.unbind, gsn_ite, ite_self, gsn_State_unreserve]
theorem gsn_State_giveUp (x0 : State) (x1 : ℕ) (x2 : Ctx) (x3 : ℕ) (x4 : HReg) : (State.giveUp x0 x1 x2 x3 x4).gong.gsn = x0.gong.gsn := by
  simp only [State.giveUp, gsn_ite, ite_self, gsn_State_dropLines, gsn_State_onCtx]
theorem gsn_State_pushFrom (x0 : State) (x1 : ℕ) (x2 : Ctx) (x3 : ℕ) (x4 : ℕ) (x5 : ℕ) (x6 : HReg) : (State.pushFrom x0 x1 x2 x3 x4 x5 x6).gong.gsn = x0.gong.gsn := by
  unfold State.pushFrom
  repeat' first
    | (simp only [gsn_ite, gsn_foldl, gsn_foldl1, gsn_ite1, implies_true, ite_self, gsn_State_unbind, gsn_State_giveUp, gsn_State_ghost, gsn_State_push, gsn_State_staleFault]; done)
    | with_reducible rfl
    | (simp only [gsn_ite, gsn_foldl, gsn_foldl1, gsn_ite1, implies_true, ite_self, gsn_State_unbind, gsn_State_giveUp, gsn_State_ghost, gsn_State_push, gsn_State_staleFault])
    | split
    | (refine (gsn_foldl _ _ _ ?_).trans ?_ <;> try intro _ _)
    | (refine (gsn_foldl1 _ _ _ ?_).trans ?_ <;> try intro _ _)
    | (refine (gsn_State_commitIdle _ _ _ ?_).trans ?_ <;> try intros)
theorem gsn_State_cpush (s s' : State) (pc : Nat) (f : InFlight) (h : s.cpush pc f = some s') : s'.gong.gsn = s.gong.gsn := by
  have key : ∀ (l : List Nat) (a : Option State), (∀ x, a = some x → x.gong.gsn = s.gong.gsn) → ∀ x,
      l.foldl (fun (a : Option State) h =>
        match a with
        | none => none
        | some s =>
          match ((s.core pc).ctx f.ctx).hreg h with
          | none => some s
          | some y =>
            let q := recChq f.words
            if (s.staleCode y.handle).isNone && (s.pushWait q (y.heldFor q)).isSome then none
            else some (s.pushFrom pc f.ctx f.list.lc q h y)) a = some x → x.gong.gsn = s.gong.gsn := by
    intro l
    induction l with
    | nil => intro a ha x hx; exact ha x hx
    | cons b l ih =>
      intro a ha x hx
      refine ih _ ?_ x hx
      intro y hy
      simp only [] at hy
      split at hy
      · cases hy
      · rename_i s1
        have h1 := ha s1 rfl
        split at hy
        · cases hy; exact h1
        · split at hy
          · cases hy
          · cases hy; exact (gsn_State_pushFrom _ _ _ _ _ _ _).trans h1
  unfold State.cpush at h
  split at h
  · cases h; rfl
  · exact key _ _ (fun x hx => by cases hx; rfl) _ h
theorem gsn_State_signal (x0 : State) (x1 : ℕ) (x2 : ℕ) (x3 : Bool) (x4 : Word) : (State.signal x0 x1 x2 x3 x4).gong.gsn = x0.gong.gsn := by
  simp only [State.signal, gsn_ite, ite_self, gsn_State_ghost, gsn_State_setCount]
theorem gsn_State_csig (x0 : State) (x1 : ℕ) (x2 : List Word) : (State.csig x0 x1 x2).gong.gsn = x0.gong.gsn := by
  simp only [State.csig, gsn_ite, ite_self, gsn_State_signal]
theorem gsn_State_finishTst (s : State) (pc : Nat) (f : InFlight) : (s.finishTst pc f).gong.gsn = s.gong.gsn := by
  unfold State.finishTst; simp only []
  split
  · rfl
  · rename_i s' h
    rw [gsn_State_csig, gsn_State_retire, gsn_State_cpush _ _ _ _ h]
    split
    · exact gsn_foldl _ _ _ (fun _ _ => gsn_State_stampHandle _ _ _ _ _)
    · rfl
theorem gsn_State_underRange (x0 : State) (x1 : ℕ) (x2 : InFlight) : (State.underRange x0 x1 x2).gong.gsn = x0.gong.gsn := by
  unfold State.underRange
  repeat' first
    | (simp only [gsn_ite, gsn_foldl, gsn_foldl1, gsn_ite1, implies_true, ite_self, gsn_State_evt, gsn_State_onCnt, gsn_State_setHist]; done)
    | with_reducible rfl
    | (simp only [gsn_ite, gsn_foldl, gsn_foldl1, gsn_ite1, implies_true, ite_self, gsn_State_evt, gsn_State_onCnt, gsn_State_setHist])
    | split
    | (refine (gsn_foldl _ _ _ ?_).trans ?_ <;> try intro _ _)
    | (refine (gsn_foldl1 _ _ _ ?_).trans ?_ <;> try intro _ _)
    | (refine (gsn_State_commitIdle _ _ _ ?_).trans ?_ <;> try intros)
theorem gsn_State_rerun (x0 : State) (x1 : ℕ) (x2 : InFlight) : (State.rerun x0 x1 x2).gong.gsn = x0.gong.gsn := by
  simp only [State.rerun, gsn_ite, ite_self, gsn_State_onFlight, gsn_State_onCore]
theorem gsn_State_rename (x0 : State) (x1 : ℕ) (x2 : InFlight) : (State.rename x0 x1 x2).gong.gsn = x0.gong.gsn := by
  unfold State.rename
  repeat' first
    | (simp only [gsn_ite, gsn_foldl, gsn_foldl1, gsn_ite1, implies_true, ite_self, gsn_State_onCore]; done)
    | with_reducible rfl
    | split
theorem gsn_State_countConv (x0 : State) (x1 : ℕ) (x2 : InFlight) : (State.countConv x0 x1 x2).gong.gsn = x0.gong.gsn := by
  unfold State.countConv
  repeat' first
    | (simp only [gsn_ite, gsn_foldl, gsn_foldl1, gsn_ite1, implies_true, ite_self, gsn_State_setHist, gsn_State_onCore]; done)
    | with_reducible rfl
    | (simp only [gsn_ite, gsn_foldl, gsn_foldl1, gsn_ite1, implies_true, ite_self, gsn_State_setHist, gsn_State_onCore])
    | split
    | (refine (gsn_foldl _ _ _ ?_).trans ?_ <;> try intro _ _)
    | (refine (gsn_foldl1 _ _ _ ?_).trans ?_ <;> try intro _ _)
    | (refine (gsn_State_commitIdle _ _ _ ?_).trans ?_ <;> try intros)
theorem gsn_State_finishTile (x0 : State) (x1 : ℕ) (x2 : InFlight) : (State.finishTile x0 x1 x2).gong.gsn = x0.gong.gsn := by
  simp only [State.finishTile, gsn_ite, ite_self, gsn_State_retire, gsn_State_rename, gsn_State_countConv, gsn_State_csig]
theorem gsn_State_tileComplete (x0 : State) (x1 : ℕ) (x2 : ℕ) : (State.tileComplete x0 x1 x2).gong.gsn = x0.gong.gsn := by
  unfold State.tileComplete
  repeat' first
    | (simp only [gsn_ite, gsn_foldl, gsn_foldl1, gsn_ite1, implies_true, ite_self, gsn_State_rescale, gsn_State_finishTst, gsn_State_underRange, gsn_State_rerun, gsn_State_finishTile]; done)
    | with_reducible rfl
    | split
theorem gsn_State_shapeRec (x0 : State) (x1 : ℕ) (x2 : ℕ) (x3 : ℕ) (x4 : ℕ) (x5 : ℕ) : (State.shapeRec x0 x1 x2 x3 x4 x5).gong.gsn = x0.gong.gsn := by
  simp only [State.shapeRec, gsn_ite, ite_self, gsn_State_evt]
theorem gsn_State_shapeError (x0 : State) (x1 : ℕ) (x2 : Ctx) (x3 : List Word) (x4 : ℕ) (x5 : ℕ) : (State.shapeError x0 x1 x2 x3 x4 x5).gong.gsn = x0.gong.gsn := by
  simp only [State.shapeError, gsn_ite, ite_self, gsn_State_shapeRec, gsn_State_errorStop]
theorem gsn_State_storeRow (x0 : State) (x1 : ℕ) (x2 : Loc) (x3 : RowData) : (State.storeRow x0 x1 x2 x3).gong.gsn = x0.gong.gsn := by
  unfold State.storeRow
  repeat' first
    | (simp only [gsn_ite, gsn_foldl, gsn_foldl1, gsn_ite1, implies_true, ite_self, gsn_State_onCore]; done)
    | with_reducible rfl
    | split
theorem gsn_State_sendRows (x0 : State) (x1 : ℕ) (x2 : ℕ) (x3 : ℕ) (x4 : List (ℕ × RowData)) : (State.sendRows x0 x1 x2 x3 x4).gong.gsn = x0.gong.gsn := by
  unfold State.sendRows
  repeat' first
    | (simp only [gsn_ite, gsn_foldl, gsn_foldl1, gsn_ite1, implies_true, ite_self, gsn_State_setChan, gsn_State_sendWrite]; done)
    | with_reducible rfl
    | (simp only [gsn_ite, gsn_foldl, gsn_foldl1, gsn_ite1, implies_true, ite_self, gsn_State_setChan, gsn_State_sendWrite])
    | split
    | (refine (gsn_foldl _ _ _ ?_).trans ?_ <;> try intro _ _)
    | (refine (gsn_foldl1 _ _ _ ?_).trans ?_ <;> try intro _ _)
    | (refine (gsn_State_commitIdle _ _ _ ?_).trans ?_ <;> try intros)
theorem gsn_State_storeAll (x0 : State) (x1 : ℕ) (x2 : Ctx) (x3 : ℕ) (x4 : ℕ) (x5 : List Word) (x6 : Tile) (x7 : List (ℕ × ℕ)) : (State.storeAll x0 x1 x2 x3 x4 x5 x6 x7).gong.gsn = x0.gong.gsn := by
  unfold State.storeAll
  repeat' first
    | (simp only [gsn_ite, gsn_foldl, gsn_foldl1, gsn_ite1, implies_true, ite_self, gsn_State_storeRow, gsn_State_sendRows]; done)
    | with_reducible rfl
    | (simp only [gsn_ite, gsn_foldl, gsn_foldl1, gsn_ite1, implies_true, ite_self, gsn_State_storeRow, gsn_State_sendRows])
    | split
    | (refine (gsn_foldl _ _ _ ?_).trans ?_ <;> try intro _ _)
    | (refine (gsn_foldl1 _ _ _ ?_).trans ?_ <;> try intro _ _)
    | (refine (gsn_State_commitIdle _ _ _ ?_).trans ?_ <;> try intros)
theorem gsn_State_tileRestart (x0 : State) (x1 : ℕ) (x2 : ℕ) : (State.tileRestart x0 x1 x2).gong.gsn = x0.gong.gsn := by
  unfold State.tileRestart
  repeat' first
    | (simp only [gsn_ite, gsn_foldl, gsn_foldl1, gsn_ite1, implies_true, ite_self, gsn_State_shapeError, gsn_State_requestRows, gsn_State_onFlight, gsn_State_storeAll, gsn_State_onCore]; done)
    | with_reducible rfl
    | (simp only [gsn_ite, gsn_foldl, gsn_foldl1, gsn_ite1, implies_true, ite_self, gsn_State_shapeError, gsn_State_requestRows, gsn_State_onFlight, gsn_State_storeAll, gsn_State_onCore])
    | split
    | (refine (gsn_foldl _ _ _ ?_).trans ?_ <;> try intro _ _)
    | (refine (gsn_foldl1 _ _ _ ?_).trans ?_ <;> try intro _ _)
    | (refine (gsn_State_commitIdle _ _ _ ?_).trans ?_ <;> try intros)
theorem gsn_State_trfApply (x0 : State) (x1 : ℕ) : (State.trfApply x0 x1).gong.gsn = x0.gong.gsn := by
  simp only [State.trfApply, gsn_ite, ite_self, gsn_State_evt, gsn_State_onCore]
theorem gsn_State_warmReset (x0 : State) : (State.warmReset x0).gong.gsn = x0.gong.gsn := by
  unfold State.warmReset
  repeat' first
    | (simp only [gsn_ite, gsn_foldl, gsn_foldl1, gsn_ite1, implies_true, ite_self, gsn_State_blockReset]; done)
    | with_reducible rfl
    | split
theorem gsn_State_wdogEnd (x0 : State) : (State.wdogEnd x0).gong.gsn = x0.gong.gsn := by
  unfold State.wdogEnd
  repeat' first
    | (simp only [gsn_ite, gsn_foldl, gsn_foldl1, gsn_ite1, implies_true, ite_self, gsn_State_failStart]; done)
    | with_reducible rfl
    | (simp only [gsn_ite, gsn_foldl, gsn_foldl1, gsn_ite1, implies_true, ite_self, gsn_State_failStart])
    | split
    | (refine (gsn_foldl _ _ _ ?_).trans ?_ <;> try intro _ _)
    | (refine (gsn_foldl1 _ _ _ ?_).trans ?_ <;> try intro _ _)
    | (refine (gsn_State_commitIdle _ _ _ ?_).trans ?_ <;> try intros)
theorem gsn_State_evHead (x0 : State) (x1 : ℕ) (x2 : ℕ) (x3 : ℕ) (x4 : ℕ) : (State.evHead x0 x1 x2 x3 x4).gong.gsn = x0.gong.gsn := by
  simp only [State.evHead, gsn_ite, ite_self, gsn_State_newReqAt]
theorem gsn_State_watermark (x0 : State) (x1 : ℕ) : (State.watermark x0 x1).gong.gsn = x0.gong.gsn := by
  simp only [State.watermark, gsn_ite, ite_self, gsn_State_setEvRing]
theorem gsn_State_writeMark (x0 : State) (x1 : ℕ) : (State.writeMark x0 x1).gong.gsn = x0.gong.gsn := by
  simp only [State.writeMark, gsn_ite, ite_self, gsn_State_evHead, gsn_State_watermark]
theorem gsn_State_evWrote (x0 : State) (x1 : ℕ) : (State.evWrote x0 x1).gong.gsn = x0.gong.gsn := by
  simp only [State.evWrote, gsn_ite, ite_self, gsn_State_writeMark, gsn_State_setEvRing, gsn_State_evHead]
theorem gsn_State_writeDone (x0 : State) (x1 : PReq) (x2 : ℕ) (x3 : Resp) : (State.writeDone x0 x1 x2 x3).gong.gsn = x0.gong.gsn := by
  unfold State.writeDone
  repeat' first
    | (simp only [gsn_ite, gsn_foldl, gsn_foldl1, gsn_ite1, implies_true, ite_self, gsn_State_unack, gsn_State_dropReq, gsn_State_portGhost, gsn_State_deferReq, gsn_State_agentFault, gsn_State_lostWrite, gsn_State_evWrote, gsn_State_finalError, gsn_State_noteRtt, gsn_State_onReq]; done)
    | with_reducible rfl
    | split
theorem gsn_State_writeResp (s : State) (port n : Nat) (resp : Resp) : (s.writeResp port n resp).gong.gsn = s.gong.gsn := by
  unfold State.writeResp
  split
  · rw [gsn_State_afterPort, gsn_State_writeDone]
  · split
    · rename_i s' h; rw [gsn_State_afterPort, gsn_State_lateBack _ _ _ _ _ h]
    · exact gsn_State_violation _ _ _
theorem gsn_State_xcxArrive (x0 : State) (x1 : ℕ) (x2 : ℕ) (x3 : ℕ) : (State.xcxArrive x0 x1 x2 x3).gong.gsn = x0.gong.gsn := by
  unfold State.xcxArrive
  repeat' first
    | (simp only [gsn_ite, gsn_foldl, gsn_foldl1, gsn_ite1, implies_true, ite_self, gsn_State_setColl, gsn_State_ghost, gsn_State_finishColl]; done)
    | with_reducible rfl
    | (simp only [gsn_ite, gsn_foldl, gsn_foldl1, gsn_ite1, implies_true, ite_self, gsn_State_setColl, gsn_State_ghost, gsn_State_finishColl])
    | split
    | (refine (gsn_foldl _ _ _ ?_).trans ?_ <;> try intro _ _)
    | (refine (gsn_foldl1 _ _ _ ?_).trans ?_ <;> try intro _ _)
    | (refine (gsn_State_commitIdle _ _ _ ?_).trans ?_ <;> try intros)
theorem gsn_State_xcxExpire (x0 : State) (x1 : ℕ) : (State.xcxExpire x0 x1).gong.gsn = x0.gong.gsn := by
  unfold State.xcxExpire
  repeat' first
    | (simp only [gsn_ite, gsn_foldl, gsn_foldl1, gsn_ite1, implies_true, ite_self, gsn_State_fillColl]; done)
    | with_reducible rfl
    | split
theorem gsn_State_goOn (x0 : State) (x1 : PReq) : (State.goOn x0 x1).gong.gsn = x0.gong.gsn := by
  unfold State.goOn
  repeat' first
    | (simp only [gsn_ite, gsn_foldl, gsn_foldl1, gsn_ite1, implies_true, ite_self, gsn_State_dropReq, gsn_State_tryReq, gsn_State_onReq, gsn_State_onFlight]; done)
    | with_reducible rfl
    | split
theorem gsn_State_lookAgain (x0 : State) (x1 : PReq) (x2 : optParam Bool false) : (State.lookAgain x0 x1 x2).gong.gsn = x0.gong.gsn := by
  unfold State.lookAgain
  repeat' first
    | (simp only [gsn_ite, gsn_foldl, gsn_foldl1, gsn_ite1, implies_true, ite_self, gsn_State_goOn, gsn_State_faultReq, gsn_State_askXlp, gsn_State_onReq]; done)
    | with_reducible rfl
    | split
theorem gsn_State_xlpAgain (x0 : State) (x1 : ℕ) : (State.xlpAgain x0 x1).gong.gsn = x0.gong.gsn := by
  unfold State.xlpAgain
  repeat' first
    | (simp only [gsn_ite, gsn_foldl, gsn_foldl1, gsn_ite1, implies_true, ite_self, gsn_State_lookAgain]; done)
    | with_reducible rfl
    | split
theorem gsn_State_xlpEnd (x0 : State) (x1 : ℕ) : (State.xlpEnd x0 x1).1.gong.gsn = x0.gong.gsn := by
  simp only [State.xlpEnd, gsn_ite, ite_self]
theorem gsn_State_learn (x0 : State) (x1 : ℕ) (x2 : Option ℕ) (x3 : TlbEntry) : (State.learn x0 x1 x2 x3).gong.gsn = x0.gong.gsn := by
  unfold State.learn
  repeat' first
    | (simp only [gsn_ite, gsn_foldl, gsn_foldl1, gsn_ite1, implies_true, ite_self, gsn_State_tlbPut, gsn_State_onCore]; done)
    | with_reducible rfl
    | (simp only [gsn_ite, gsn_foldl, gsn_foldl1, gsn_ite1, implies_true, ite_self, gsn_State_tlbPut, gsn_State_onCore])
    | split
    | (refine (gsn_foldl _ _ _ ?_).trans ?_ <;> try intro _ _)
    | (refine (gsn_foldl1 _ _ _ ?_).trans ?_ <;> try intro _ _)
    | (refine (gsn_State_commitIdle _ _ _ ?_).trans ?_ <;> try intros)
theorem gsn_State_xlpAnswer (x0 : State) (x1 : ℕ) (x2 : XlateAnswer) : (State.xlpAnswer x0 x1 x2).gong.gsn = x0.gong.gsn := by
  unfold State.xlpAnswer
  repeat' first
    | (simp only [gsn_ite, gsn_foldl, gsn_foldl1, gsn_ite1, implies_true, ite_self, gsn_State_lookAgain, gsn_State_xlpEnd, gsn_State_faultReq, gsn_State_violation, gsn_State_afterPort, gsn_State_learn]; done)
    | with_reducible rfl
    | (simp only [gsn_ite, gsn_foldl, gsn_foldl1, gsn_ite1, implies_true, ite_self, gsn_State_lookAgain, gsn_State_xlpEnd, gsn_State_faultReq, gsn_State_violation, gsn_State_afterPort, gsn_State_learn])
    | split
    | (refine (gsn_foldl _ _ _ ?_).trans ?_ <;> try intro _ _)
    | (refine (gsn_foldl1 _ _ _ ?_).trans ?_ <;> try intro _ _)
    | (refine (gsn_State_commitIdle _ _ _ ?_).trans ?_ <;> try intros)
theorem gsn_State_xlpLate (x0 : State) (x1 : ℕ) : (State.xlpLate x0 x1).gong.gsn = x0.gong.gsn := by
  unfold State.xlpLate
  repeat' first
    | (simp only [gsn_ite, gsn_foldl, gsn_foldl1, gsn_ite1, implies_true, ite_self, gsn_State_xlpEnd, gsn_State_faultReq, gsn_State_afterPort]; done)
    | with_reducible rfl
    | split
theorem gsn_State_advance (x0 : State) (x1 : ℕ) (x2 : Ctx) : (State.advance x0 x1 x2).gong.gsn = x0.gong.gsn := by
  simp only [State.advance, gsn_ite, ite_self, gsn_State_unhold, gsn_State_onCtx]
theorem gsn_State_complete (x0 : State) (x1 : ℕ) (x2 : Ctx) (x3 : List Word) : (State.complete x0 x1 x2 x3).gong.gsn = x0.gong.gsn := by
  simp only [State.complete, gsn_ite, ite_self, gsn_State_csig, gsn_State_advance]
theorem gsn_State_askMallet (x0 : State) (x1 : ℕ) (x2 : Ctx) (x3 : ℕ) (x4 : Bool) : (State.askMallet x0 x1 x2 x3 x4).gong.gsn = x0.gong.gsn := by
  unfold State.askMallet
  repeat' first
    | (simp only [gsn_ite, gsn_foldl, gsn_foldl1, gsn_ite1, implies_true, ite_self, gsn_State_onCtx]; done)
    | with_reducible rfl
    | split
theorem gsn_State_hold (x0 : State) (x1 : ℕ) (x2 : Ctx) (x3 : ℕ) (x4 : ℕ) : (State.hold x0 x1 x2 x3 x4).gong.gsn = x0.gong.gsn := by
  simp only [State.hold, gsn_ite, ite_self, gsn_State_onCtx]
theorem gsn_bodyAdmit (x0 : ℕ) (x1 : Ctx) (x2 : ListRef) (x3 : List Word) (x4 : State) : (bodyAdmit x0 x1 x2 x3 x4).gong.gsn = x4.gong.gsn := by
  unfold bodyAdmit
  repeat' first
    | (simp only [gsn_ite, gsn_foldl, gsn_foldl1, gsn_ite1, implies_true, ite_self, gsn_State_complete, gsn_State_onCtx, gsn_State_releaseMallet, gsn_State_askMallet, gsn_State_hold]; done)
    | with_reducible rfl
    | (simp only [gsn_ite, gsn_foldl, gsn_foldl1, gsn_ite1, implies_true, ite_self, gsn_State_complete, gsn_State_onCtx, gsn_State_releaseMallet, gsn_State_askMallet, gsn_State_hold])
    | split
    | (refine (gsn_foldl _ _ _ ?_).trans ?_ <;> try intro _ _)
    | (refine (gsn_foldl1 _ _ _ ?_).trans ?_ <;> try intro _ _)
    | (refine (gsn_State_commitIdle _ _ _ ?_).trans ?_ <;> try intros)
theorem gsn_State_launch (x0 : State) (x1 : ℕ) (x2 : Ctx) (x3 : ListRef) (x4 : List Word) (x5 : Option ℕ) (x6 : List ℕ) (x7 : Regions) (x8 : Regions) (x9 : Option Mallet) (x10 : Tile) (x11 : CvtStats) (x12 : Phase) (x13 : optParam (List Tile) []) : (State.launch x0 x1 x2 x3 x4 x5 x6 x7 x8 x9 x10 x11 x12 x13).gong.gsn = x0.gong.gsn := by
  simp only [State.launch, gsn_ite, ite_self, gsn_State_onCtx, gsn_State_advance, gsn_State_onCore]
theorem gsn_State_launchMade (x0 : State) (x1 : ℕ) (x2 : Ctx) (x3 : ListRef) (x4 : List Word) (x5 : List ℕ) (x6 : Option Mallet) (x7 : Made) (x8 : List Tile) : (State.launchMade x0 x1 x2 x3 x4 x5 x6 x7 x8).gong.gsn = x0.gong.gsn := by
  simp only [State.launchMade, gsn_ite, ite_self, gsn_State_launch, gsn_State_onCore]
theorem gsn_State_preempt (x0 : State) (x1 : ℕ) : (State.preempt x0 x1).gong.gsn = x0.gong.gsn := by
  unfold State.preempt
  repeat' first
    | (simp only [gsn_ite, gsn_foldl, gsn_foldl1, gsn_ite1, implies_true, ite_self, gsn_State_onFlight, gsn_State_abandonRec]; done)
    | with_reducible rfl
    | split
theorem gsn_judge (pc : Nat) (c : Ctx) (r : List Word) (es : List (Bool × Nat)) (sh : List (Bool × Nat × Nat)) (k : State → State) (s : State)
    (hk : ∀ s, (k s).gong.gsn = s.gong.gsn) : (judge pc c r es sh k s).gong.gsn = s.gong.gsn := by
  unfold judge
  split
  · exact gsn_State_cmdError _ _ _ _ _
  · split
    · exact gsn_State_shapeError _ _ _ _ _ _
    · exact hk s
theorem gsn_judgeTile (w : Option Nat) (pc : Nat) (c : Ctx) (r : List Word) (es : List (Bool × Nat)) (sh : List (Bool × Nat × Nat)) (k : State → State)
    (s : State) (hk : ∀ s, (k s).gong.gsn = s.gong.gsn) : (judgeTile w pc c r es sh k s).gong.gsn = s.gong.gsn := by
  unfold judgeTile
  split
  · exact gsn_judge _ _ _ _ _ _ _ hk
  · split
    · rw [gsn_State_hold]; split
      · exact gsn_State_preempt _ _
      · rfl
    · exact hk s
theorem gsn_tileGate (pc : Nat) (c : Ctx) (l : ListRef) (r : List Word) (dest : Option Nat) (srcs : List Nat) (heavy : Bool)
    (act : Option Mallet → State → State) (s : State) (ha : ∀ m s, (act m s).gong.gsn = s.gong.gsn) :
    (tileGate pc c l r dest srcs heavy act s).gong.gsn = s.gong.gsn := by
  unfold tileGate
  have h0 : (if s.tileWait pc c dest srcs = some 6 ∧ c = .fg then s.preempt pc else s).gong.gsn = s.gong.gsn := by
    split
    · exact gsn_State_preempt _ _
    · rfl
  generalize (if s.tileWait pc c dest srcs = some 6 ∧ c = .fg then s.preempt pc else s) = u at h0
  simp only []
  split
  · rw [gsn_State_hold]; exact h0
  · split
    · split
      · exact (ha _ _).trans h0
      · rw [gsn_State_hold]; split
        · exact (gsn_State_askMallet _ _ _ _ _).trans h0
        · exact h0
    · exact (ha _ _).trans h0
theorem gsn_bodyCvt (x0 : ℕ) (x1 : Ctx) (x2 : ListRef) (x3 : List Word) (x4 : State) : (bodyCvt x0 x1 x2 x3 x4).gong.gsn = x4.gong.gsn := by
  unfold bodyCvt
  repeat' first
    | (simp only [gsn_ite, gsn_foldl, gsn_foldl1, gsn_ite1, implies_true, ite_self, gsn_State_launchMade, gsn_judgeTile, gsn_tileGate]; done)
    | with_reducible rfl
    | split
theorem gsn_State_routeError (x0 : State) (x1 : ℕ) (x2 : Ctx) (x3 : List Word) (x4 : ℕ) (x5 : ℕ) : (State.routeError x0 x1 x2 x3 x4 x5).gong.gsn = x0.gong.gsn := by
  simp only [State.routeError, gsn_ite, ite_self, gsn_State_errorStop, gsn_State_evt]
theorem gsn_State_seek (x0 : State) (x1 : ℕ) (x2 : Want) : (State.seek x0 x1 x2).gong.gsn = x0.gong.gsn := by
  unfold State.seek
  repeat' first
    | (simp only [gsn_ite, gsn_foldl, gsn_foldl1, gsn_ite1, implies_true, ite_self, gsn_State_onCore]; done)
    | with_reducible rfl
    | (simp only [gsn_ite, gsn_foldl, gsn_foldl1, gsn_ite1, implies_true, ite_self, gsn_State_onCore])
    | split
    | (refine (gsn_foldl _ _ _ ?_).trans ?_ <;> try intro _ _)
    | (refine (gsn_foldl1 _ _ _ ?_).trans ?_ <;> try intro _ _)
    | (refine (gsn_judge _ _ _ _ _ _ _ ?_).trans ?_ <;> try intros)
    | (refine (gsn_judgeTile _ _ _ _ _ _ _ _ ?_).trans ?_ <;> try intros)
    | (refine (gsn_tileGate _ _ _ _ _ _ _ _ _ ?_).trans ?_ <;> try intros)
    | (refine (gsn_State_commitIdle _ _ _ ?_).trans ?_ <;> try intros)
theorem gsn_State_queueSolves (x0 : State) (x1 : ℕ) (x2 : Ctx) (x3 : List ℕ) (x4 : Bool) (x5 : List (List (Option ℕ × Bool) × Kinds)) : (State.queueSolves x0 x1 x2 x3 x4 x5).gong.gsn = x0.gong.gsn := by
  unfold State.queueSolves
  repeat' first
    | (simp only [gsn_ite, gsn_foldl, gsn_foldl1, gsn_ite1, implies_true, ite_self, gsn_State_onCtx, gsn_State_onCore]; done)
    | with_reducible rfl
    | split
theorem gsn_fabGo (pc : Nat) (c : Ctx) (l : ListRef) (r : List Word) (heavy : Bool)
    (act : Option Mallet → List (Route × Kinds) → State → State) (ha : ∀ m x s, (act m x s).gong.gsn = s.gong.gsn) (rts : List (Route × Kinds)) (s : State) :
    (if heavy then match s.need pc c l (wclass r) with
      | .go m => act m rts s
      | .wait w ask => (if ask then s.askMallet pc c (wclass r) false else s).hold pc c w 0
      else act none rts s).gong.gsn = s.gong.gsn := by
  split
  · split
    · exact ha _ _ _
    · rw [gsn_State_hold]; split
      · exact gsn_State_askMallet _ _ _ _ _
      · rfl
  · exact ha _ _ _
theorem gsn_fabGate (pc : Nat) (c : Ctx) (l : ListRef) (r : List Word) (dest : Option Nat) (srcs : List Nat) (heavy : Bool)
    (wants : List Want) (plan : Option SolvePlan) (act : Option Mallet → List (Route × Kinds) → State → State) (s : State)
    (ha : ∀ m x s, (act m x s).gong.gsn = s.gong.gsn) : (fabGate pc c l r dest srcs heavy wants plan act s).gong.gsn = s.gong.gsn := by
  unfold fabGate
  have h0 : (if s.tileWait pc c dest srcs = some 6 ∧ c = .fg then s.preempt pc else s).gong.gsn = s.gong.gsn := by
    split
    · exact gsn_State_preempt _ _
    · rfl
  generalize (if s.tileWait pc c dest srcs = some 6 ∧ c = .fg then s.preempt pc else s) = u at h0
  simp only []
  split
  · rw [gsn_State_hold]; exact h0
  · split
    · rw [gsn_State_routeError]; exact h0
    · have h1 : (wants.foldl (fun s w => s.seek pc w) u).gong.gsn = s.gong.gsn := (gsn_foldl _ _ _ (fun _ _ => gsn_State_seek _ _ _)).trans h0
      generalize wants.foldl (fun s w => s.seek pc w) u = v at h1
      split
      · rw [gsn_State_hold]; exact h1
      · split
        · exact (gsn_fabGo pc c l r heavy act ha _ _).trans h1
        · split
          · rw [gsn_State_hold, gsn_State_queueSolves]; exact h1
          · exact (gsn_fabGo pc c l r heavy act ha _ _).trans ((gsn_State_queueSolves _ _ _ _ _ _).trans h1)
theorem gsn_stagedCommand (x0 : ℕ) (x1 : Ctx) (x2 : ListRef) (x3 : List Word) (x4 : List (Bool × ℕ)) (x5 : List (Bool × ℕ × ℕ)) (x6 : List ℕ) (x7 : List Want) (x8 : ℕ) (x9 : State → List Src) (x10 : State) : (stagedCommand x0 x1 x2 x3 x4 x5 x6 x7 x8 x9 x10).gong.gsn = x10.gong.gsn := by
  unfold stagedCommand
  repeat' first
    | (simp only [gsn_ite, gsn_foldl, gsn_foldl1, gsn_ite1, implies_true, ite_self, gsn_State_launch, gsn_fabGate, gsn_State_cmdError, gsn_State_fabDone, gsn_State_setCore, gsn_judgeTile, gsn_State_hold]; done)
    | with_reducible rfl
    | split
theorem gsn_bodyDil (x0 : ℕ) (x1 : Ctx) (x2 : ListRef) (x3 : List Word) (x4 : State) : (bodyDil x0 x1 x2 x3 x4).gong.gsn = x4.gong.gsn := by
  simp only [bodyDil, gsn_ite, ite_self, gsn_stagedCommand]
theorem gsn_bodyDqn (x0 : ℕ) (x1 : Ctx) (x2 : ListRef) (x3 : List Word) (x4 : State) : (bodyDqn x0 x1 x2 x3 x4).gong.gsn = x4.gong.gsn := by
  unfold bodyDqn
  repeat' first
    | (simp only [gsn_ite, gsn_foldl, gsn_foldl1, gsn_ite1, implies_true, ite_self, gsn_State_launchMade, gsn_judgeTile, gsn_tileGate]; done)
    | with_reducible rfl
    | split
theorem gsn_State_giveBack (x0 : State) (x1 : ℕ) (x2 : Ctx) (x3 : ℕ) (x4 : ℕ) (x5 : HReg) : (State.giveBack x0 x1 x2 x3 x4 x5).gong.gsn = x0.gong.gsn := by
  simp only [State.giveBack, gsn_ite, ite_self, gsn_State_unbind, gsn_State_releaseHandle, gsn_State_giveUp]
theorem gsn_bodyEnd (x0 : ℕ) (x1 : Ctx) (x2 : ListRef) (x3 : List Word) (x4 : State) : (bodyEnd x0 x1 x2 x3 x4).gong.gsn = x4.gong.gsn := by
  unfold bodyEnd
  repeat' first
    | (simp only [gsn_ite, gsn_foldl, gsn_foldl1, gsn_ite1, implies_true, ite_self, gsn_State_giveBack, gsn_State_stopPrefetch, gsn_State_onLc, gsn_State_withdraw, gsn_State_unhold, gsn_State_evt, gsn_State_onCtx, gsn_State_releaseMallet, gsn_State_hold, gsn_State_csig]; done)
    | with_reducible rfl
    | split
theorem gsn_bodyFence (x0 : ℕ) (x1 : Ctx) (x2 : ListRef) (x3 : List Word) (x4 : State) : (bodyFence x0 x1 x2 x3 x4).gong.gsn = x4.gong.gsn := by
  simp only [bodyFence, gsn_ite, ite_self, gsn_State_complete, gsn_State_onCtx, gsn_State_hold]
theorem gsn_bodyHold (x0 : ℕ) (x1 : Ctx) (x2 : ListRef) (x3 : List Word) (x4 : State) : (bodyHold x0 x1 x2 x3 x4).gong.gsn = x4.gong.gsn := by
  unfold bodyHold
  repeat' first
    | (simp only [gsn_ite, gsn_foldl, gsn_foldl1, gsn_ite1, implies_true, ite_self, gsn_judge, gsn_State_hold, gsn_State_advance]; done)
    | with_reducible rfl
    | split
theorem gsn_bodyHpop (pc : Nat) (c : Ctx) (l : ListRef) (r : List Word) (s : State) : (bodyHpop pc c l r s).gong.gsn = s.gong.gsn := by
  unfold bodyHpop
  refine gsn_judge _ _ _ _ _ _ _ (fun s => ?_)
  have hp := gsn_State_pop s (ctHq r) true
  simp only []
  split
  · rename_i a w h; rw [h] at hp; rw [gsn_State_complete, gsn_State_onCtx]; exact hp
  · rename_i a w h; rw [h] at hp; rw [gsn_State_hold]; exact hp
theorem gsn_bodyHpush (x0 : ℕ) (x1 : Ctx) (x2 : ListRef) (x3 : List Word) (x4 : State) : (bodyHpush x0 x1 x2 x3 x4).gong.gsn = x4.gong.gsn := by
  unfold bodyHpush
  repeat' first
    | (simp only [gsn_ite, gsn_foldl, gsn_foldl1, gsn_ite1, implies_true, ite_self, gsn_State_giveBack, gsn_State_complete, gsn_judge, gsn_State_hold, gsn_State_pushFrom]; done)
    | with_reducible rfl
    | (simp only [gsn_ite, gsn_foldl, gsn_foldl1, gsn_ite1, implies_true, ite_self, gsn_State_giveBack, gsn_State_complete, gsn_judge, gsn_State_hold, gsn_State_pushFrom])
    | split
    | (refine (gsn_foldl _ _ _ ?_).trans ?_ <;> try intro _ _)
    | (refine (gsn_foldl1 _ _ _ ?_).trans ?_ <;> try intro _ _)
    | (refine (gsn_judge _ _ _ _ _ _ _ ?_).trans ?_ <;> try intros)
    | (refine (gsn_judgeTile _ _ _ _ _ _ _ _ ?_).trans ?_ <;> try intros)
    | (refine (gsn_tileGate _ _ _ _ _ _ _ _ _ ?_).trans ?_ <;> try intros)
    | (refine (gsn_fabGate _ _ _ _ _ _ _ _ _ _ _ ?_).trans ?_ <;> try intros)
    | (refine (gsn_State_commitIdle _ _ _ ?_).trans ?_ <;> try intros)
theorem gsn_bodyIlv (x0 : ℕ) (x1 : Ctx) (x2 : ListRef) (x3 : List Word) (x4 : State) : (bodyIlv x0 x1 x2 x3 x4).gong.gsn = x4.gong.gsn := by
  simp only [bodyIlv, gsn_ite, ite_self, gsn_stagedCommand]
theorem gsn_State_launchFab (x0 : State) (x1 : ℕ) (x2 : Ctx) (x3 : ListRef) (x4 : List Word) (x5 : List ℕ) (x6 : Option Mallet) (x7 : ℕ) (x8 : List (ℕ × ℕ)) (x9 : Made) : (State.launchFab x0 x1 x2 x3 x4 x5 x6 x7 x8 x9).gong.gsn = x0.gong.gsn := by
  simp only [State.launchFab, gsn_ite, ite_self, gsn_State_fabDone, gsn_State_launchMade]
theorem gsn_bodyLinear (x0 : ℕ) (x1 : Ctx) (x2 : ListRef) (x3 : List Word) (x4 : State) : (bodyLinear x0 x1 x2 x3 x4).gong.gsn = x4.gong.gsn := by
  unfold bodyLinear
  repeat' first
    | (simp only [gsn_ite, gsn_foldl, gsn_foldl1, gsn_ite1, implies_true, ite_self, gsn_State_launchFab, gsn_fabGate, gsn_judgeTile]; done)
    | with_reducible rfl
    | split
theorem gsn_State_invertRole (x0 : State) (x1 : ℕ) (x2 : ℕ) : (State.invertRole x0 x1 x2).gong.gsn = x0.gong.gsn := by
  simp only [State.invertRole, gsn_ite, ite_self, gsn_State_onLc]
theorem gsn_bodyPdl (x0 : ℕ) (x1 : Ctx) (x2 : ListRef) (x3 : List Word) (x4 : State) : (bodyPdl x0 x1 x2 x3 x4).gong.gsn = x4.gong.gsn := by
  unfold bodyPdl
  repeat' first
    | (simp only [gsn_ite, gsn_foldl, gsn_foldl1, gsn_ite1, implies_true, ite_self, gsn_State_complete, gsn_judge, gsn_State_onLc, gsn_State_invertRole, gsn_State_hold]; done)
    | with_reducible rfl
    | split
theorem gsn_actPermx (x0 : ℕ) (x1 : Ctx) (x2 : ListRef) (x3 : List Word) (x4 : List ℕ) (x5 : List DWord) (x6 : List DWord) (x7 : Option Mallet) (x8 : Route) (x9 : Route) (x10 : Kinds) (x11 : State) : (actPermx x0 x1 x2 x3 x4 x5 x6 x7 x8 x9 x10 x11).gong.gsn = x11.gong.gsn := by
  unfold actPermx
  repeat' first
    | (simp only [gsn_ite, gsn_foldl, gsn_foldl1, gsn_ite1, implies_true, ite_self, gsn_State_setColl, gsn_State_launch, gsn_State_fabDone, gsn_State_dropColls]; done)
    | with_reducible rfl
    | (simp only [gsn_ite, gsn_foldl, gsn_foldl1, gsn_ite1, implies_true, ite_self, gsn_State_setColl, gsn_State_launch, gsn_State_fabDone, gsn_State_dropColls])
    | split
    | (refine (gsn_foldl _ _ _ ?_).trans ?_ <;> try intro _ _)
    | (refine (gsn_foldl1 _ _ _ ?_).trans ?_ <;> try intro _ _)
    | (refine (gsn_judge _ _ _ _ _ _ _ ?_).trans ?_ <;> try intros)
    | (refine (gsn_judgeTile _ _ _ _ _ _ _ _ ?_).trans ?_ <;> try intros)
    | (refine (gsn_tileGate _ _ _ _ _ _ _ _ _ ?_).trans ?_ <;> try intros)
    | (refine (gsn_fabGate _ _ _ _ _ _ _ _ _ _ _ ?_).trans ?_ <;> try intros)
    | (refine (gsn_State_commitIdle _ _ _ ?_).trans ?_ <;> try intros)
theorem gsn_bodyPermx (x0 : ℕ) (x1 : Ctx) (x2 : ListRef) (x3 : List Word) (x4 : State) : (bodyPermx x0 x1 x2 x3 x4).gong.gsn = x4.gong.gsn := by
  unfold bodyPermx
  repeat' first
    | (simp only [gsn_ite, gsn_foldl, gsn_foldl1, gsn_ite1, implies_true, ite_self, gsn_actPermx, gsn_State_routeError, gsn_fabGate, gsn_judgeTile, gsn_State_hold]; done)
    | with_reducible rfl
    | (simp only [gsn_ite, gsn_foldl, gsn_foldl1, gsn_ite1, implies_true, ite_self, gsn_actPermx, gsn_State_routeError, gsn_fabGate, gsn_judgeTile, gsn_State_hold])
    | split
    | (refine (gsn_foldl _ _ _ ?_).trans ?_ <;> try intro _ _)
    | (refine (gsn_foldl1 _ _ _ ?_).trans ?_ <;> try intro _ _)
    | (refine (gsn_judge _ _ _ _ _ _ _ ?_).trans ?_ <;> try intros)
    | (refine (gsn_judgeTile _ _ _ _ _ _ _ _ ?_).trans ?_ <;> try intros)
    | (refine (gsn_tileGate _ _ _ _ _ _ _ _ _ ?_).trans ?_ <;> try intros)
    | (refine (gsn_fabGate _ _ _ _ _ _ _ _ _ _ _ ?_).trans ?_ <;> try intros)
    | (refine (gsn_State_commitIdle _ _ _ ?_).trans ?_ <;> try intros)
theorem gsn_bodyQnt (x0 : ℕ) (x1 : Ctx) (x2 : ListRef) (x3 : List Word) (x4 : State) : (bodyQnt x0 x1 x2 x3 x4).gong.gsn = x4.gong.gsn := by
  unfold bodyQnt
  repeat' first
    | (simp only [gsn_ite, gsn_foldl, gsn_foldl1, gsn_ite1, implies_true, ite_self, gsn_State_launchMade, gsn_judgeTile, gsn_tileGate]; done)
    | with_reducible rfl
    | split
theorem gsn_bodyRedp (x0 : ℕ) (x1 : Ctx) (x2 : ListRef) (x3 : List Word) (x4 : State) : (bodyRedp x0 x1 x2 x3 x4).gong.gsn = x4.gong.gsn := by
  unfold bodyRedp
  repeat' first
    | (simp only [gsn_ite, gsn_foldl, gsn_foldl1, gsn_ite1, implies_true, ite_self, gsn_State_launchFab, gsn_fabGate, gsn_judgeTile, gsn_State_onCnt]; done)
    | with_reducible rfl
    | split
theorem gsn_bodyRemap (x0 : ℕ) (x1 : Ctx) (x2 : ListRef) (x3 : List Word) (x4 : State) : (bodyRemap x0 x1 x2 x3 x4).gong.gsn = x4.gong.gsn := by
  simp only [bodyRemap, gsn_ite, ite_self, gsn_stagedCommand]
theorem gsn_actRouted (x0 : ℕ) (x1 : Ctx) (x2 : ListRef) (x3 : List Word) (x4 : List ℕ) (x5 : Bool) (x6 : Option Mallet) (x7 : List (Route × Kinds)) (x8 : State) : (actRouted x0 x1 x2 x3 x4 x5 x6 x7 x8).gong.gsn = x8.gong.gsn := by
  simp only [actRouted, gsn_ite, ite_self, gsn_State_launchFab]
theorem gsn_bodyRouted (x0 : Bool) (x1 : ℕ) (x2 : Ctx) (x3 : ListRef) (x4 : List Word) (x5 : State) : (bodyRouted x0 x1 x2 x3 x4 x5).gong.gsn = x5.gong.gsn := by
  unfold bodyRouted
  repeat' first
    | (simp only [gsn_ite, gsn_foldl, gsn_foldl1, gsn_ite1, implies_true, ite_self, gsn_actRouted, gsn_fabGate, gsn_judgeTile]; done)
    | with_reducible rfl
    | split
theorem gsn_bodyScale (x0 : ℕ) (x1 : Ctx) (x2 : ListRef) (x3 : List Word) (x4 : State) : (bodyScale x0 x1 x2 x3 x4).gong.gsn = x4.gong.gsn := by
  unfold bodyScale
  repeat' first
    | (simp only [gsn_ite, gsn_foldl, gsn_foldl1, gsn_ite1, implies_true, ite_self, gsn_State_launchMade, gsn_judgeTile, gsn_tileGate]; done)
    | with_reducible rfl
    | split
theorem gsn_bodyShuf (x0 : ℕ) (x1 : Ctx) (x2 : ListRef) (x3 : List Word) (x4 : State) : (bodyShuf x0 x1 x2 x3 x4).gong.gsn = x4.gong.gsn := by
  unfold bodyShuf
  repeat' first
    | (simp only [gsn_ite, gsn_foldl, gsn_foldl1, gsn_ite1, implies_true, ite_self, gsn_actRouted, gsn_fabGate, gsn_judgeTile]; done)
    | with_reducible rfl
    | split
theorem gsn_bodySig (x0 : ℕ) (x1 : Ctx) (x2 : ListRef) (x3 : List Word) (x4 : State) : (bodySig x0 x1 x2 x3 x4).gong.gsn = x4.gong.gsn := by
  simp only [bodySig, gsn_ite, ite_self, gsn_State_signal, gsn_State_hold, gsn_State_advance]
theorem gsn_bodySort (x0 : ℕ) (x1 : Ctx) (x2 : ListRef) (x3 : List Word) (x4 : State) : (bodySort x0 x1 x2 x3 x4).gong.gsn = x4.gong.gsn := by
  unfold bodySort
  repeat' first
    | (simp only [gsn_ite, gsn_foldl, gsn_foldl1, gsn_ite1, implies_true, ite_self, gsn_State_launchFab, gsn_fabGate, gsn_judgeTile]; done)
    | with_reducible rfl
    | split
theorem gsn_bodyStamp (x0 : ℕ) (x1 : Ctx) (x2 : ListRef) (x3 : List Word) (x4 : State) : (bodyStamp x0 x1 x2 x3 x4).gong.gsn = x4.gong.gsn := by
  simp only [bodyStamp, gsn_ite, ite_self, gsn_State_complete, gsn_State_evt]
theorem gsn_State_reportStale (x0 : State) (x1 : ℕ) (x2 : Ctx) (x3 : ℕ) (x4 : List ℕ) : (State.reportStale x0 x1 x2 x3 x4).gong.gsn = x0.gong.gsn := by
  unfold State.reportStale
  repeat' first
    | (simp only [gsn_ite, gsn_foldl, gsn_foldl1, gsn_ite1, implies_true, ite_self, gsn_State_staleFault]; done)
    | with_reducible rfl
    | (simp only [gsn_ite, gsn_foldl, gsn_foldl1, gsn_ite1, implies_true, ite_self, gsn_State_staleFault])
    | split
    | (refine (gsn_foldl _ _ _ ?_).trans ?_ <;> try intro _ _)
    | (refine (gsn_foldl1 _ _ _ ?_).trans ?_ <;> try intro _ _)
    | (refine (gsn_judge _ _ _ _ _ _ _ ?_).trans ?_ <;> try intros)
    | (refine (gsn_judgeTile _ _ _ _ _ _ _ _ ?_).trans ?_ <;> try intros)
    | (refine (gsn_tileGate _ _ _ _ _ _ _ _ _ ?_).trans ?_ <;> try intros)
    | (refine (gsn_fabGate _ _ _ _ _ _ _ _ _ _ _ ?_).trans ?_ <;> try intros)
    | (refine (gsn_State_commitIdle _ _ _ ?_).trans ?_ <;> try intros)
theorem gsn_startTld (x0 : ℕ) (x1 : Ctx) (x2 : ListRef) (x3 : List Word) (x4 : Desc) (x5 : State) : (startTld x0 x1 x2 x3 x4 x5).gong.gsn = x5.gong.gsn := by
  simp only [startTld, gsn_ite, ite_self, gsn_State_reportStale, gsn_State_launch, gsn_State_requestRows]
theorem gsn_bodyTld (x0 : ℕ) (x1 : Ctx) (x2 : ListRef) (x3 : List Word) (x4 : State) : (bodyTld x0 x1 x2 x3 x4).gong.gsn = x4.gong.gsn := by
  unfold bodyTld
  repeat' first
    | (simp only [gsn_ite, gsn_foldl, gsn_foldl1, gsn_ite1, implies_true, ite_self, gsn_startTld, gsn_judgeTile, gsn_tileGate, gsn_State_hold]; done)
    | with_reducible rfl
    | split
theorem gsn_bodyTmov (x0 : ℕ) (x1 : Ctx) (x2 : ListRef) (x3 : List Word) (x4 : State) : (bodyTmov x0 x1 x2 x3 x4).gong.gsn = x4.gong.gsn := by
  unfold bodyTmov
  repeat' first
    | (simp only [gsn_ite, gsn_foldl, gsn_foldl1, gsn_ite1, implies_true, ite_self, gsn_State_launch, gsn_State_fabDone, gsn_judgeTile, gsn_tileGate]; done)
    | with_reducible rfl
    | split
theorem gsn_State_allocate (x0 : State) (x1 : ℕ) (x2 : Ctx) (x3 : List Word) (x4 : ℕ) : (State.allocate x0 x1 x2 x3 x4).gong.gsn = x0.gong.gsn := by
  unfold State.allocate
  repeat' first
    | (simp only [gsn_ite, gsn_foldl, gsn_foldl1, gsn_ite1, implies_true, ite_self, gsn_State_reserve, gsn_State_onCtx, gsn_State_takeBuffers]; done)
    | with_reducible rfl
    | split
theorem gsn_startTst (x0 : ℕ) (x1 : Ctx) (x2 : ListRef) (x3 : List Word) (x4 : Desc) (x5 : State) : (startTst x0 x1 x2 x3 x4 x5).gong.gsn = x5.gong.gsn := by
  unfold startTst
  repeat' first
    | (simp only [gsn_ite, gsn_foldl, gsn_foldl1, gsn_ite1, implies_true, ite_self, gsn_State_reportStale, gsn_State_unreserve, gsn_State_launch, gsn_State_giveUp, gsn_State_allocate, gsn_State_storeAll]; done)
    | with_reducible rfl
    | (simp only [gsn_ite, gsn_foldl, gsn_foldl1, gsn_ite1, implies_true, ite_self, gsn_State_reportStale, gsn_State_unreserve, gsn_State_launch, gsn_State_giveUp, gsn_State_allocate, gsn_State_storeAll])
    | split
    | (refine (gsn_foldl _ _ _ ?_).trans ?_ <;> try intro _ _)
    | (refine (gsn_foldl1 _ _ _ ?_).trans ?_ <;> try intro _ _)
    | (refine (gsn_judge _ _ _ _ _ _ _ ?_).trans ?_ <;> try intros)
    | (refine (gsn_judgeTile _ _ _ _ _ _ _ _ ?_).trans ?_ <;> try intros)
    | (refine (gsn_tileGate _ _ _ _ _ _ _ _ _ ?_).trans ?_ <;> try intros)
    | (refine (gsn_fabGate _ _ _ _ _ _ _ _ _ _ _ ?_).trans ?_ <;> try intros)
    | (refine (gsn_State_commitIdle _ _ _ ?_).trans ?_ <;> try intros)
theorem gsn_bodyTst (x0 : ℕ) (x1 : Ctx) (x2 : ListRef) (x3 : List Word) (x4 : State) : (bodyTst x0 x1 x2 x3 x4).gong.gsn = x4.gong.gsn := by
  unfold bodyTst
  repeat' first
    | (simp only [gsn_ite, gsn_foldl, gsn_foldl1, gsn_ite1, implies_true, ite_self, gsn_startTst, gsn_judgeTile, gsn_tileGate, gsn_State_hold]; done)
    | with_reducible rfl
    | split
theorem gsn_bodyWait (x0 : ℕ) (x1 : Ctx) (x2 : ListRef) (x3 : List Word) (x4 : State) : (bodyWait x0 x1 x2 x3 x4).gong.gsn = x4.gong.gsn := by
  unfold bodyWait
  repeat' first
    | (simp only [gsn_ite, gsn_foldl, gsn_foldl1, gsn_ite1, implies_true, ite_self, gsn_judge, gsn_State_hold, gsn_State_advance]; done)
    | with_reducible rfl
    | split
theorem gsn_bodyWin (x0 : ℕ) (x1 : Ctx) (x2 : ListRef) (x3 : List Word) (x4 : State) : (bodyWin x0 x1 x2 x3 x4).gong.gsn = x4.gong.gsn := by
  simp only [bodyWin, gsn_ite, ite_self, gsn_stagedCommand]
theorem gsn_State_fall (x0 : State) (x1 : ℕ) : (State.fall x0 x1).gong.gsn = x0.gong.gsn := by
  unfold State.fall
  repeat' first
    | (simp only [gsn_ite, gsn_foldl, gsn_foldl1, gsn_ite1, implies_true, ite_self, gsn_State_setRegion]; done)
    | with_reducible rfl
    | split
theorem gsn_State_voteWakes (x0 : State) : (State.voteWakes x0).gong.gsn = x0.gong.gsn := by
  simp only [State.voteWakes, gsn_ite, ite_self, gsn_State_wake]
theorem gsn_settle (s0 s : State) : (settle s0 s).gong.gsn = s.gong.gsn := by rw [settle_gong]

/-- What a list command leaves of the GSN: all of it, where its own effect leaves it. -/
theorem gsn_issueRow (opc : Nat) (body : Nat → Ctx → ListRef → List Word → State → State) (hb : ∀ pc c l r s, (body pc c l r s).gong.gsn = s.gong.gsn)
    (pc : Nat) (c : Ctx) (s t : State) (h : issueRow opc body pc c s = .next t) : t.gong.gsn = s.gong.gsn := by
  have hi : (issue opc body pc c s).gong.gsn = s.gong.gsn := by
    unfold issue
    split
    · rfl
    · simp only []
      repeat' split
      all_goals first
        | with_reducible rfl
        | simp only [gsn_settle, gsn_State_cmdError, gsn_State_hold, gsn_State_prefetch, hb]
  unfold issueRow at h
  split at h
  · cases h; rfl
  · split at h
    · split at h
      · cases h
      · cases h; exact hi
    · cases h; exact hi

end Sys2Proof.Machine
end

