-- ==== Sys2Proof/Laws/Memory.lean ====
section
/-! SUPPORT. The memories of the block: what a byte reads as after each operation, and that every operation keeps the
canonical form. -/

namespace Sys2Proof.Machine

set_option Elab.async false

/-! ### Reading a family in parts -/

theorem get_append {α : Type} (a b : SMap α) (d : α) (k : Nat) : SMap.get (a ++ b) d k = SMap.get a (SMap.get b d k) k := by
  induction a with
  | nil => rfl
  | cons e a ih =>
    obtain ⟨i, v⟩ := e
    simp only [List.cons_append, SMap.get]
    split
    · rfl
    · exact ih

theorem get_notin {α : Type} (m : SMap α) (d : α) (k : Nat) (h : ∀ e ∈ m, e.1 ≠ k) : SMap.get m d k = d := by
  induction m with
  | nil => rfl
  | cons e m ih =>
    obtain ⟨i, v⟩ := e
    have hi : i ≠ k := h _ (List.mem_cons_self ..)
    simp only [SMap.get, hi, if_false]
    exact ih fun e he => h e (List.mem_cons_of_mem _ he)

/-! ### Stored bytes -/

/-- The cells made of a byte list lie in its range, rising, none of them 0. -/
theorem cellsOf_mem (a : Nat) (bs : List Byte) : ∀ e ∈ cellsOf a bs, a ≤ e.1 ∧ e.1 < a + bs.length ∧ e.2 ≠ 0 := by
  induction bs generalizing a with
  | nil => simp [cellsOf]
  | cons b t ih =>
    intro e he
    simp only [cellsOf, List.mem_append] at he
    rcases he with he | he
    · split at he
      · simp at he
      · rename_i hb
        simp only [List.mem_singleton] at he
        subst he
        exact ⟨le_refl _, by simp, hb⟩
    · obtain ⟨h1, h2, h3⟩ := ih (a + 1) e he
      simp only [List.length_cons]
      exact ⟨by omega, by omega, h3⟩

theorem cellsOf_pairwise (a : Nat) (bs : List Byte) : (cellsOf a bs).Pairwise (fun p q => p.1 < q.1) := by
  induction bs generalizing a with
  | nil => simp [cellsOf]
  | cons b t ih =>
    simp only [cellsOf]
    rw [List.pairwise_append]
    refine ⟨by split <;> simp, ih (a + 1), ?_⟩
    intro p hp q hq
    have := cellsOf_mem (a + 1) t q hq
    split at hp
    · simp at hp
    · simp only [List.mem_singleton] at hp
      subst hp
      show a < q.1
      omega

theorem get_cellsOf (a : Nat) (bs : List Byte) (x : Nat) : SMap.get (cellsOf a bs) 0 x = if a ≤ x then bs.getD (x - a) 0 else 0 := by
  induction bs generalizing a with
  | nil => simp [cellsOf, SMap.get]
  | cons b t ih =>
    simp only [cellsOf]
    rw [get_append, ih (a + 1)]
    by_cases h : x = a
    · subst h
      rw [if_neg (show ¬ x + 1 ≤ x by omega), if_pos (le_refl _)]
      by_cases hb : b = 0
      · rw [if_pos hb, hb, Nat.sub_self]
        rfl
      · rw [if_neg hb, Nat.sub_self]
        simp only [SMap.get, if_true]
        rfl
    · have e : ∀ d : Byte, SMap.get (if b = 0 then [] else [(a, b)]) d x = d := by
        intro d
        apply get_notin
        intro e he
        split at he
        · simp at he
        · simp only [List.mem_singleton] at he
          subst he
          exact fun q => h q.symm
      rw [e]
      by_cases h2 : a ≤ x
      · rw [if_pos (show a + 1 ≤ x by omega), if_pos h2]
        obtain ⟨k, rfl⟩ : ∃ k, x = a + 1 + k := ⟨x - (a + 1), by omega⟩
        have e1 : a + 1 + k - (a + 1) = k := by omega
        have e2 : a + 1 + k - a = k + 1 := by omega
        rw [e1, e2]
        rfl
      · rw [if_neg (show ¬ a + 1 ≤ x by omega), if_neg h2]

/-- What a byte reads as after bytes are stored from `a`. -/
theorem Memory.byte_put (m : Memory) (a : Nat) (bs : List Byte) (x : Nat) :
    (m.put a bs).byte x = if a ≤ x ∧ x < a + bs.length then bs.getD (x - a) 0 else m.byte x := by
  unfold Memory.byte Memory.put putBytes
  simp only []
  rw [List.append_assoc]
  by_cases h1 : x < a
  · rw [SMap.get_filter_lt _ _ a x _ h1, if_neg (by omega)]
    congr 1
    rw [get_append, get_notin (m.cells.filter _) _ _ (by
      intro e he
      simp only [List.mem_filter, decide_eq_true_eq] at he
      omega), get_cellsOf, if_neg (by omega)]
  · rw [SMap.get_filter_skip _ _ a x _ (by omega), get_append]
    by_cases h2 : x < a + bs.length
    · rw [if_pos ⟨by omega, h2⟩, get_notin (m.cells.filter _) _ _ (by
        intro e he
        simp only [List.mem_filter, decide_eq_true_eq] at he
        omega), get_cellsOf, if_pos (by omega)]
    · rw [if_neg (by omega), get_notin (cellsOf a bs) _ _ (by
        intro e he
        have := cellsOf_mem a bs e he
        omega)]
      by_cases h3 : a + bs.length = 0
      · have : (fun c : Host.Cell => decide (a + bs.length ≤ c.1)) = fun _ => true := by
          funext c
          rw [h3]
          simp
        rw [this, List.filter_true]
      · have : (fun c : Host.Cell => decide (a + bs.length ≤ c.1)) = fun c => decide (a + bs.length - 1 < c.1) := by
          funext c
          congr 1
          simp only [eq_iff_iff]
          omega
        rw [this]
        exact SMap.get_filter_gt _ _ _ x (by omega)

@[simp] theorem Memory.byte_mark (m : Memory) (ks : List Nat) (p : Bool) (x : Nat) : (m.mark ks p).byte x = m.byte x := rfl

/-- A write of whole words stores its bytes and leaves every other byte. -/
theorem Memory.byte_write (m : Memory) (a : Nat) (bs : List Byte) (x : Nat) :
    (m.write a bs).byte x = if a ≤ x ∧ x < a + bs.length then bs.getD (x - a) 0 else m.byte x := m.byte_put a bs x

/-- A row write stores its bytes and leaves every other byte. -/
theorem Memory.byte_writeRow (m : Memory) (a : Nat) (bs : List Byte) (bad : List Nat) (x : Nat) :
    (m.writeRow a bs bad).byte x = if a ≤ x ∧ x < a + bs.length then bs.getD (x - a) 0 else m.byte x := m.byte_put a bs x

/-! ### The canonical form -/

theorem Memory.wf_put (m : Memory) (a : Nat) (bs : List Byte) (h : m.wf = true) : (m.put a bs).wf = true := by
  unfold Memory.wf at h ⊢
  rw [SMap.wf_iff] at h ⊢
  obtain ⟨hp, hd⟩ := h
  unfold Memory.put putBytes
  constructor
  · rw [List.append_assoc, List.pairwise_append, List.pairwise_append]
    refine ⟨hp.filter _, ⟨cellsOf_pairwise a bs, hp.filter _, ?_⟩, ?_⟩
    · intro p hp q hq
      have := cellsOf_mem a bs p hp
      simp only [List.mem_filter, decide_eq_true_eq] at hq
      omega
    · intro p hp q hq
      simp only [List.mem_filter, decide_eq_true_eq, List.mem_append] at hp hq
      rcases hq with hq | hq
      · have := cellsOf_mem a bs q hq
        omega
      · omega
  · intro e he
    simp only [List.mem_append, List.mem_filter] at he
    rcases he with (he | he) | he
    · exact hd e he.1
    · exact (cellsOf_mem a bs e he).2.2
    · exact hd e he.1

@[simp] theorem Memory.wf_mark (m : Memory) (ks : List Nat) (p : Bool) : (m.mark ks p).wf = m.wf := rfl

theorem Memory.wf_write (m : Memory) (a : Nat) (bs : List Byte) (h : m.wf = true) : (m.write a bs).wf = true := m.wf_put a bs h

theorem Memory.wf_writeRow (m : Memory) (a : Nat) (bs : List Byte) (bad : List Nat) (h : m.wf = true) : (m.writeRow a bs bad).wf = true :=
  m.wf_put a bs h

theorem Memory.wf_putStrobed (m : Memory) (a : Nat) (bs : List Byte) (strb : Nat) (h : m.wf = true) : (m.putStrobed a bs strb).wf = true := by
  unfold Memory.putStrobed
  generalize strobed bs strb = l
  induction l generalizing m with
  | nil => exact h
  | cons e l ih => exact ih _ (m.wf_put _ _ h)

theorem Memory.wf_reset : Memory.reset.wf = true := rfl

/-- Every memory is in canonical form at reset. -/
theorem memWf_reset : State.reset.memWf := ⟨rfl, rfl, rfl, fun _ => rfl, fun _ => rfl⟩

end Sys2Proof.Machine
end

