-- ==== Sys2Proof/Laws/Queue.lean ====
section
/-! SUPPORT. Time that passes, and a wait at the issue point, leave the queue of waiting commands and the integration parameters alone;
with `settle_pending` and `settle_par` that covers what every command does. -/

namespace Sys2Proof.Machine

set_option Elab.async false

set_option linter.all false

theorem pending_ite (c : Prop) [Decidable c] (a b : State) : (if c then a else b).pending = if c then a.pending else b.pending := by split <;> rfl
theorem pending_ite1 {β : Type} (c : Prop) [Decidable c] (a b : State × β) : (if c then a else b).1.pending = if c then a.1.pending else b.1.pending := by split <;> rfl
theorem pending_foldl {α : Type} (f : State → α → State) (l : List α) (s : State) (h : ∀ s a, (f s a).pending = s.pending) : (l.foldl f s).pending = s.pending := by
  induction l generalizing s with
  | nil => rfl
  | cons a l ih => exact (ih _).trans (h _ _)
theorem pending_foldl1 {α β : Type} (f : State × β → α → State × β) (l : List α) (s : State × β) (h : ∀ s a, (f s a).1.pending = s.1.pending) : (l.foldl f s).1.pending = s.1.pending := by
  induction l generalizing s with
  | nil => rfl
  | cons a l ih => exact (ih _).trans (h _ _)
theorem pending_State_setRate (x0 : Sys2Proof.Machine.State) (x1 : ℕ) : (Sys2Proof.Machine.State.setRate x0 x1).pending = x0.pending := by
  unfold Sys2Proof.Machine.State.setRate
  repeat' first
    | (simp only [pending_ite, pending_foldl, pending_foldl1, pending_ite1, implies_true, ite_self]; done)
    | with_reducible rfl
    | (simp only [pending_ite, pending_foldl, pending_foldl1, pending_ite1, implies_true, ite_self])
    | split
    | (refine (pending_foldl _ _ _ ?_).trans ?_ <;> try intro _ _)
    | (refine (pending_foldl1 _ _ _ ?_).trans ?_ <;> try intro _ _)
theorem pending_State_applyRate (x0 : Sys2Proof.Machine.State) : (Sys2Proof.Machine.State.applyRate x0).pending = x0.pending := by
  unfold Sys2Proof.Machine.State.applyRate
  repeat' first
    | (simp only [pending_ite, pending_foldl, pending_foldl1, pending_ite1, implies_true, ite_self, pending_State_setRate]; done)
    | with_reducible rfl
    | (simp only [pending_ite, pending_foldl, pending_foldl1, pending_ite1, implies_true, ite_self, pending_State_setRate])
    | split
    | (refine (pending_foldl _ _ _ ?_).trans ?_ <;> try intro _ _)
    | (refine (pending_foldl1 _ _ _ ?_).trans ?_ <;> try intro _ _)
theorem pending_State_tick (x0 : Sys2Proof.Machine.State) (x1 : ℕ) : (Sys2Proof.Machine.State.tick x0 x1).pending = x0.pending := by
  unfold Sys2Proof.Machine.State.tick
  repeat' first
    | (simp only [pending_ite, pending_foldl, pending_foldl1, pending_ite1, implies_true, ite_self]; done)
    | with_reducible rfl
    | (simp only [pending_ite, pending_foldl, pending_foldl1, pending_ite1, implies_true, ite_self])
    | split
    | (refine (pending_foldl _ _ _ ?_).trans ?_ <;> try intro _ _)
    | (refine (pending_foldl1 _ _ _ ?_).trans ?_ <;> try intro _ _)
theorem pending_State_elapse (x0 : Sys2Proof.Machine.State) (x1 : ℕ) : (Sys2Proof.Machine.State.elapse x0 x1).pending = x0.pending := by
  unfold Sys2Proof.Machine.State.elapse
  repeat' first
    | (simp only [pending_ite, pending_foldl, pending_foldl1, pending_ite1, implies_true, ite_self, pending_State_applyRate, pending_State_tick]; done)
    | with_reducible rfl
    | (simp only [pending_ite, pending_foldl, pending_foldl1, pending_ite1, implies_true, ite_self, pending_State_applyRate, pending_State_tick])
    | split
    | (refine (pending_foldl _ _ _ ?_).trans ?_ <;> try intro _ _)
    | (refine (pending_foldl1 _ _ _ ?_).trans ?_ <;> try intro _ _)
theorem pending_State_elapseTo (x0 : Sys2Proof.Machine.State) (x1 : ℕ) : (Sys2Proof.Machine.State.elapseTo x0 x1).pending = x0.pending := by
  unfold Sys2Proof.Machine.State.elapseTo
  repeat' first
    | (simp only [pending_ite, pending_foldl, pending_foldl1, pending_ite1, implies_true, ite_self, pending_State_elapse]; done)
    | with_reducible rfl
    | (simp only [pending_ite, pending_foldl, pending_foldl1, pending_ite1, implies_true, ite_self, pending_State_elapse])
    | split
    | (refine (pending_foldl _ _ _ ?_).trans ?_ <;> try intro _ _)
    | (refine (pending_foldl1 _ _ _ ?_).trans ?_ <;> try intro _ _)
theorem pending_State_setCore (x0 : Sys2Proof.Machine.State) (x1 : ℕ) (x2 : Sys2Proof.Machine.Core) : (Sys2Proof.Machine.State.setCore x0 x1 x2).pending = x0.pending := by
  unfold Sys2Proof.Machine.State.setCore
  repeat' first
    | (simp only [pending_ite, pending_foldl, pending_foldl1, pending_ite1, implies_true, ite_self]; done)
    | with_reducible rfl
    | (simp only [pending_ite, pending_foldl, pending_foldl1, pending_ite1, implies_true, ite_self])
    | split
    | (refine (pending_foldl _ _ _ ?_).trans ?_ <;> try intro _ _)
    | (refine (pending_foldl1 _ _ _ ?_).trans ?_ <;> try intro _ _)
theorem pending_State_onCore (x0 : Sys2Proof.Machine.State) (x1 : ℕ) (x2 : Sys2Proof.Machine.Core → Sys2Proof.Machine.Core) : (Sys2Proof.Machine.State.onCore x0 x1 x2).pending = x0.pending := by
  unfold Sys2Proof.Machine.State.onCore
  repeat' first
    | (simp only [pending_ite, pending_foldl, pending_foldl1, pending_ite1, implies_true, ite_self, pending_State_setCore]; done)
    | with_reducible rfl
    | (simp only [pending_ite, pending_foldl, pending_foldl1, pending_ite1, implies_true, ite_self, pending_State_setCore])
    | split
    | (refine (pending_foldl _ _ _ ?_).trans ?_ <;> try intro _ _)
    | (refine (pending_foldl1 _ _ _ ?_).trans ?_ <;> try intro _ _)
theorem pending_State_onCtx (x0 : Sys2Proof.Machine.State) (x1 : ℕ) (x2 : Sys2Proof.Ctx) (x3 : Sys2Proof.Machine.Context → Sys2Proof.Machine.Context) : (Sys2Proof.Machine.State.onCtx x0 x1 x2 x3).pending = x0.pending := by
  unfold Sys2Proof.Machine.State.onCtx
  repeat' first
    | (simp only [pending_ite, pending_foldl, pending_foldl1, pending_ite1, implies_true, ite_self, pending_State_onCore]; done)
    | with_reducible rfl
    | (simp only [pending_ite, pending_foldl, pending_foldl1, pending_ite1, implies_true, ite_self, pending_State_onCore])
    | split
    | (refine (pending_foldl _ _ _ ?_).trans ?_ <;> try intro _ _)
    | (refine (pending_foldl1 _ _ _ ?_).trans ?_ <;> try intro _ _)
theorem pending_State_hold (x0 : Sys2Proof.Machine.State) (x1 : ℕ) (x2 : Sys2Proof.Ctx) (x3 : ℕ) (x4 : ℕ) : (Sys2Proof.Machine.State.hold x0 x1 x2 x3 x4).pending = x0.pending := by
  unfold Sys2Proof.Machine.State.hold
  repeat' first
    | (simp only [pending_ite, pending_foldl, pending_foldl1, pending_ite1, implies_true, ite_self, pending_State_onCtx]; done)
    | with_reducible rfl
    | (simp only [pending_ite, pending_foldl, pending_foldl1, pending_ite1, implies_true, ite_self, pending_State_onCtx])
    | split
    | (refine (pending_foldl _ _ _ ?_).trans ?_ <;> try intro _ _)
    | (refine (pending_foldl1 _ _ _ ?_).trans ?_ <;> try intro _ _)
theorem par_ite (c : Prop) [Decidable c] (a b : State) : (if c then a else b).par = if c then a.par else b.par := by split <;> rfl
theorem par_ite1 {β : Type} (c : Prop) [Decidable c] (a b : State × β) : (if c then a else b).1.par = if c then a.1.par else b.1.par := by split <;> rfl
theorem par_foldl {α : Type} (f : State → α → State) (l : List α) (s : State) (h : ∀ s a, (f s a).par = s.par) : (l.foldl f s).par = s.par := by
  induction l generalizing s with
  | nil => rfl
  | cons a l ih => exact (ih _).trans (h _ _)
theorem par_foldl1 {α β : Type} (f : State × β → α → State × β) (l : List α) (s : State × β) (h : ∀ s a, (f s a).1.par = s.1.par) : (l.foldl f s).1.par = s.1.par := by
  induction l generalizing s with
  | nil => rfl
  | cons a l ih => exact (ih _).trans (h _ _)
theorem par_State_setRate (x0 : Sys2Proof.Machine.State) (x1 : ℕ) : (Sys2Proof.Machine.State.setRate x0 x1).par = x0.par := by
  unfold Sys2Proof.Machine.State.setRate
  repeat' first
    | (simp only [par_ite, par_foldl, par_foldl1, par_ite1, implies_true, ite_self]; done)
    | with_reducible rfl
    | (simp only [par_ite, par_foldl, par_foldl1, par_ite1, implies_true, ite_self])
    | split
    | (refine (par_foldl _ _ _ ?_).trans ?_ <;> try intro _ _)
    | (refine (par_foldl1 _ _ _ ?_).trans ?_ <;> try intro _ _)
theorem par_State_applyRate (x0 : Sys2Proof.Machine.State) : (Sys2Proof.Machine.State.applyRate x0).par = x0.par := by
  unfold Sys2Proof.Machine.State.applyRate
  repeat' first
    | (simp only [par_ite, par_foldl, par_foldl1, par_ite1, implies_true, ite_self, par_State_setRate]; done)
    | with_reducible rfl
    | (simp only [par_ite, par_foldl, par_foldl1, par_ite1, implies_true, ite_self, par_State_setRate])
    | split
    | (refine (par_foldl _ _ _ ?_).trans ?_ <;> try intro _ _)
    | (refine (par_foldl1 _ _ _ ?_).trans ?_ <;> try intro _ _)
theorem par_State_tick (x0 : Sys2Proof.Machine.State) (x1 : ℕ) : (Sys2Proof.Machine.State.tick x0 x1).par = x0.par := by
  unfold Sys2Proof.Machine.State.tick
  repeat' first
    | (simp only [par_ite, par_foldl, par_foldl1, par_ite1, implies_true, ite_self]; done)
    | with_reducible rfl
    | (simp only [par_ite, par_foldl, par_foldl1, par_ite1, implies_true, ite_self])
    | split
    | (refine (par_foldl _ _ _ ?_).trans ?_ <;> try intro _ _)
    | (refine (par_foldl1 _ _ _ ?_).trans ?_ <;> try intro _ _)
theorem par_State_elapse (x0 : Sys2Proof.Machine.State) (x1 : ℕ) : (Sys2Proof.Machine.State.elapse x0 x1).par = x0.par := by
  unfold Sys2Proof.Machine.State.elapse
  repeat' first
    | (simp only [par_ite, par_foldl, par_foldl1, par_ite1, implies_true, ite_self, par_State_applyRate, par_State_tick]; done)
    | with_reducible rfl
    | (simp only [par_ite, par_foldl, par_foldl1, par_ite1, implies_true, ite_self, par_State_applyRate, par_State_tick])
    | split
    | (refine (par_foldl _ _ _ ?_).trans ?_ <;> try intro _ _)
    | (refine (par_foldl1 _ _ _ ?_).trans ?_ <;> try intro _ _)
theorem par_State_elapseTo (x0 : Sys2Proof.Machine.State) (x1 : ℕ) : (Sys2Proof.Machine.State.elapseTo x0 x1).par = x0.par := by
  unfold Sys2Proof.Machine.State.elapseTo
  repeat' first
    | (simp only [par_ite, par_foldl, par_foldl1, par_ite1, implies_true, ite_self, par_State_elapse]; done)
    | with_reducible rfl
    | (simp only [par_ite, par_foldl, par_foldl1, par_ite1, implies_true, ite_self, par_State_elapse])
    | split
    | (refine (par_foldl _ _ _ ?_).trans ?_ <;> try intro _ _)
    | (refine (par_foldl1 _ _ _ ?_).trans ?_ <;> try intro _ _)
theorem par_State_setCore (x0 : Sys2Proof.Machine.State) (x1 : ℕ) (x2 : Sys2Proof.Machine.Core) : (Sys2Proof.Machine.State.setCore x0 x1 x2).par = x0.par := by
  unfold Sys2Proof.Machine.State.setCore
  repeat' first
    | (simp only [par_ite, par_foldl, par_foldl1, par_ite1, implies_true, ite_self]; done)
    | with_reducible rfl
    | (simp only [par_ite, par_foldl, par_foldl1, par_ite1, implies_true, ite_self])
    | split
    | (refine (par_foldl _ _ _ ?_).trans ?_ <;> try intro _ _)
    | (refine (par_foldl1 _ _ _ ?_).trans ?_ <;> try intro _ _)
theorem par_State_onCore (x0 : Sys2Proof.Machine.State) (x1 : ℕ) (x2 : Sys2Proof.Machine.Core → Sys2Proof.Machine.Core) : (Sys2Proof.Machine.State.onCore x0 x1 x2).par = x0.par := by
  unfold Sys2Proof.Machine.State.onCore
  repeat' first
    | (simp only [par_ite, par_foldl, par_foldl1, par_ite1, implies_true, ite_self, par_State_setCore]; done)
    | with_reducible rfl
    | (simp only [par_ite, par_foldl, par_foldl1, par_ite1, implies_true, ite_self, par_State_setCore])
    | split
    | (refine (par_foldl _ _ _ ?_).trans ?_ <;> try intro _ _)
    | (refine (par_foldl1 _ _ _ ?_).trans ?_ <;> try intro _ _)
theorem par_State_onCtx (x0 : Sys2Proof.Machine.State) (x1 : ℕ) (x2 : Sys2Proof.Ctx) (x3 : Sys2Proof.Machine.Context → Sys2Proof.Machine.Context) : (Sys2Proof.Machine.State.onCtx x0 x1 x2 x3).par = x0.par := by
  unfold Sys2Proof.Machine.State.onCtx
  repeat' first
    | (simp only [par_ite, par_foldl, par_foldl1, par_ite1, implies_true, ite_self, par_State_onCore]; done)
    | with_reducible rfl
    | (simp only [par_ite, par_foldl, par_foldl1, par_ite1, implies_true, ite_self, par_State_onCore])
    | split
    | (refine (par_foldl _ _ _ ?_).trans ?_ <;> try intro _ _)
    | (refine (par_foldl1 _ _ _ ?_).trans ?_ <;> try intro _ _)
theorem par_State_hold (x0 : Sys2Proof.Machine.State) (x1 : ℕ) (x2 : Sys2Proof.Ctx) (x3 : ℕ) (x4 : ℕ) : (Sys2Proof.Machine.State.hold x0 x1 x2 x3 x4).par = x0.par := by
  unfold Sys2Proof.Machine.State.hold
  repeat' first
    | (simp only [par_ite, par_foldl, par_foldl1, par_ite1, implies_true, ite_self, par_State_onCtx]; done)
    | with_reducible rfl
    | (simp only [par_ite, par_foldl, par_foldl1, par_ite1, implies_true, ite_self, par_State_onCtx])
    | split
    | (refine (par_foldl _ _ _ ?_).trans ?_ <;> try intro _ _)
    | (refine (par_foldl1 _ _ _ ?_).trans ?_ <;> try intro _ _)

end Sys2Proof.Machine
end

