-- ==== Sys2Proof/WellFormed.lean ====
section
/-! DEFINITION. When a command names only what the configuration has: the ranges of the operands. -/

namespace Sys2Proof

/-- Whether an HCP offset lies in the 64 MB window (R272). -/
def offOk (off : Nat) : Bool := decide (off < 0x4000000)

/-- Whether an offset in a window of `size` bytes is one of a 64-bit entry (R70, R168). -/
def off64Ok (off size : Nat) : Bool := decide (off % 8 = 0) && decide (off < size)

/-- Whether a burst of `n` beats from an offset of the pool window is one that the HCP takes (R168, R270, R272). -/
def burstOk (off n : Nat) : Bool :=
  off64Ok off 0x1000000 && decide (1 ≤ n ∧ n ≤ 64) && decide (off % 4096 + 8 * n ≤ 4096)

/-- Whether `g` is a region of the configuration (R1, R298). -/
def Params.rgnOk (p : Params) (g : Nat) : Bool := decide (g < p.ncg) || decide (6 ≤ g ∧ g ≤ 8)

/-- Whether a pair identifier names a pair of R226. -/
def PairId.ok : PairId → Bool
  | .gong => true
  | .partition p => decide (p < 16)
  | .queue q => decide (q < 1024)
  | .peal g => decide (g < 64)
  | .region n => decide (n < 6)
  | .admission => true

/-- Whether a memory and word exist in the configuration (R34, R168, R70, R213, R326). -/
def MemKind.ok (p : Params) : MemKind → Nat → Bool
  | .trf pc, w => decide (pc < p.npc) && decide (w < 8192)
  | .staging pc, w => decide (pc < p.npc) && decide (w < 32768)
  | .rowCache pc, w => decide (pc < p.npc) && decide (w < 2048)
  | .pool, w => decide (w < 524288)
  | .routeTable, w => decide (w < 131072)
  | .retention, w => decide (w < 8192)
  | .syncObjects, w => decide (w < 16384)
  | .queueMemory, w => decide (w < 32768)
  | .routeDirectory, w => decide (w < 2048)
  | .seqList sq, w => decide (sq < 4) && decide (4096 ≤ w ∧ w < 16384)
  | .seqCode sq, w => decide (sq < 4) && decide (w < 4096)
  | .carillonStore, w => decide (w < 12288)
  | .eventBuffer, w => decide (w < 8192)

/-- Whether a SIN beat is one of 128 bytes (R182). -/
def sinBeatOk (b : List Byte) : Bool := decide (b.length = 128)

/-- Whether a memory-port beat is one of 64 bytes (R269). -/
def beatOk (b : List Byte) : Bool := decide (b.length = 64)

/-- Well-formed commands: every number names a thing the configuration has. -/
def Instr.wf (p : Params) : Instr → Bool
  | .pairApply q | .pairHalfWrite q _ _ => q.ok
  | .registerWrite off _ _ => offOk off
  | .trfPartWrite pc _ | .trfPartApply pc | .trfCntClr pc | .fabCntClr pc | .cvtCntClr pc | .stallCntClr pc
  | .cvtLfsrWrite pc _ | .drainWindowEnd pc _ | .watchdogProbe pc _ _ | .tileComplete pc _ | .tileRestart pc _ =>
    decide (pc < p.npc)
  | .tld pc _ | .tst pc _ | .tmov pc _ | .perm pc _ | .permx pc _ | .axp pc _ | .trn pc _ | .gth pc _ | .sct pc _
  | .shuf pc _ | .brev pc _ | .ilv pc _ | .dil pc _ | .remap pc _ | .win pc _ | .redp pc _ | .sort pc _ | .cvt pc _
  | .scale pc _ | .qnt pc _ | .dqn pc _ | .hold pc _ | .wait pc _ | .sig pc _ | .hpop pc _ | .hpush pc _ | .pdl pc _
  | .admission pc _ | .stamp pc _ | .fence pc _ | .endList pc _ => decide (pc < p.npc)
  | .rowReturn pc _ row => decide (pc < p.npc) && decide (row < 64)
  | .routeFetchComplete pc slot | .solveComplete pc slot => decide (pc < p.npc) && decide (slot < 8)
  | .xcxContribution lc _ slice => decide (lc < p.nlc) && decide (slice < 16)
  | .routeTableWrite off _ _ => off64Ok off 0x400000
  | .shadowDirWrite off _ _ => off64Ok off 0x8000
  | .poolWindowRead off n => burstOk off n
  | .poolWindowWrite off beats => burstOk off beats.length
  | .soCountWrite so _ _ | .soAddWrite so _ _ => decide (so < 32768)
  | .histClr lc slot => decide (lc < p.nlc) && decide (slot < 16)
  | .sinFrame port f => decide (port < 4) && sinBeatOk f.header && f.beats.all sinBeatOk
  | .soutFrame port => decide (port < 4)
  | .soutCredit port _ => decide (port < 4)
  | .ringPoll ring _ _ _ | .outboundRingCopy ring _ => decide (ring < 16)
  | .burstFlush c => decide (c < 64)
  | .spillComplete q slot => decide (q < 1024) && decide (slot < 4096)
  | .todWord _ bits => decide (bits ≤ 128)
  | .timePulse c _ => decide (c < 1024)
  | .eventRingWrite ring n _ => decide (ring < 8) && decide (n < 8193)
  | .ringConsumerPoll ring _ _ | .watermarkWrite ring _ => decide (ring < 8)
  | .mpReadData port tag d _ _ _ => decide (port < 8) && decide (tag < 2048) && beatOk d
  | .mpWriteResponse port tag _ => decide (port < 8) && decide (tag < 1024)
  | .mpRetry port tag _ => decide (port < 8) && decide (tag < 2048)
  | .hcpAccessInReset off _ | .defaultTargetAccess _ off _ | .regionOffAccess _ off _ => offOk off
  | .stateEntryComplete g | .wakeStepComplete g | .wakeStepTimeout g | .rgnVoteSet g _ | .rgnVoteClr g _
  | .regionReturnToRun g => p.rgnOk g
  | .aonCompareWake c _ => match c with | .programmed => true | .tu g => p.rgnOk g
  | .sinActivityWake port => decide (port < 4)
  | .knellReqGo pc | .diagGo pc | .unknell pc => decide (pc.toNat < p.npc)
  | .scrubRead k w _ => k.ok p w
  | .injArm d _ | .injection d _ => decide (d < 16)
  | .lockstepMismatch q | .pairRestartComplete q _ _ => decide (q < 2)
  | _ => true

end Sys2Proof
end

