-- ==== Sys2Proof/Tests/Slice0.lean ====
section
/-! SUPPORT. Small tests: ill-formed commands that `Instr.wf` refuses, a few results that the spec works out, and for every
statement with hypotheses a state and operands that meet them (clause by clause where it has several). -/

namespace Sys2Proof.Tests

set_option Elab.async false

open Sys2Proof Sys2Proof.Machine

/-! ### Ill-formed commands, one for each check -/

/-- The configuration the tests use: the hard macro of MPX-16. -/
def hw : Params := Params.hardMacro

theorem test_wf_core_numbers : hw.npc = 18 ∧ hw.nlc = 16 ∧ hw.ncg = 6
    ∧ Instr.wf hw (.trfPartWrite 18 true) = false ∧ Instr.wf hw (.trfPartWrite 17 true) = true
    ∧ Instr.wf hw (.cvt 18 .fg) = false ∧ Instr.wf hw (.endList 17 .bg) = true
    ∧ Instr.wf hw (.rowReturn 18 0 0) = false ∧ Instr.wf hw (.rowReturn 0 0 64) = false
    ∧ Instr.wf hw (.routeFetchComplete 0 8) = false ∧ Instr.wf hw (.solveComplete 18 0) = false
    ∧ Instr.wf hw (.knellReqGo 18) = false ∧ Instr.wf hw (.diagGo 18) = false ∧ Instr.wf hw (.unknell 17) = true := by
  decide +kernel

theorem test_wf_offsets : Instr.wf hw (.registerWrite 0x4000000 0 15) = false ∧ Instr.wf hw (.routeTableWrite 0x400000 0 255) = false
    ∧ Instr.wf hw (.routeTableWrite 4 0 255) = false ∧ Instr.wf hw (.shadowDirWrite 0x8000 0 255) = false
    ∧ Instr.wf hw (.soCountWrite 32768 0 15) = false ∧ Instr.wf hw (.soAddWrite 32768 0 15) = false
    ∧ Instr.wf hw (.poolWindowRead 0x1000000 1) = false ∧ Instr.wf hw (.poolWindowRead 0xFF8 2) = false
    ∧ Instr.wf hw (.poolWindowWrite 0 []) = false ∧ Instr.wf hw (.hcpAccessInReset 0x4000000 true) = false
    ∧ Instr.wf hw (.regionOffAccess .sm 0x4000000 true) = false := by decide +kernel

theorem test_wf_numbers : Instr.wf hw (.xcxContribution 16 0 0) = false ∧ Instr.wf hw (.xcxContribution 0 0 16) = false
    ∧ Instr.wf hw (.histClr 0 16) = false ∧ Instr.wf hw (.soutFrame 4) = false ∧ Instr.wf hw (.soutCredit 4 1) = false
    ∧ Instr.wf hw (.outboundRingCopy 16 0) = false ∧ Instr.wf hw (.burstFlush 64) = false
    ∧ Instr.wf hw (.spillComplete 1024 0) = false ∧ Instr.wf hw (.spillComplete 0 4096) = false
    ∧ Instr.wf hw (.todWord 0 129) = false ∧ Instr.wf hw (.timePulse 1024 0) = false
    ∧ Instr.wf hw (.eventRingWrite 8 1 0) = false ∧ Instr.wf hw (.watermarkWrite 8 0) = false
    ∧ Instr.wf hw (.mpWriteResponse 8 0 .ok) = false ∧ Instr.wf hw (.mpWriteResponse 0 1024 .ok) = false
    ∧ Instr.wf hw (.mpRetry 0 2048 0) = false ∧ Instr.wf hw (.injArm 16 0) = false ∧ Instr.wf hw (.lockstepMismatch 2) = false := by
  decide +kernel

theorem test_wf_things : Instr.wf hw (.pairApply (.queue 1024)) = false ∧ Instr.wf hw (.pairApply (.partition 16)) = false
    ∧ Instr.wf hw (.pairHalfWrite (.peal 64) .a 0) = false ∧ Instr.wf hw (.pairHalfWrite (.region 6) .b 0) = false
    ∧ Instr.wf hw (.rgnVoteSet 9 0) = false ∧ Instr.wf hw (.stateEntryComplete 9) = false
    ∧ Instr.wf hw (.aonCompareWake (.tu 9) 0) = false ∧ Instr.wf hw (.scrubRead (.trf 18) 0 .clean) = false
    ∧ Instr.wf hw (.scrubRead (.seqList 0) 4095 .clean) = false ∧ Instr.wf hw (.scrubRead .eventBuffer 8192 .clean) = false
    ∧ Instr.wf hw (.sinFrame 0 { header := [], beats := [] }) = false
    ∧ Instr.wf hw (.mpReadData 0 0 [] .ok 0 true) = false := by decide +kernel

/-- The table gives no row any bits, so no word spells a command. -/
theorem test_no_word_is_a_command (nbits w : Nat) : decodeTableWord nbits w = none := rfl

/-! ### States that the witnesses stand on -/

/-- A block that runs: no start is due and the stream links are up; the rest as reset leaves it. -/
def up : State :=
  { State.reset with boot := { State.reset.boot with pend := none, state := .running }, pins := { State.reset.pins with strUp := true } }

/-- The same block in block OFF. -/
def dark : State := { up with pwr := { up.pwr with blockOff := true } }

/-- The same block with one region in another state. -/
def upRegion (g : Nat) (st : RgnState) (s : State := up) : State := s.setRegion g { s.region g with state := st }

/-- The same block with the boot unit in another state. -/
def upBoot (st : BootState) (s : State := up) : State := { s with boot := { s.boot with state := st } }

/-- The same block with the configuration unit in another state. -/
def upCfg (st : CfgState) (s : State := up) : State := { s with cfg := { s.cfg with state := st } }

/-! ### Step, reset, accesses -/

theorem witness_StepRunsTheFrontCommand : ({ up with pending := [.gongEnable] } : State).pending = .gongEnable :: [] := rfl

theorem test_step_runs_front : ∃ t, step { up with pending := [.gongEnable] } = .next t ∧ t.gong.en = true ∧ t.pending = [] := by
  refine ⟨_, rfl, ?_⟩
  decide +kernel

theorem witness_EmptyQueueLetsOneTickPass : up.pending = [] ∧ up.pwr.blockOff = false ∧ up.tu.onSlow = false
    ∧ dark.pending = [] ∧ dark.pwr.blockOff = true := by decide +kernel

theorem witness_AccessNotServedAnswersNoTarget :
    accessAt .gongEnable = some (0x10400, true) ∧ dark.pwr.blockOff = true ∧ up.pwr.blockOff = false
      ∧ State.reset.inReset = true ∧ State.reset.pwr.blockOff = false ∧ accessAt (.poolWindowRead 0 2) = some (0x1000000, false)
      ∧ accessAt (.registerWrite 0x3FFFFFC 0 15) = some (0x3FFFFFC, true) ∧ up.verdict .hcp 0x3FFFFFC = .miss ∧ up.pathFree 0x3FFFFFC = true
      ∧ (upRegion 7 .off).verdict .hcp 0x10400 = .off 7 ∧ (upRegion 7 .off).pathFree 0x10400 = true := by decide +kernel

/-- R285 with R290: a read in reset returns data 0 on every beat, NO_TARGET, and one more count. -/
theorem test_read_in_reset : (match exec (.poolWindowRead 0 2) State.reset with
    | .next t => t.hcp.data == [0, 0] && t.hcp.resp == .noTarget && t.mp.hcpRst == 1 && t.ev.buf.isEmpty
    | _ => false) = true := by decide +kernel

/-- An image whose power section lets accesses wake the spine. -/
def spineWakes : Image :=
  { header := [], crc := 0, signed := false
    sects := [{ ty := tyPower, inst := 0, off := 0, len := 96, scrc := 0, data := List.replicate 96 1 }] }

/-- A block whose route-table entries 0 to 7 a load writes. -/
def liveState : State := { up with routes := { up.routes with extra := [(0, 8)] } }

/-- A block with every region in OFF. -/
def allOff : State := [0, 1, 2, 3, 4, 5, 6, 7].foldl (fun s g => upRegion g .off s) up

/-- The same with the rail port there. -/
def withSrp : State := { allOff with par := { allOff.par with srpEn := true } }

/-- A block whose core 3 is fenced. -/
def knelled : State := { up with sm := { up.sm with fenced := 8 } }

/-- The same with its diagnostics passed. -/
def diagPassed : State := { knelled with sm := { knelled.sm with diagOk := 8 } }

/-- A block whose region 6 sleeps and wakes for accesses. -/
def asleep : State := upRegion 6 .sleep { up with cfg := { up.cfg with active := some spineWakes, activeValid := true } }

/-- An access of the SM, and of the HCP whose burst is an orphan. -/
def smAccess : MAccess := { who := .sm, cmd := .regionOffAccess .sm 0x60000 true, orphan := false }
def orphanAccess : MAccess := { who := .hcp, cmd := .streamCntClr, orphan := true }

theorem witness_AccessRowsWithoutAValue : up.pwr.blockOff = false ∧ State.reset.inReset = true
    ∧ up.verdict .sq0 0x3FFFFFC = .miss ∧ up.reaches .sq0 0x3FFFFFC = true
    ∧ (upRegion 6 .off).verdict .sm 0x60000 = .off 6 ∧ (upRegion 6 .off).reaches .sm 0x60000 = true
    ∧ asleep.verdict .hcp 0x60000 = .stall 6 ∧ asleep.reaches .hcp 0x60000 = true ∧ (asleep.region 6).entering = none := by
  decide +kernel

theorem witness_AccessRowsWithoutAValue_paths :
    (let s := asleep.setTarget (asleep.portOf .sm 0x60000) { last := none, park := none, smRun := 0, path := some smAccess, waits := [] };
      s.verdict .sm 0x60000 = .stall 6 ∧ s.forwards .sm = true ∧ (s.target (s.portOf .sm 0x60000)).path = some smAccess)
    ∧ (let a : Target := { last := none, park := none, smRun := 3, path := none, waits := [orphanAccess, smAccess] };
      a.waits.any (fun a => decide (a.who = .sm)) = true ∧ a.smRun < 4)
    ∧ (let a : Target := { last := some .hcp, park := none, smRun := 4, path := none, waits := [orphanAccess, smAccess] };
      4 ≤ a.smRun ∧ a.last = some .hcp ∧ Master.hcp ≠ .sm ∧ (∃ x ∈ a.waits, x.who = .hcp)
        ∧ ∀ x ∈ a.waits, x.who ≠ .sm → (masterCode .hcp + 5 - masterCode .hcp) % 6 ≤ (masterCode x.who + 5 - masterCode .hcp) % 6)
    ∧ (∀ e ∈ up.mp.targets, e.2.path = none ∧ e.2.waits = []) ∧ (∀ g, g < 8 → (up.region g).access = false)
    ∧ (let s := up.setTarget 5 { last := none, park := none, smRun := 0, path := some orphanAccess, waits := [] };
      (s.target 5).path = some orphanAccess ∧ accessAt orphanAccess.cmd = some (0x6003C, true) ∧ s.verdict .hcp 0x6003C = .serve) := by
  decide +kernel

/-! ### Register writes -/

theorem witness_GongControlWrites : up.serves 0x10400 = true ∧ up.serves 0x10420 = true := by decide +kernel

/-- The spec gives no overlap: EN clear after EN set leaves the unit as it was but for the free-run start. -/
theorem test_gong_enable_disable : ∃ t u, exec .gongEnable up = .next t ∧ t.gong.en = true ∧ t.gong.nextN = 1
    ∧ exec .gongDisable t = .next u ∧ u.gong.en = false := by
  refine ⟨_, _, rfl, ?_, ?_, rfl, ?_⟩ <;> decide +kernel

theorem witness_CounterClears : up.serves 0x10440 = true ∧ up.serves 0x6003C = true ∧ up.hasCore 0 = true ∧ up.hasCore 17 = true
    ∧ up.hasCore 18 = false ∧ up.serves (0x100120 + 0x10000 * 17) = true ∧ up.serves (0x10021C + 0x10000 * 17) = true
    ∧ up.serves (0x10041C + 0x10000 * 17) = true ∧ up.serves (0x100580 + 0x10000 * 17) = true := by decide +kernel

theorem witness_CoreBankWrites : up.hasCore 17 = true ∧ up.serves (0x100100 + 0x10000 * 17) = true ∧ (up.core 17).part = false
    ∧ up.serves (0x100418 + 0x10000 * 17) = true ∧ up.serves (0x41000 + 0x80 * 15 + 8 * 15) = true := by decide +kernel

theorem witness_RegisterWriteSetsTheField : up.serves 0x44 = true ∧ up.serves 0x80034 = true ∧ 0x44 % 4 = 0
    ∧ up.accessReserved (.registerWrite 0x44 0x100000000 0xF0) = false ∧ reservedBits 0x44 1 = false ∧ reservedBits 0x80034 0 = false
    ∧ ¬ (0x80034 % 8 = 0 ∧ ((0x10 : BitVec 8) = 0x0F ∨ (0x10 : BitVec 8) = 0xFF)) ∧ (0x10 : BitVec 8) ≠ 0xF0
    ∧ 0x48 % 8 = 0 ∧ up.serves 0x48 = true ∧ reservedBits 0x48 0 = false ∧ reservedBits (0x48 + 4) 0 = false
    ∧ up.serves 0x10440 = true ∧ up.hasReg 0x10440 = true ∧ reservedBits 0x10440 4 = true := by
  decide +kernel

theorem test_clr_lfsr_zero : ∃ t, exec (.cvtLfsrWrite 3 0) up = .next t ∧ (t.core 3).lfsr = 1 := by
  refine ⟨_, rfl, ?_⟩
  decide +kernel

theorem witness_PairHalvesWaitForEachOther :
    up.hasPair (.queue 1023) = true ∧ (0x1FF : Word).toNat < 2 ^ pairWidth (.queue 1023) .a ∧ up.serves (pairOff (.queue 1023) .a) = true
      ∧ up.hasPair .gong = true ∧ (31 : Word).toNat < 2 ^ pairWidth .gong .b ∧ up.serves (pairOff .gong .b) = true
      ∧ up.serves 0x4000C = true := by decide +kernel

/-! ### Windows, configuration, time, translation -/

/-- A route table with a live group: an update is armed whose shadow entry names it. -/
theorem witness_RouteTableAndDirectoryWrites : up.serves (0xC00000 + 0x3FFFF8) = true ∧ up.groupLive (0x3FFFF8 / 8) = false
    ∧ liveState.serves 0xC00000 = true ∧ liveState.groupLive (0 / 8) = true ∧ up.serves (0x808000 + 0x7FF8) = true
    ∧ up.serves 0x810000 = true := by decide +kernel

theorem witness_SyncObjectWrites : up.serves (0x400000 + 16 * 32767) = true ∧ up.serves (0x400004 + 16 * 32767) = true := by decide +kernel

theorem witness_PoolWindowAccesses : up.serves (0x1000000 + 0xFFFFF8) = true := by decide +kernel

theorem witness_ConfigurationCommands : up.serves 0x4000C = true ∧ up.serves 0x400B0 = true
    ∧ up.boot.state ≠ .minimal ∧ up.cfg.resume = false ∧ up.cfg.state = .empty ∧ fld (up.reg 0x40008) 0 24 = 0
    ∧ (up.setReg 0x40000 32).serves 0x4000C = true ∧ (up.setReg 0x40000 32).imgAddr % 64 ≠ 0
    ∧ (upCfg .loading).serves 0x4000C = true ∧ (upCfg .loading).cfg.state = .loading ∧ (upCfg .armed).serves 0x4000C = true
    ∧ (upCfg .staged).serves 0x4000C = true := by decide +kernel

theorem witness_TimeUnitWrites : up.serves 0x10020 = true ∧ up.serves 0x1004C = true ∧ fld (up.reg 0x10048) 0 30 ≤ 999999999
    ∧ 999999999 < fld ((up.setReg 0x10048 1000000000).reg 0x10048) 0 30 ∧ (up.setReg 0x10048 1000000000).serves 0x1004C = true := by
  decide +kernel

theorem witness_TranslationRegisterWrites : up.serves 0x5040C = true ∧ up.serves 0x50400 = true
    ∧ fld (up.reg 0x50400) 0 20 = (0 : BitVec 20).toNat := by decide +kernel

theorem witness_PowerUnitWrites : up.hasRegion 5 = true ∧ up.serves (0x20208 + 0x10 * 7) = true ∧ up.hasRegion 7 = true
    ∧ up.serves (0x2020C + 0x10 * 5) = true ∧ up.serves 0x20018 = true ∧ up.serves 0x20028 = true
    ∧ up.pwr.srpBusy = false ∧ withSrp.pwr.srpBusy = false ∧ withSrp.par.srpEn = true ∧ withSrp.serves 0x20028 = true
    ∧ withSrp.railOk 800 = true ∧ withSrp.railOk 600 = true ∧ (800 : BitVec 10).toNat % 5 = 0 ∧ 800 < (805 : BitVec 10).toNat
    ∧ ({ up with pwr := { up.pwr with srpBusy := true } } : State).serves 0x20028 = true := by decide +kernel

theorem witness_BlockOffNeedsEveryRegionOff : allOff.serves 0x20004 = true
    ∧ (∀ g, g < 8 → allOff.hasRegion g = true → (allOff.region g).state = .off)
    ∧ up.serves 0x20004 = true ∧ up.hasRegion 7 = true ∧ (up.region 7).state ≠ .off := by decide +kernel

/-! ### Safety manager and boot unit -/

theorem witness_KnellRequestFencesTheCore : up.serves 0x30040 = true ∧ up.hasCore (17 : BitVec 5).toNat = true
    ∧ up.fenced (17 : BitVec 5).toNat = false ∧ up.hasCore (18 : BitVec 5).toNat = false ∧ knelled.serves 0x30040 = true
    ∧ knelled.fenced 3 = true := by decide +kernel

theorem witness_SafetyManagerWrites : up.serves (0x30300 + 8 * 15) = true ∧ up.serves 0x30048 = true ∧ up.serves 0x30050 = true
    ∧ (diagPassed.fenced (3 : BitVec 5).toNat = true ∧ diagPassed.sm.diagOk.getLsbD (3 : BitVec 5).toNat = true
      ∧ diagPassed.serves 0x30050 = true)
    ∧ up.fenced (3 : BitVec 5).toNat = false ∧ up.sm.diagOk.getLsbD (3 : BitVec 5).toNat = false := by decide +kernel

theorem witness_RestartActsOnlyWhenFailedOrMinimal : (upBoot .failed).serves 0x80008 = true ∧ (upBoot .minimal).serves 0x80008 = true
    ∧ up.serves 0x80008 = true ∧ up.boot.state ≠ .failed ∧ up.boot.state ≠ .minimal := by decide +kernel

theorem witness_BootUnitWrites : (upBoot .waitFetch).serves 0x80008 = true ∧ up.serves 0x80008 = true ∧ up.boot.state ≠ .waitFetch
    ∧ (upBoot .minimal).serves 0x80008 = true ∧ up.boot.ready = false
    ∧ ({ up with boot := { up.boot with ready := true } } : State).serves 0x80008 = true
    ∧ (upBoot .minimal).serves 0x80030 = true ∧ (upBoot .minimal).tu.saved = none ∧ (upBoot .minimal).tu.ledger = []
    ∧ (262140 : Word).toNat % 4 = 0 ∧ (262140 : Word).toNat < 262144 ∧ ¬ (262144 : Word).toNat < 262144
    ∧ up.serves 0x80030 = true ∧ up.inReset = false ∧ 3 ≤ (3 : BitVec 8).toNat := by decide +kernel

/-! ### Commands of a list -/

/-- A list of logical core 0 that gong 1 must end. -/
def theList : ListRef := { lc := 0, entry := 0, start := 0, carry := false, gsn := 0, free := false, after := false }

/-- A record of the words that are named, 0 elsewhere. -/
def rec8 (w0 : Word) (w1 : Word := 0) (w2 : Word := 0) (w3 : Word := 0) (w4 : Word := 0) (w5 : Word := 0) : List Word :=
  [w0, w1, w2, w3, w4, w5, 0, 0]

/-- A block whose core 0 stands at the record `r`, its core changed by `f`. -/
def atCmd (r : List Word) (f : Core → Core := id) (s : State := up) : State :=
  { s with
    seqMem := SMap.set [] Memory.reset 0 (Memory.reset.write listArea (r.flatMap (fun w => leBytes 4 w.toNat)))
    cores := SMap.set [] Core.reset 0
      (f { Core.reset with held := false, fg := { Context.reset with list := some theList }, nextId := 5 }) }

/-- A command in flight on core 0, of record `r`. -/
def flying (r : List Word) (dest : Option Nat := none) (phase : Phase := .done) : InFlight :=
  { id := 1, ctx := .fg, list := theList, index := 0, words := r, dest := dest, slot := dest.map (fun d => d + 8), result := Tile.reset, srcs := [],
    reads := [], writes := [], phase := phase, mallet := none, stats := CvtStats.zero, rerun := false, late := false, noted := false, kept := [] }

/-- A core with that command in flight. -/
def withFlight (x : InFlight) (k : Core) : Core := { k with flight := [x] }

/-- A core whose foreground context is changed by `f`. -/
def withFg (f : Context → Context) (k : Core) : Core := { k with fg := f k.fg }

/-- A handle of pool buffer 7 that a register holds. -/
def held7 : HReg := { handle := 7, side := 0, input := true, bound := none, reserved := [] }

/-- A block whose queue 3 is the foreground context's own, with one handle in it. -/
def withQueue (hs : List QEnt) (s : State) : State :=
  s.setQueue 3 { Queue.reset with depth := 4, init := 4, credits := 4, valid := true, producer := ctxEndpoint 0 .fg, consumer := ctxEndpoint 0 .fg, handles := hs }

/-- The same handle in a queue. -/
def qent7 : QEnt := { handle := 7, side := 0, peal := none, spilling := none }

def holdRec : List Word := rec8 0x30 0 0 0x00000000 0
def holdWaits : List Word := rec8 0x30 0 0 0x00008000 1
def waitRec : List Word := rec8 0x31 0 0 0x00007FFF 0
def waitWaits : List Word := rec8 0x31 0 0 0x00007FFF 1
def sigRec : List Word := rec8 0x32 0 0 0x00008005 9
def hpopRec : List Word := rec8 0x33 0 0 0x00000003
def hpushRec : List Word := rec8 0x34 0 0 0x00000003
def hreleaseRec : List Word := rec8 0x34 0 0 0x00004003
def pdlRec : List Word := rec8 0x35 0 0 0x00000000
def pdlGong : List Word := rec8 0x35 0 0 0x00000010
def admitRec : List Word := rec8 0x36 0 0 0
def admitRel : List Word := rec8 0x36 0 0 1
def stampRec : List Word := rec8 0x37 0 0 0xABCD
def fenceRec : List Word := rec8 0x38 0 0 0
def endRec : List Word := rec8 0x3F

/-- An image that defines the pair 0 of logical core 0 as one in staging. -/
def pairImage : Image :=
  { header := [], crc := 0, signed := false
    sects := [{ ty := tyPairs, inst := 0, off := 0, len := 4096, scrc := 0, data := [4, 0, 0, 0, 0, 1] }] }

/-- The block with that image in force. -/
def withPair (s : State) : State := { s with cfg := { s.cfg with active := some pairImage, activeValid := true } }

theorem witness_SyncCommandsWaitAndSignal :
    (atCmd holdRec).atIssue 0 .fg 0x30 theList holdRec ∧ ctCond holdRec < 2 ∧ ctBit15 holdRec = false
      ∧ (atCmd holdWaits).atIssue 0 .fg 0x30 theList holdWaits ∧ ctCond holdWaits < 2 ∧ ctBit15 holdWaits = true
      ∧ condHolds (ctCond holdWaits) ((atCmd holdWaits).sync (ctSo holdWaits)).count (ctValue holdWaits) = false
      ∧ (atCmd waitRec).atIssue 0 .fg 0x31 theList waitRec
      ∧ condHolds (ctCond waitRec) ((atCmd waitRec).sync (ctSo waitRec)).count (ctValue waitRec) = true
      ∧ (atCmd waitWaits).atIssue 0 .fg 0x31 theList waitWaits
      ∧ condHolds (ctCond waitWaits) ((atCmd waitWaits).sync (ctSo waitWaits)).count (ctValue waitWaits) = false
      ∧ (atCmd sigRec).atIssue 0 .fg 0x32 theList sigRec ∧ (atCmd sigRec).ctxDone 0 .fg = true
      ∧ (atCmd sigRec (withFlight (flying sigRec))).atIssue 0 .fg 0x32 theList sigRec
      ∧ (atCmd sigRec (withFlight (flying sigRec))).ctxDone 0 .fg = false := by
  and_intros <;> decide +kernel

theorem test_sig_sets_count : ∃ t, exec (.sig 0 .fg) (atCmd sigRec) = .next t ∧ (t.sync 5).count = 9 ∧ (t.sync 5).lastPc = 0
    ∧ (t.core 0).fg.index = 1 := by
  refine ⟨_, rfl, ?_⟩
  decide +kernel

theorem witness_SignalSetsOrAddsTheCount : up.stale 0 = false ∧ knelled.stale 17 = false := by decide +kernel

theorem witness_HandleCommandsMoveHandles :
    ((withQueue [qent7] (atCmd hpopRec)).atIssue 0 .fg 0x33 theList hpopRec
      ∧ ((withQueue [qent7] (atCmd hpopRec)).core 0).fg.hreg (ctH hpopRec) = none
      ∧ (withQueue [qent7] (atCmd hpopRec)).consumer (ctHq hpopRec) 0 .fg = true
      ∧ ∃ u h side, (withQueue [qent7] (atCmd hpopRec)).pop (ctHq hpopRec) true = (u, .handle h side))
    ∧ ((withQueue [] (atCmd hpopRec)).atIssue 0 .fg 0x33 theList hpopRec ∧ (withQueue [] (atCmd hpopRec)).consumer (ctHq hpopRec) 0 .fg = true
      ∧ ∃ u w, (withQueue [] (atCmd hpopRec)).pop (ctHq hpopRec) true = (u, .wait w))
    ∧ ((atCmd hpopRec (withFg (fun x => x.setHreg 0 (some held7)))).atIssue 0 .fg 0x33 theList hpopRec
      ∧ (((atCmd hpopRec (withFg (fun x => x.setHreg 0 (some held7)))).core 0).fg.hreg (ctH hpopRec)).isSome = true) := by
  refine ⟨⟨?_, ?_, ?_, _, _, _, rfl⟩, ⟨?_, ?_, _, _, rfl⟩, ?_, ?_⟩ <;> and_intros <;> decide +kernel

theorem witness_HandleCommandsMoveHandles_push :
    ((withQueue [] (atCmd hpushRec (withFg (fun x => x.setHreg 0 (some held7))))).atIssue 0 .fg 0x34 theList hpushRec
      ∧ ((withQueue [] (atCmd hpushRec (withFg (fun x => x.setHreg 0 (some held7))))).core 0).fg.hreg (ctH hpushRec) = some held7
      ∧ ctRelease hpushRec = false ∧ ctRelease hreleaseRec = true
      ∧ (withQueue [] (atCmd hpushRec (withFg (fun x => x.setHreg 0 (some held7))))).producer (ctHq hpushRec) 0 .fg = true
      ∧ (((withQueue [] (atCmd hpushRec (withFg (fun x => x.setHreg 0 (some held7))))).core 0).inFlight .fg) = []
      ∧ (withQueue [] (atCmd hpushRec (withFg (fun x => x.setHreg 0 (some held7))))).pushWait (ctHq hpushRec) (held7.heldFor (ctHq hpushRec)) = none)
    ∧ (atCmd hreleaseRec (withFg (fun x => x.setHreg 0 (some held7)))).atIssue 0 .fg 0x34 theList hreleaseRec
    ∧ ((atCmd hpushRec).atIssue 0 .fg 0x34 theList hpushRec ∧ ((atCmd hpushRec).core 0).fg.hreg (ctH hpushRec) = none) := by
  and_intros <;> decide +kernel

theorem witness_PairSwapCommand : (atCmd pdlRec).atIssue 0 .fg 0x35 theList pdlRec
    ∧ prValid ((atCmd pdlRec).pairRec 0 (ctPair pdlRec)) = false
    ∧ (withPair (atCmd pdlRec)).atIssue 0 .fg 0x35 theList pdlRec ∧ prValid ((withPair (atCmd pdlRec)).pairRec 0 (ctPair pdlRec)) = true
    ∧ (((withPair (atCmd pdlRec)).core 0).inFlight .fg) = []
    ∧ (withPair (atCmd pdlRec)).fetchingInto ((withPair (atCmd pdlRec)).pairRec 0 (ctPair pdlRec)) = false ∧ ctAtgong pdlRec = false
    ∧ (withPair (atCmd pdlGong)).atIssue 0 .fg 0x35 theList pdlGong ∧ prValid ((withPair (atCmd pdlGong)).pairRec 0 (ctPair pdlGong)) = true
    ∧ ctAtgong pdlGong = true := by
  and_intros <;> decide +kernel

/-- A block that gongs, in its curfew. -/
def inCurfew (s : State) : State := { s with gong := { s.gong with en := true, inCurfew := true } }

theorem witness_AdmitStampAndFence :
    ((atCmd admitRel).atIssue 0 .fg 0x36 theList admitRel ∧ ctRel admitRel = true)
    ∧ ((atCmd admitRec (withFg (fun x => { x with granted := some { cls := 1, charge := 5 } }))).atIssue 0 .fg 0x36 theList admitRec
      ∧ ctRel admitRec = false)
    ∧ ((atCmd admitRec).atIssue 0 .fg 0x36 theList admitRec ∧ ((atCmd admitRec).core 0).fg.granted = none
      ∧ (atCmd admitRec).curfewHolds theList = false ∧ ((atCmd admitRec).core 0).fg.requested = false)
    ∧ ((inCurfew (atCmd admitRec)).atIssue 0 .fg 0x36 theList admitRec ∧ (inCurfew (atCmd admitRec)).curfewHolds theList = true)
    ∧ (atCmd stampRec).atIssue 0 .fg 0x37 theList stampRec
    ∧ ((atCmd fenceRec).atIssue 0 .fg 0x38 theList fenceRec ∧ ((atCmd fenceRec).core 0).fg.fence = none
      ∧ ctXctx fenceRec = false)
    ∧ (atCmd fenceRec (withFlight (flying sigRec))).atIssue 0 .fg 0x38 theList fenceRec := by
  and_intros <;> decide +kernel

theorem witness_EndOfAList : (atCmd endRec).atIssue 0 .fg 0x3F theList endRec ∧ (atCmd endRec).ctxDone 0 .fg = true
    ∧ ((atCmd endRec).core 0).fg.hregs = []
    ∧ (atCmd endRec (withFlight (flying sigRec))).atIssue 0 .fg 0x3F theList endRec
    ∧ (atCmd endRec (withFlight (flying sigRec))).ctxDone 0 .fg = false := by
  and_intros <;> decide +kernel

theorem witness_BadRecordsAreCommandErrors :
    ({ atCmd holdRec with seqMem := (atCmd holdRec).seqMem.map (fun e => (e.1, e.2.mark [listArea / 32] true)) } : State).issuePoint 0 .fg
        = some (theList, holdRec, true)
      ∧ ((atCmd (rec8 0x30)).issuePoint 0 .fg).isSome = true
      ∧ reservedSet [0x30, 0, 0, 0, 0, 0, 0x8000, 0] = true
      ∧ (atCmd [0x30, 0, 0, 0, 0, 0, 0x8000, 0]).issuePoint 0 .fg = some (theList, [0x30, 0, 0, 0, 0, 0, 0x8000, 0], false)
      ∧ ((atCmd (rec8 0x10000030)).issuePoint 0 .fg = some (theList, rec8 0x10000030, false) ∧ recOpc (rec8 0x10000030) = 0x30
        ∧ reservedSet (rec8 0x10000030) = false ∧ recBarrier (rec8 0x10000030) = false ∧ shpOk (rec8 0x10000030) = false)
      ∧ ((atCmd (rec8 0x130)).issuePoint 0 .fg = some (theList, rec8 0x130, false) ∧ shpOk (rec8 0x130) = true ∧ flagsOk (rec8 0x130) = false)
      ∧ ((atCmd (rec8 0)).issuePoint 0 .fg = some (theList, rec8 0, false) ∧ opcodes.contains (recOpc (rec8 0)) = false)
      ∧ up.issuePoint 0 .fg = none ∧ (atCmd holdRec).fgReady 0 = true := by
  and_intros <;> decide +kernel

/-- The record at the last index of the longest list. -/
theorem witness_BadRecordsAreCommandErrors_index :
    let s := { atCmd holdRec (withFg (fun x => { x with index := 16383 })) with
      seqMem := SMap.set [] Memory.reset 0 (Memory.reset.write (listArea + 32 * 16383) (holdRec.flatMap (fun w : Word => leBytes 4 w.toNat))) }
    s.issuePoint 0 .fg = some (theList, holdRec, false) ∧ 16383 ≤ (s.core 0).fg.index ∧ shpOk holdRec = true ∧ flagsOk holdRec = true := by
  decide +kernel

/-! ### Tile commands -/

/-- 1 by 1 descriptors of a type, and the record of a tile command from register 0 to register 1. -/
def one (ty : Nat) : Word := BitVec.ofNat 32 (ty * 65536)
def tileRec (opc : Nat) (dty sty : Nat) (w3 : Word := 0) (w4 : Word := 0) : List Word :=
  rec8 (BitVec.ofNat 32 (opc + 0x10000)) (one dty) (one sty) w3 w4

/-- A core with a route in slot 0. -/
def withRoute (e : List DWord) (k : Core) : Core :=
  { k with slots := SMap.set [] RSlot.reset 0 { RSlot.reset with route := some (.entries e) } }

/-- A context that has been granted a mallet. -/
def grantedFg : Core → Core := withFg (fun x => { x with granted := some { cls := 1, charge := 5 } })

def cvtRec : List Word := tileRec 0x20 tyI16 tyI32
def cvtFull : List Word := rec8 0x10010020 (one tyI16) (one tyI16)
def scaleRec : List Word := tileRec 0x21 tyFP32 tyFP32 0x3F800000
def qntRec : List Word := rec8 0x02010022 0x73FC3 0x41FC7
def dqnRec : List Word := rec8 0x00010023 0x41FC7 0x73FC3

theorem witness_NumberCommandsLaunch :
    ((atCmd cvtRec).atIssue 0 .fg 0x20 theList cvtRec
      ∧ (atCmd cvtRec).tileClean 0 .fg (some (recD cvtRec)) [recSa cvtRec] [rndErr cvtRec] (operandShapes false cvtRec
        ++ convShapes false (descS false cvtRec) (descD false cvtRec)
        ++ [(decide (elems (descS false cvtRec) ≠ elems (descD false cvtRec)), 0, (descD false cvtRec).ty)])
      ∧ (atCmd cvtRec).malletFor 0 .fg theList cvtRec (coversAll false (descS false cvtRec)) none)
    ∧ ((atCmd cvtFull grantedFg).atIssue 0 .fg 0x20 theList cvtFull
      ∧ (atCmd cvtFull grantedFg).malletFor 0 .fg theList cvtFull (coversAll false (descS false cvtFull)) (some { cls := 1, charge := 5 }))
    ∧ ((atCmd scaleRec).atIssue 0 .fg 0x21 theList scaleRec
      ∧ fp32Val (rw scaleRec 3).toNat = .num false 8388608 8388608
      ∧ (atCmd scaleRec).tileClean 0 .fg (some (recD scaleRec)) [recSa scaleRec] [rndErr scaleRec] (operandShapes false scaleRec
        ++ [(decide (tyGroup (descD false scaleRec).ty = 2), 0, (descD false scaleRec).ty),
            (decide (tyGroup (descS false scaleRec).ty = 2), 1, (descS false scaleRec).ty)]
        ++ convShapes false (descS false scaleRec) (descD false scaleRec)
        ++ [(decide (elems (descS false scaleRec) ≠ elems (descD false scaleRec)), 0, (descD false scaleRec).ty)])) := by
  unfold State.malletFor
  and_intros <;> decide +kernel

theorem witness_NumberCommandsLaunch_weights :
    ((atCmd qntRec).atIssue 0 .fg 0x22 theList qntRec
      ∧ (atCmd qntRec).tileClean 0 .fg (some (recD qntRec)) [recSa qntRec, recSb qntRec]
        [rndErr qntRec, row0Err (descD false qntRec).ty qntRec] (operandShapes false qntRec
        ++ [(decide (tyGroup (descD false qntRec).ty ≠ 2), 0, (descD false qntRec).ty),
            (decide ((descS false qntRec).ty ≠ tyFP16 ∧ (descS false qntRec).ty ≠ tyFP32), 1, (descS false qntRec).ty),
            (decide (elems (descS false qntRec) % 1024 ≠ 0), 1, (descS false qntRec).ty),
            (decide ((descD false qntRec).rows < recRow0 qntRec + elems (descS false qntRec) / (descD false qntRec).cols), 0, (descD false qntRec).ty),
            (decide (regCount false ≤ recSb qntRec), 2, (descD false qntRec).ty)])
      ∧ (atCmd qntRec).malletFor 0 .fg theList qntRec (coversAll false (descS false qntRec)) none)
    ∧ ((atCmd dqnRec).atIssue 0 .fg 0x23 theList dqnRec
      ∧ (atCmd dqnRec).tileClean 0 .fg (some (recD dqnRec)) [recSa dqnRec] [rndErr dqnRec, row0Err (descS false dqnRec).ty dqnRec]
        (operandShapes false dqnRec
        ++ [(decide ((descD false dqnRec).ty ≠ tyFP16 ∧ (descD false dqnRec).ty ≠ tyFP32), 0, (descD false dqnRec).ty),
            (decide (tyGroup (descS false dqnRec).ty ≠ 2), 1, (descS false dqnRec).ty),
            (decide (elems (descD false dqnRec) % 1024 ≠ 0), 0, (descD false dqnRec).ty),
            (decide ((descS false dqnRec).rows < recRow0 dqnRec + elems (descD false dqnRec) / (descS false dqnRec).cols), 1, (descS false dqnRec).ty)])) := by
  unfold State.malletFor
  and_intros <;> decide +kernel

def tldRec : List Word := rec8 0x00010001 (one tyI16)
def tstRec : List Word := rec8 0x00000002 0 (one tyI16)
/-- TST that takes one buffer of partition 2 for handle register 4 and pushes it to queue 3. -/
def tstPush : List Word := [0x00000202, 0, one tyI16, 0x2811, 0, 0, 0x10030000, 0]
def tmovRec : List Word := rec8 0x00010003 0 0 0x00030000

/-- A block whose partition 2 has one free buffer, and whose queue 3 the foreground context feeds. -/
def withPool (s : State) : State :=
  { withQueue [] s with st := { (withQueue [] s).st with parts := SMap.set [] Partition.reset 2 { Partition.reset with base := 8, size := 1, free := [8] } } }

theorem witness_MoveCommandsLaunch :
    ((atCmd tldRec).atIssue 0 .fg 0x01 theList tldRec
      ∧ (atCmd tldRec).tileClean 0 .fg (some (recD tldRec)) []
        ((atCmd tldRec).accessErrs 0 .fg 0 tldRec (movedRows false (descD false tldRec)) false)
        [(badOperand false (recD tldRec) (descD false tldRec), 0, (descD false tldRec).ty)]
      ∧ shapeOk false (descD false tldRec) = true
      ∧ ((atCmd tldRec).core 0).regionBusy .fg ((atCmd tldRec).regionsOf 0 .fg 0 tldRec (movedRows false (descD false tldRec))) [] = false)
    ∧ ((atCmd tstRec).atIssue 0 .fg 0x02 theList tstRec ∧ shapeOk false (descS false tstRec) = true
      ∧ badOperand false (recSa tstRec) (descS false tstRec) = false ∧ (atCmd tstRec).tileWait 0 .fg none [recSa tstRec] = none
      ∧ lowestErr ((atCmd tstRec).accessErrs 0 .fg 0 tstRec (movedRows false (descS false tstRec)) true) = none
      ∧ mvAlloc tstRec = false ∧ recCpush tstRec = false
      ∧ ((atCmd tstRec).core 0).regionBusy .fg [] ((atCmd tstRec).regionsOf 0 .fg 0 tstRec (movedRows false (descS false tstRec))) = false)
    ∧ ((atCmd tmovRec).atIssue 0 .fg 0x03 theList tmovRec
      ∧ (atCmd tmovRec).tileClean 0 .fg (some (recD tmovRec)) [recSa tmovRec]
        [(decide (tmRs tmovRec % 4 ≠ 0 ∨ tmRd tmovRec % 4 ≠ 0 ∨ tmNr tmovRec % 4 ≠ 0), 8),
          (decide (rmax false < tmRs tmovRec + tmNr tmovRec ∨ rmax false < tmRd tmovRec + tmNr tmovRec), 8)]
        [(decide (regCount false ≤ recD tmovRec), 0, 0), (decide (regCount false ≤ recSa tmovRec), 1, 0),
          (recCmod0 tmovRec && decide (regCount false ≤ recSb tmovRec), 2, 0)]) := by
  and_intros <;> decide +kernel

theorem witness_MoveCommandsLaunch_alloc :
    let s := withPool (atCmd tstPush)
    let n := allocCount tstPush (movedRows false (descS false tstPush))
    s.atIssue 0 .fg 0x02 theList tstPush ∧ n = 1
      ∧ mvAlloc tstPush = true ∧ (∀ i, i < n → ((s.core 0).ctx .fg).hreg (mvH tstPush + i) = none)
      ∧ (s.part (mvPart tstPush)).size ≠ 0 ∧ (s.part (mvPart tstPush)).reserved = false
      ∧ (s.queue (recChq tstPush)).valid = true ∧ n ≤ (s.part (mvPart tstPush)).free.length ∧ s.canReserve (recChq tstPush) n = true
      ∧ recCpush tstPush = true ∧ s.producer (recChq tstPush) 0 .fg = true
      ∧ (∀ i, i < recCn tstPush → recCh tstPush + i ≤ 15 ∧ (mvH tstPush ≤ recCh tstPush + i ∧ recCh tstPush + i < mvH tstPush + n))
      ∧ s.tileWait 0 .fg none [recSa tstPush] = none
      ∧ lowestErr (s.accessErrs 0 .fg 0 tstPush (movedRows false (descS false tstPush)) true) = none
      ∧ (s.core 0).regionBusy .fg [] (s.regionsOf 0 .fg 0 tstPush (movedRows false (descS false tstPush))) = false := by
  and_intros <;> decide +kernel

/-- Records with a route reference to slot 0: PERM, GTH and SCT of 32-bit words, SORT and REDP of 16-bit ones. -/
def permRec : List Word := tileRec 0x10 tyI32 tyI32 0x1000
def gthRec : List Word := tileRec 0x14 tyI32 tyI32 0x1000
def sctRec : List Word := tileRec 0x15 tyI32 tyI32 0x1000
/-- PERM under SOLVE, its indexes in register 0. -/
def permSolve : List Word := rec8 0x00010410 (one tyI32) (one tyI32) 0x1000 1
def aRoute : List DWord := [0]

def slotWant : Want := { ref := { id := 0, bySlot := true, slot := 0 }, kinds := moveKinds tyI32, width := some (widthOf tyI32) }

theorem witness_RoutedCommandsLaunch_ready :
    (atCmd permRec (withRoute aRoute)).atIssue 0 .fg 0x10 theList permRec
      ∧ (atCmd gthRec (withRoute aRoute)).atIssue 0 .fg 0x14 theList gthRec
      ∧ (atCmd sctRec (withRoute aRoute)).atIssue 0 .fg 0x15 theList sctRec
      ∧ slotWant = { ref := ref3lo permRec, kinds := moveKinds (descS false permRec).ty, width := some (widthOf (descS false permRec).ty) }
      ∧ recSolve permRec = false ∧ recRnd permRec < 2 ∧ (atCmd permRec (withRoute aRoute)).wantKeeps 0 slotWant = false
      ∧ (atCmd permRec (withRoute aRoute)).tileClean 0 .fg (some (recD permRec)) [recSa permRec] []
        (operandShapes false permRec ++ convShapes false (descS false permRec) (descD false permRec)
          ++ [(false && decide (regCount false ≤ recSb permRec), 2, (descD false permRec).ty)])
      ∧ (atCmd permRec (withRoute aRoute)).routesReady 0 [slotWant] [(.entries aRoute, 0)] ((atCmd permRec (withRoute aRoute)).seek 0 slotWant)
      ∧ ((atCmd permRec (withRoute aRoute)).seek 0 slotWant).malletFor 0 .fg theList permRec (decide (sliceCount false permRec = rmax false / 4)) none := by
  unfold State.malletFor State.routesReady
  and_intros <;> first | rfl | decide +kernel

theorem witness_RoutedCommandsLaunch_solved :
    let s := atCmd permSolve (withFg (fun x => { x with solves := [([], 0)] }))
    let q := s.queueSolves 0 .fg [0] false (s.planVectors 0 { slots := [0], scatter := false, reg := some (solReg permSolve, solSlice permSolve) } [])
    let v := q.onCore 0 (fun k => [0].foldl (fun k n => k.touch n) k)
    s.atIssue 0 .fg 0x10 theList permSolve ∧ recSolve permSolve = true ∧ recRnd permSolve < 2 ∧ solIsrc permSolve = true
      ∧ s.tileClean 0 .fg (some (recD permSolve)) [recSa permSolve, solReg permSolve]
        [(!(ref3lo permSolve).bySlot, 8), (true && decide (rmax false / 4 < solSlice permSolve + 1), 8)]
        (operandShapes false permSolve ++ convShapes false (descS false permSolve) (descD false permSolve)
          ++ [(false && decide (regCount false ≤ recSb permSolve), 2, (descD false permSolve).ty),
              (true && decide (regCount false ≤ solReg permSolve), 5, 0)])
      ∧ s.routesReady 0 [] [] s ∧ 1 ≤ ((q.core 0).ctx .fg).solves.length ∧ (q.core 0).solving 0 = false
      ∧ v.malletFor 0 .fg theList permSolve (decide (sliceCount false permSolve = rmax false / 4)) none := by
  unfold State.malletFor State.routesReady
  and_intros <;> first | rfl | decide +kernel

def axpRec : List Word := tileRec 0x12 tyI32 tyI32 0 181896
def trnRec : List Word := tileRec 0x13 tyI32 tyI32
def brevRec : List Word := rec8 0x00010017 0x20040 0x20040 0x11
def shufRec : List Word := tileRec 0x16 tyI32 tyI32 8

/-- What AXP, TRN and BREV require of their operands. -/
def linearShapes (r : List Word) : List (Bool × Nat × Nat) :=
  operandShapes false r ++
    [(decide ((descD false r).ty = tyPW4), 0, tyPW4), (decide ((descS false r).ty = tyPW4), 1, tyPW4),
      ((descD false r).split, 0, (descD false r).ty), ((descS false r).split, 1, (descS false r).ty),
      (decide (elems (descS false r) ≠ linearCount r (descS false r)), 1, (descS false r).ty),
      (decide (elems (descS false r) ≠ elems (descD false r)), 0, (descD false r).ty)]
    ++ convShapes false (descS false r) (descD false r)

theorem witness_ComputedMovesLaunch :
    ((atCmd axpRec).atIssue 0 .fg 0x12 theList axpRec
      ∧ (atCmd axpRec).tileClean 0 .fg (some (recD axpRec)) [recSa axpRec] (rndErr axpRec :: linearErrs axpRec) (linearShapes axpRec))
    ∧ ((atCmd trnRec).atIssue 0 .fg 0x13 theList trnRec
      ∧ (atCmd trnRec).tileClean 0 .fg (some (recD trnRec)) [recSa trnRec] (rndErr trnRec :: linearErrs trnRec) (linearShapes trnRec))
    ∧ ((atCmd brevRec).atIssue 0 .fg 0x17 theList brevRec
      ∧ (atCmd brevRec).tileClean 0 .fg (some (recD brevRec)) [recSa brevRec] (rndErr brevRec :: linearErrs brevRec) (linearShapes brevRec))
    ∧ ((atCmd shufRec).atIssue 0 .fg 0x16 theList shufRec
      ∧ (atCmd shufRec).tileClean 0 .fg (some (recD shufRec)) [recSa shufRec] [rndErr shufRec]
        (operandShapes false shufRec ++ convShapes false (descS false shufRec) (descD false shufRec))
      ∧ fld (rw shufRec 3) 0 3 < 4 ∧ 1 ≤ fld (rw shufRec 3) 3 4 ∧ fld (rw shufRec 3) 3 4 ≤ 8) := by
  and_intros <;> decide +kernel

def redpRec : List Word := tileRec 0x1C tyI16 tyI16 0x1000
def redpWant : Want := { ref := { id := 0, bySlot := true, slot := 0 }, kinds := [0], width := some (widthOf tyI16) }
def redpRoute : List DWord := [0x10]
def sortRec : List Word := tileRec 0x1D tyI32 tyI32 0x1000
def sortWant : Want := { ref := ref3lo sortRec, kinds := [5], width := none }
def sortRoute : List DWord := [5, 1]

theorem witness_ReduceSortAndBetweenGroups :
    (let s := atCmd redpRec (withRoute redpRoute);
      s.atIssue 0 .fg 0x1C theList redpRec ∧ redpSources redpRec = [(recSa redpRec, redpWant.ref)] ∧ s.wantKeeps 0 redpWant = false
      ∧ s.tileClean 0 .fg (some (recD redpRec)) [recSa redpRec] []
        (operandShapes false redpRec ++ [(decide ((descS false redpRec).ty ≠ tyI16 ∧ (descS false redpRec).ty ≠ tyC16), 1, (descS false redpRec).ty),
            (decide ((descD false redpRec).ty ≠ (descS false redpRec).ty), 0, (descD false redpRec).ty)]
          ++ (indexed 1 (redpSources redpRec)).map (fun e => (decide (regCount false ≤ e.2.1), e.1, (descS false redpRec).ty))
          ++ [(false && decide (regCount false ≤ recSb redpRec), 2, (descS false redpRec).ty)])
      ∧ s.routesReady 0 [redpWant] [(.entries redpRoute, 0)] (s.seek 0 redpWant)
      ∧ (s.seek 0 redpWant).malletFor 0 .fg theList redpRec (decide (sliceCount false redpRec = rmax false / 4)) none)
    ∧ (let s := atCmd sortRec (withRoute sortRoute);
      s.atIssue 0 .fg 0x1D theList sortRec
      ∧ s.tileClean 0 .fg (some (recD sortRec)) [recSa sortRec] [((s.wantErr 0 sortWant).isNone
        && (match s.sortDesc 0 sortWant with | some d => !sortOk d | none => false), 8)] (operandShapes false sortRec)
      ∧ s.routesReady 0 [sortWant] [(.entries sortRoute, 0)] (s.seek 0 sortWant)
      ∧ (s.seek 0 sortWant).malletFor 0 .fg theList sortRec (decide (sliceCount false sortRec = rmax false / 4)) none) := by
  unfold State.malletFor State.routesReady
  and_intros <;> first | rfl | decide +kernel

/-- PERMX by the GLOBAL route 1, whose XMAP is route 2 and whose passes on logical core 0 are routes 3 and 4. -/
def permxRec : List Word := rec8 0x10010011 (one tyI32) (one tyI32) 1
def header (kind tag : Nat) : DWord := BitVec.ofNat 64 (kind + tag * 2 ^ 32)
def dirOf (base len kind : Nat) : DWord := BitVec.ofNat 64 (base + len * 2 ^ 20 + kind * 2 ^ 32 + 2 ^ 63)
def globalRoute : List DWord := [header 7 1, 0x10002, 0x40003]

/-- A block that holds those routes, the GLOBAL route and both passes in slots. -/
def withGlobal (s : State) : State :=
  let bytes (l : List DWord) : List Byte := l.flatMap (fun d => leBytes 8 d.toNat)
  let slot (id : Nat) (e : List DWord) : RSlot := { RSlot.reset with id := id, gen := s.routes.gen, route := some (.entries e) }
  let t : State := { s with routes := { s.routes with
                                          table := (((s.routes.table.write 0 (bytes globalRoute)).write 64 (bytes [header 6 2])).write 128 (bytes [header 0 3])).write 192 (bytes [header 0 4])
                                          active := SMap.set (SMap.set (SMap.set (SMap.set [] 0 1 (dirOf 0 3 7)) 0 2 (dirOf 8 1 6)) 0 3 (dirOf 16 1 0)) 0 4 (dirOf 24 1 0) } }
  t.onCore 0 (fun k => { k with slots := SMap.set (SMap.set (SMap.set [] RSlot.reset 0 (slot 1 globalRoute)) RSlot.reset 1 (slot 3 [header 0 3])) RSlot.reset 2 (slot 4 [header 0 4]) })

theorem witness_ReduceSortAndBetweenGroups_permx :
    let s := withGlobal (atCmd permxRec grantedFg)
    let stored (k : Nat) : RouteRef := { id := k, bySlot := false, slot := 0 }
    let glob : Want := { ref := stored 1, kinds := [7], width := none }
    let w1 : Want := { ref := stored 3, kinds := moveKinds tyI32, width := some (widthOf tyI32) }
    let w3 : Want := { ref := stored 4, kinds := moveKinds tyI32, width := some (widthOf tyI32) }
    s.atIssue 0 .fg 0x11 theList permxRec ∧ (ref3lo permxRec).id = 1 ∧ s.wantErr 0 glob = none
      ∧ (glMask (s.tableRoute 1)).getLsbD 0 = true ∧ glPass1 (s.tableRoute 1) 0 = 3 ∧ glPass3 (s.tableRoute 1) 0 = 4 ∧ glXmap (s.tableRoute 1) = 2
      ∧ (ref3lo permxRec).bySlot = false ∧ s.wantKeeps 0 w1 = false ∧ s.wantKeeps 0 w3 = false
      ∧ s.tileClean 0 .fg (some (recD permxRec)) [recSa permxRec] [] (operandShapes false permxRec
        ++ [(false || !(decide ((descD false permxRec).rows = (fullDesc false (descD false permxRec)).rows)
              && decide ((descD false permxRec).cols = (fullDesc false (descD false permxRec)).cols)), 0, tyI32),
            (false && decide (regCount false ≤ recSb permxRec), 2, tyI32)])
      ∧ s.firstRouteErr 0 [{ ref := stored 2, kinds := [6], width := none }] = none
      ∧ (s.routes.colls.filter (fun e => !e.2.closed)).length < 4
      ∧ s.routesReady 0 [glob, w1, w3] [(.entries globalRoute, 0), (.entries [header 0 3], 0), (.entries [header 0 4], 0)]
        ([glob, w1, w3].foldl (fun s w => s.seek 0 w) s)
      ∧ (([glob, w1, w3].foldl (fun s w => s.seek 0 w) s)).malletFor 0 .fg theList permxRec true (some { cls := 1, charge := 5 }) := by
  unfold State.malletFor State.routesReady
  and_intros <;> first | rfl | decide +kernel

def ilvRec : List Word := rec8 0x00010018 (one tyI16)
def ilvFar : List Word := rec8 0x00010018 (one tyI16) 0 0xFC000
def dilRec : List Word := rec8 0x00010019 (one tyI16)
def remapRec : List Word := rec8 0x0001001A (one tyI16)
def winRec : List Word := rec8 0x0001001B (one tyI16)

theorem witness_StagingSourcedCommandsLaunch :
    ((atCmd ilvRec).atIssue 0 .fg 0x18 theList ilvRec ∧ shapeOk false (descD false ilvRec) = true
      ∧ (atCmd ilvRec).tileClean 0 .fg (some (recD ilvRec)) []
        ((decide ((descD false ilvRec).ty ≠ tyPW4 ∧ stSrc ilvRec % tySize (descD false ilvRec).ty ≠ 0), 8) :: (atCmd ilvRec).ilErrs 0 ilvRec)
        [(badOperand false (recD ilvRec) (descD false ilvRec), 0, (descD false ilvRec).ty)]
      ∧ ilWants ilvRec = [] ∧ (atCmd ilvRec).routesReady 0 [] [] (atCmd ilvRec)
      ∧ ((atCmd ilvRec).core 0).regionBusy .fg
          (stRegions tyI16 (stSrc ilvRec) ((List.range 1).map (fun k => ilvSource ((atCmd ilvRec).ilSeq ilvRec).toArray (stOfs ilvRec + k)))) [] = false
      ∧ ((List.range 1).map (fun k => ilvSource ((atCmd ilvRec).ilSeq ilvRec).toArray (stOfs ilvRec + k))).any
          (fun x => match x with | .elem i => stOut tyI16 (stSrc ilvRec) i | _ => false) = false
      ∧ ((List.range 1).map (fun k => ilvSource ((atCmd ilvFar).ilSeq ilvFar).toArray (stOfs ilvFar + k))).any
          (fun x => match x with | .elem i => stOut tyI16 (stSrc ilvFar) i | _ => false) = true)
    ∧ ((atCmd dilRec).atIssue 0 .fg 0x19 theList dilRec ∧ ilWants dilRec = []
      ∧ (atCmd dilRec).tileClean 0 .fg (some (recD dilRec)) []
        ((decide ((descD false dilRec).ty ≠ tyPW4 ∧ stSrc dilRec % tySize (descD false dilRec).ty ≠ 0), 8)
          :: (recCmod1 dilRec && decide ((descD false dilRec).ty = tyPB16), 8) :: (atCmd dilRec).ilErrs 0 dilRec)
        [(badOperand false (recD dilRec) (descD false dilRec), 0, (descD false dilRec).ty)])
    ∧ ((atCmd remapRec).atIssue 0 .fg 0x1A theList remapRec
      ∧ (atCmd remapRec).tileClean 0 .fg (some (recD remapRec)) [recSbRemap remapRec]
        [(decide ((descD false remapRec).ty ≠ tyPW4 ∧ stSrc remapRec % tySize (descD false remapRec).ty ≠ 0), 8),
          (decide (fld (rw remapRec 2) 0 8 + 1 ≤ fld (rw remapRec 2) 8 8), 8)]
        [(badOperand false (recD remapRec) (descD false remapRec), 0, (descD false remapRec).ty), (decide (regCount false ≤ recSbRemap remapRec), 6, 0)])
    ∧ ((atCmd winRec).atIssue 0 .fg 0x1B theList winRec
      ∧ (atCmd winRec).tileClean 0 .fg (some (recD winRec)) []
        [(decide ((descD false winRec).ty ≠ tyPW4 ∧ stSrc winRec % tySize (descD false winRec).ty ≠ 0), 8),
          (decide (fld (rw winRec 2) 12 12 + 1 + 2 * fld (rw winRec 4) 10 4 < fld (rw winRec 3) 24 4 + 1
            ∨ fld (rw winRec 2) 0 12 + 1 + 2 * fld (rw winRec 4) 6 4 < fld (rw winRec 3) 20 4 + 1), 8)]
        [(badOperand false (recD winRec) (descD false winRec), 0, (descD false winRec).ty)])
    ∧ shapeOk false (descD false dilRec) = true ∧ shapeOk false (descD false remapRec) = true ∧ shapeOk false (descD false winRec) = true
    ∧ ((atCmd dilRec).core 0).regionBusy .fg
        (stRegions tyI16 (stSrc dilRec) ((List.range 1).map (fun k => dilSource ((atCmd dilRec).ilSeq dilRec) (ilF0 dilRec) (ilNf dilRec) (stOfs dilRec + k)))) []
          = false := by
  unfold State.routesReady
  and_intros <;> first | rfl | decide +kernel

theorem witness_StagingSourcedCommandsLaunch_regions (xs : Regions) :
    ((atCmd remapRec).core 0).regionBusy .fg xs [] = false ∧ ((atCmd winRec).core 0).regionBusy .fg xs [] = false := ⟨rfl, rfl⟩

/-! ### Gongs, strokes, pairs, mallets -/

/-- A block in free-run mode whose next gong falls `n` nanoseconds after now. -/
def freeRun (n : Nat) (s : State := up) : State :=
  { s with gong := { s.gong with en := true, running := true, mode := true, modePend := true, freeNext := n * 2 ^ 64 } }

theorem witness_GsnCountsGongs : ((freeRun 0).elapseTo 0).gongDue = true ∧ (up.elapseTo 0).gongDue = false
    ∧ ((freeRun 1000).elapseTo 0).gongDue = false := by decide +kernel

theorem test_gong_gsn : ∃ t, exec (.gong 0) (freeRun 0) = .next t ∧ t.gong.gsn = 1 := by
  refine ⟨_, rfl, ?_⟩
  decide +kernel

/-- A context of core 0 that waits for a mallet with `theList`, whose deadline is the next gong. -/
def asking : State := freeRun 1000 (atCmd cvtFull (withFg (fun x => { x with requested := true, wait := some 3 })))

theorem witness_StrokesCurfewAndAudit :
    (asking.elapseTo 0).gong.en = true ∧ (asking.elapseTo 0).gong.running = true ∧ (asking.elapseTo 0).gongDue = false
      ∧ (up.elapseTo 0).gong.en = false ∧ ((freeRun 0).elapseTo 0).gongDue = true
      ∧ (asking.elapseTo 0).curfewDue = true ∧ (asking.elapseTo 0).gong.inCurfew = false
      ∧ (((asking.elapseTo 0).core 0).ctx .fg).list = some theList ∧ theList.due ((asking.elapseTo 0).gong.gsn.toNat + 1) = true
      ∧ (((asking.elapseTo 0).core 0).ctx .fg).requested = true ∧ (((asking.elapseTo 0).core 0).ctx .fg).granted = none
      ∧ (up.elapseTo 0).curfewDue = false
      ∧ ({ up with st := { up.st with snap := some { fail := none } } } : State).st.snap = some { fail := none }
      ∧ ({ up with st := { up.st with snap := some { fail := some (2, 3, -1) } } } : State).st.snap = some { fail := some (2, 3, -1) }
      ∧ up.st.snap = none := by decide +kernel

/-- A core that waits with partition 1, with nothing in flight. -/
def partWaits : State := up.onCore 0 (fun k => { k with partPend := some true })

theorem witness_PartitionApplies : (partWaits.region (regionOfCore 0)).state = .run ∧ (partWaits.core 0).drained = true ∧ (partWaits.core 0).partPend = some true
    ∧ partWaits.ev.buf.length < evCapacity := by decide +kernel

/-- The block once it is READY. -/
def ready : State := { up with boot := { up.boot with ready := true } }

/-- A COMPLETE pair of partition 2, as its check lets it through and as it does not. -/
def pairWritten (base size : Nat) (busy : Bool) : State := ready.setPair (.partition 2) { a := some base, b := some size, busy := busy }

theorem witness_PairsApply : ((pairWritten 8 4088 false).pair (.partition 2)).complete = true
    ∧ ((pairWritten 8 4088 false).pair (.partition 2)).busy = false ∧ (pairWritten 8 4088 false).pairOk (.partition 2) 8 4088 = true
    ∧ (pairWritten 9 4088 true).gong.en = false ∧ (pairWritten 9 4088 true).pairIdle (.partition 2) = true
    ∧ (pairWritten 9 4088 true).pairOk (.partition 2) 9 4088 = false
    ∧ (pairWritten 8 4088 false).boot.ready = true ∧ up.boot.ready = false ∧ (ready.pair .gong).complete = false
    ∧ ((freeRun 0 (pairWritten 8 4 true)).pair (.partition 2)).busy = true ∧ (freeRun 0 (pairWritten 8 4 true)).gong.en = true := by
  decide +kernel

/-- A request of the foreground context of core 0 at the head of the queue, with a budget and tokens. -/
def requested (budget tokens : Nat) : State :=
  { up with pwr := { up.pwr with fgQ := [{ pc := 0, ctx := .fg, cls := 1, hold := false }], budget := budget, tokens := tokens } }

theorem witness_MalletGrantsFollowBudgetAndTokens :
    ((requested 1000 (1000 * tokenScale)).elapseTo 0).acHead = some { pc := 0, ctx := .fg, cls := 1, hold := false }
      ∧ (let u := (requested 1000 (1000 * tokenScale)).elapseTo 0
         let c := chargeOf 1 (u.region (regionOfCore 0)).mhz
         u.pwr.admitted + c ≤ u.budget ∧ c * tokenScale ≤ u.pwr.tokens)
      ∧ (let u := (requested 1000 0).elapseTo 0
         u.acHead.isSome = true ∧ u.pwr.tokens < chargeOf 1 (u.region (regionOfCore 0)).mhz * tokenScale)
      ∧ (up.elapseTo 0).acHead = none := by
  and_intros <;> decide +kernel

/-! ### Instructions in flight, routes and collectives -/

/-- CVT to 16-bit integers with its scale from history slot 0, without and with RETRY, and a run of it that saturated. -/
def histRec : List Word := rec8 0x00010020 (one tyI16) (one tyI16) 0 0 0x1000
def retryRec : List Word := rec8 0x00010820 (one tyI16) (one tyI16) 0 0 0x1000
def saturated (x : InFlight) : InFlight := { x with stats := { x.stats with comps := 1, sat := 1, tmax := some 5 } }

theorem witness_TileInstructionsComplete_done :
    let s := atCmd cvtRec (withFlight (flying cvtRec (some 1)))
    (s.core 0).fly 1 = some (flying cvtRec (some 1)) ∧ s.canRun 0 = true ∧ (flying cvtRec (some 1)).phase = .done
      ∧ (s.core 0).renamesFirst (flying cvtRec (some 1)) = false
      ∧ (usesHist (s.core 0).part cvtRec && !(flying cvtRec (some 1)).rerun) = false
      ∧ (flying cvtRec (some 1)).dest = some 1 ∧ (flying cvtRec (some 1)).slot = some 9 := by
  and_intros <;> decide +kernel

theorem witness_TileInstructionsComplete_history :
    (let s := atCmd histRec (withFlight (flying histRec (some 1)));
      usesHist (s.core 0).part histRec = true ∧ s.rescales 0 histRec (flying histRec (some 1)).stats = false)
    ∧ (let f := saturated (flying histRec (some 1))
       let s := (atCmd histRec (withFlight f)).setReg (histOff 0 0) 0x100
       (s.core 0).fly 1 = some f ∧ s.canRun 0 = true ∧ (s.core 0).renamesFirst f = false ∧ s.rescales 0 histRec f.stats = true ∧ ((s.underRange 0 f).rescale 0 f).2 = false)
    ∧ (let f := saturated (flying retryRec (some 1))
       let s := (atCmd retryRec (withFlight f)).setReg (histOff 0 0) 0x100
       (s.core 0).fly 1 = some f ∧ s.rescales 0 retryRec f.stats = true ∧ ((s.underRange 0 f).rescale 0 f).2 = true) := by
  and_intros <;> decide +kernel

theorem witness_TileInstructionsComplete_moves :
    (let s := atCmd tstRec (withFlight (flying tstRec none .writes));
      (s.core 0).fly 1 = some (flying tstRec none .writes) ∧ s.tstPending 0 1 = false ∧ s.canRun 0 = true)
    ∧ (let f := flying tldRec (some 1) (.restart true false)
       let s := atCmd tldRec (withFlight f)
       (s.core 0).fly 1 = some f ∧ recOpc f.words = 0x01 ∧ (s.core 0).freeSlots.head? = some 14 ∧ (s.core 0).partPend = none
        ∧ badOperand (s.core 0).part (recD f.words) (descD (s.core 0).part f.words) = false)
    ∧ (let f := flying tldRec (some 1) (.rows [(0, 0)])
       let s := atCmd tldRec (withFlight f)
       (s.core 0).fly 1 = some f ∧ [(0, 0)].find? (fun y : Nat × Nat => decide (y.2 = 0)) = some (0, 0)
        ∧ (s.rowAt 0 (s.rowLoc 0 .fg 0 tldRec 0)).isSome = true) := by
  and_intros <;> decide +kernel

/-- A solve of one index for slot 3, and a slot 2 that waits for its fetch. -/
def solving (i : Nat) : State := (atCmd holdRec).onCore 0 (fun k => { k with
  solveQ := [{ slot := 3, index := [(some i, false)], scatter := false, kinds := 0 }]
  slots := SMap.set [] RSlot.reset 2 { RSlot.reset with fetch := true } })

/-- A collective of one participant, which has sent its lanes. -/
def oneColl : Collective :=
  { route := 1, mask := 1, xmap := [], issued := [0], sent := [{ lc := 0, pc := 0, inc := 0, struck := false, lanes := [] }], kinds := [], pass3 := [],
    got := [], filled := [], done := [], opened := 0, closed := false }

/-- A block with that collective, its slice 15 on the way with the sender's incarnation or another one. -/
def collState (inc : Nat) : State :=
  { (up.setReg 0x810010 1) with routes := { up.routes with colls := [(0, oneColl)], flying := [{ coll := 0, lc := 0, pc := 0, inc := inc, left := [15] }] } }

theorem witness_RoutesSolvesAndCollectives :
    (((solving 255).core 0).slot 2).fetch = true ∧ (((solving 255).core 0).slot 3).fetch = false ∧ (solving 255).canRun 0 = true
      ∧ (((solving 255).core 0).running.find? (fun x => decide (x.slot = 3))).isSome = true
      ∧ solveFault false [] 0 [(some 255, false)] = none ∧ solveFault false [] 0 [(some 256, false)] = some (0, 2) := by
  and_intros <;> decide +kernel

theorem witness_RoutesSolvesAndCollectives_slices :
    (let find (s : State) := s.routes.flying.find? (fun y => decide (y.coll = 0) && decide (y.lc = 0) && y.left.contains 15);
      find up = none ∧ find (collState 0) = some { coll := 0, lc := 0, pc := 0, inc := 0, left := [15] } ∧ (collState 0).incOf 0 = 0
      ∧ find (collState 1) = some { coll := 0, lc := 0, pc := 0, inc := 1, left := [15] } ∧ (collState 1).incOf 0 ≠ 1)
    ∧ (collState 0).coll 0 = some oneColl ∧ oneColl.filled.any (fun f => decide (f.1 = 0)) = false
    ∧ (let u := (collState 0).elapseTo 10;
      u.coll 0 = some oneColl ∧ u.xcxLimit ≠ 0 ∧ oneColl.closed = false ∧ oneColl.ready = false
        ∧ 10 * u.xcxLimit ≤ u.ns10 (u.tu.ltc - oneColl.opened)) := by
  and_intros <;> decide +kernel

/-! ### Streams -/

theorem witness_StreamPortsMoveWhileTheLinksAreUp : State.reset.pins.strUp = false ∧ up.pins.strUp = true
    ∧ bit ((up.setReg 0x20014 0).reg 0x20014) 4 = false ∧ (up.setReg 0x20014 0).pins.strUp = true ∧ (up.region 6).state = .run := by decide +kernel

/-- A block with ring 0 of four slots over queue 3. -/
def withRing (outbound : Bool) (hs : List QEnt) : State :=
  (withQueue hs up).setRing 0 { Ring.reset with valid := true, regs := [(0x18, BitVec.ofNat 32 (b2n outbound + 4 * 2 ^ 13)), (0x1C, 3)] }

/-- The conditions of a poll, and of a copy. -/
def pollDue (u : State) : Prop :=
  (u.ring 0).valid = true ∧ (u.region 6).state = .run ∧ u.mp.quiesce = false ∧ u.mp.rstq = false ∧ u.asking (.ringIdx 0) = false
    ∧ (u.ring 0).lastPoll + (100 * max 2 (u.ring 0).poll : Nat) ≤ u.nowNs

theorem witness_RingsBurstsAndDeadlocks_rings :
    (let u := (withRing true []).elapseTo 100;
      pollDue u ∧ (u.ring 0).outbound = true)
    ∧ (let u := ((withRing false []).setRing 0 { (withRing false []).ring 0 with cons := 1 }).elapseTo 100;
      pollDue u ∧ (u.ring 0).outbound = false ∧ (u.ring 0).cons ≠ (u.ring 0).told)
    ∧ ¬ pollDue (withRing true [])
    ∧ (let u := (withRing true [qent7]).elapseTo 0;
      (u.ring 0).valid = true ∧ (u.ring 0).outbound = true ∧ (u.ring 0).out = none ∧ (u.region 6).state = .run ∧ u.mp.quiesce = false
        ∧ u.mp.rstq = false ∧ ((u.ring 0).prod - (u.ring 0).cons).toNat < (u.ring 0).nslot
        ∧ ∃ v h side, u.pop (u.ring 0).queue false = (v, .handle h side) ∧ isPlaceholder h = true) := by
  unfold pollDue
  refine ⟨?_, ?_, ?_, ?_, ?_, ?_, ?_, ?_, ?_, ?_, _, _, _, rfl, ?_⟩ <;> and_intros <;> decide +kernel

/-- A context that waits for a handle which it should push itself. -/
def deadlocked : State :=
  let s := withQueue [] (atCmd hpopRec (withFg (fun x => { x with wait := some 0, waitObj := 3 })))
  { (s.onLc 0 (fun n => { n with pc := some 0 })) with st := { (s.onLc 0 (fun n => { n with pc := some 0 })).st with waitSeq := [(0, .fg)] } }

theorem witness_RingsBurstsAndDeadlocks_cycle :
    (∃ cy, ((deadlocked.elapseTo 0).region 6).state = .run ∧ (deadlocked.elapseTo 0).cycle = some cy ∧ (deadlocked.elapseTo 0).spilling cy = false
        ∧ (deadlocked.elapseTo 0).mp.quiesce = false ∧ (deadlocked.elapseTo 0).mp.rstq = false)
      ∧ (let s := withQueue [{ qent7 with spilling := some 0 }] up;
        (indexed 0 (s.queue 3).handles).find? (fun e => decide (e.2.spilling = some 0)) = some (0, { qent7 with spilling := some 0 })
          ∧ s.mp.reqs = []) := by
  refine ⟨⟨[.popQ 3, .ctx 0 .fg], ?_⟩, ?_⟩ <;> and_intros <;> decide +kernel

/-! ### Configuration and time -/

/-- An image with no section, whose store check fails or holds. -/
def bareImage (crc : Nat) : Image := { header := [], sects := [], crc := crc, signed := false }

/-- A load at its last step. -/
def writing (err : Option Nat) : State := { up with cfg := { up.cfg with state := .writing, staged := some (bareImage 0), err := err } }

/-- A resumption whose data are there, or failed. -/
def resuming (err : Option Nat) : State :=
  { up with cfg := { up.cfg with active := some (bareImage 0), activeValid := true, resume := true, pass := 3, err := err } }

theorem witness_ConfigurationEvents :
    (writing (some 0)).cfg.state = .writing ∧ (writing (some 0)).cfg.err.isSome = true ∧ (writing none).cfg.staged = some (bareImage 0)
      ∧ (writing none).cfg.err = none ∧ (writing none).cfgWaits = false
      ∧ ((writing none).writeBulks ((bareImage 0).sects.filter (fun x => isBulk x.ty))).2 = true
      ∧ ((writing none).writeBulks ((bareImage 0).sects.filter (fun x => isBulk x.ty))).1.cfg.latched = false
      ∧ bit (((writing none).writeBulks ((bareImage 0).sects.filter (fun x => isBulk x.ty))).1.reg 0x4000C) 3 = false
      ∧ (let u := ({ up with cfg := { up.cfg with active := some (bareImage 1), activeValid := true } } : State).elapseTo 0
         (u.region 7).state = .run ∧ u.cfg.activeValid = true ∧ u.storeFails (bareImage 1) u.cfg.half = true ∧ u.cfg.state = .empty)
      ∧ (let u := ({ up with cfg := { up.cfg with state := .staged, staged := some (bareImage 1) } } : State).elapseTo 0
         u.cfg.active = none ∧ u.storeFails (bareImage 1) (!u.cfg.half) = true)
      ∧ (up.elapseTo 0).cfg.active = none
      ∧ up.inReset = false ∧ up.boot.state = .running ∧ up.resumeDone.2 = none ∧ (resuming none).resumeDone.2 = none
      ∧ (resuming (some 0)).resumeDone.2 = some 0x020B := by
  and_intros <;> decide +kernel

/-- A time-of-day word of low bits `x` with its CHECK. -/
def todOf (x : Nat) : BitVec 128 := BitVec.ofNat 128 (x + crcBytes (leBytes 15 x) * 2 ^ 120)

/-- A block that takes pulses, with that word. -/
def pulsed (x : BitVec 128) (fresh invalid : Bool) : State :=
  (({ up with tu := { up.tu with tod := { word := x, bits := 128, fresh := fresh }, invalid := invalid } } : State).setReg 0x10064 0x10000).elapseTo 0

theorem witness_TimeInputs :
    (up.region 7).state = .run ∧ ((up.elapseTo 2000).region 7).state = .run ∧ (up.elapseTo 2000).tu.pllFrom + 1024 ≤ (up.elapseTo 2000).tu.ltc
      ∧ bit ((up.elapseTo 0).reg 0x10064) 16 = false
      ∧ (pulsed 0 false true).tuRuns = true ∧ bit ((pulsed 0 false true).reg 0x10064) 16 = true ∧ (pulsed 0 false true).tu.tod.fresh = false
      ∧ (pulsed (todOf 0 + 1) true true).tu.tod.ok = false
      ∧ (pulsed (todOf 0) true true).tu.tod.ok = true ∧ (pulsed (todOf 0) true true).tu.tod.word.getLsbD 104 = false
      ∧ (let u := pulsed (todOf (2 ^ 104)) true false
         u.tu.tod.ok = true ∧ u.tu.tod.word.getLsbD 104 = true ∧ u.tu.invalid = false
          ∧ ((u.tu.tod.time - (u.now - u.pulseDelay)).natAbs : Int) < (clampLo (fld (u.reg 0x10058) 0 24) 100 : Int) * 65536)
      ∧ (pulsed (todOf (2 ^ 104)) true true).tu.invalid = true
      ∧ (let u := pulsed (todOf (2 ^ 104 + 1)) true false
         u.tu.tod.ok = true ∧ (clampLo (fld (u.reg 0x10058) 0 24) 100 : Int) * 65536 ≤ ((u.tu.tod.time - (u.now - u.pulseDelay)).natAbs : Int))
      ∧ (let s := pulsed 0 false true
         let u := ({ s with tu := { s.tu with lastPulse := some 0 } } : State).elapseTo 0
         u.tu.lastPulse = some 0 ∧ u.tuRuns = true ∧ 0 + u.ticksOf (10 ^ 6 * fld (u.reg 0x10064) 20 12) ≤ u.tu.ltc) := by
  and_intros <;> decide +kernel

theorem witness_EventRingRows :
    (let u := ((up.setReg 0x70248 1).setReg (ringBase 7 + 8) 0x80000000).elapseTo 0
     u.ringLive 7 = true ∧ (u.evRing 7).sent = [] ∧ u.oldestOf 7 1 = [])
    ∧ (let s := ((up.setReg 0x70248 1).setReg (ringBase 7 + 8) 0x80000000).setReg (ringBase 0 + 8) 0x80000000
       let v := (s.evt 0x0053 0 []).elapseTo 1000
       v.ringLive 0 = true ∧ (v.evRing 0).sent = [] ∧ (v.oldestOf 0 (min (min 1 (v.ringFree 0)) (min ((4096 - v.evSlot 0 0 % 4096) / 32) (v.ringSize 0)))).length = 1
        ∧ (v.evRing 0).polled + v.ticksOf 10000 ≤ v.tu.ltc)
    ∧ (up.elapseTo 0).ringLive 7 = false := by
  and_intros <;> decide +kernel

/-! ### Ports, quiesce, resets -/

/-- A port request in a state, and a block that has made it. -/
def request (w : Bool) (st : ReqState) (wait : Option Nat) : PReq :=
  { id := 0, who := .boot, port := 7, chan := some 3, va := 0, pa := 0, beats := 1, write := w, data := [], lo := 0, hi := 64, live := 1, bad := [], kinds := 0, st := st, got := 0,
    retried := false, dead := false, err := none, wait := wait, inc := 0, at_ := 0 }
def requesting (w : Bool) (st : ReqState) (wait : Option Nat := none) : State :=
  { up with mp := { up.mp with reqs := [request w st wait], xreqs := [{ id := 64, pasid := 0, va := 0, write := w, stale := false, at_ := 0 }] } }

theorem witness_PortRowsReachTheirRequest :
    (requesting false (.issued 2047)).onTag 7 2047 false = some (request false (.issued 2047) none)
      ∧ (requesting true (.issued 1023)).onTag 7 1023 true = some (request true (.issued 1023) none)
      ∧ up.onTag 7 0 false = none ∧ up.lateBack 7 0 false = none ∧ up.onTag 7 0 true = none ∧ up.lateBack 7 0 true = none
      ∧ (let u := (requesting false (.retry 9)).elapseTo 1000
         u.mp.reqs.find? (fun r => decide (r.port = 7) && decide (r.st = .retry 9)) = some (request false (.retry 9) none)
          ∧ 0 + u.ticksOf (1000 * u.retryUs) ≤ u.tu.ltc)
      ∧ (requesting false (.xlp 64)).mp.xreqs.find? (fun q => decide (q.id = 64)) = some { id := 64, pasid := 0, va := 0, write := false, stale := false, at_ := 0 }
      ∧ up.mp.xreqs.find? (fun q => decide (q.id = 64)) = none
      ∧ (let u := (requesting false (.xlp 64)).elapseTo 100000000
         0 + u.ticksOf (1000 * fld (u.reg 0x50408) 0 16) ≤ u.tu.ltc)
      ∧ (let u := (requesting false (.faulted 0) (some 0)).elapseTo 100000000
         u.req 0 = some (request false (.faulted 0) (some 0)) ∧ u.mp.quiesce = false ∧ u.mp.rstq = false
          ∧ 0 + u.ticksOf (100 * clampLo (fld (u.reg 0x50404) 0 16) 1) ≤ u.tu.ltc ∧ 0 + u.ticksOf (1000 * u.flimit 3) ≤ u.tu.ltc
          ∧ (request false (.faulted 0) (some 0)).onPort = false) := by
  and_intros <;> decide +kernel

theorem witness_QuiesceAndResets : up.mp.quiesce = false ∧ ({ up with mp := { up.mp with quiesce := true } } : State).mp.quiesce = true
    ∧ (let u := ({ up with mp := { up.mp with rstq := true } } : State).elapseTo 1000
       u.mp.rstq = true ∧ u.mp.rstSince + u.ticksOf 4000 ≤ u.tu.ltc)
    ∧ up.pwr.blockOff = false ∧ up.boot.pend = none := by
  and_intros <;> decide +kernel

/-! ### Power -/

/-- Region 2 on its way to RUN. -/
def waking (step tries : Nat) : State := up.setRegion 2 { up.region 2 with state := .waking, from_ := .off, step := step, tries := tries }

theorem witness_WakeRows :
    bit ((up.setReg 0x20014 0xA519).reg 0x20014) 0 = true ∧ bit ((up.setReg 0x20014 0).reg 0x20014) 0 = false
      ∧ bit ((up.setReg 0x20014 0xA519).reg 0x20014) 3 = true ∧ (0xA5 : BitVec 8).toNat = fld ((up.setReg 0x20014 0xA519).reg 0x20014) 8 8
      ∧ oddByte 0xA5 = false ∧ bit ((up.setReg 0x20014 0).reg 0x20014) 3 = false
      ∧ bit ((up.setReg 0x20014 0xA519).reg 0x20014) 4 = true ∧ (up.setReg 0x20014 0xA519).pins.strUp = true
      ∧ ((waking 0 0).region 2).state = .waking ∧ (waking 0 0).pwr.refAck = false ∧ (waking 0 0).pwr.blockOff = false
      ∧ nextStep .off 3 < 5 ∧ ((waking 3 0).region 2).step = 3 ∧ 5 ≤ nextStep .off 4 ∧ ((waking 4 0).region 2).from_ = .off
      ∧ ((waking 4 0).region 6).state = .run ∧ ((waking 4 0).region 7).state = .run
      ∧ ((waking 1 0).region 2).tries = 0 ∧ ((waking 1 1).region 2).tries ≠ 0
      ∧ (up.elapseTo 0).pwr.blockOff = false ∧ (dark.elapseTo 0).pwr.blockOff = true := by decide +kernel

/-- A rail request under way, `n` frames sent. -/
def railBusy (n : Nat) : State := { up with pwr := { up.pwr with srpBusy := true, srpSent := n } }

theorem witness_PowerRows :
    (let s := up.setRegion 2 { up.region 2 with entering := some .deep }
     (s.region 2).entering = some .deep ∧ ((s.elapseTo ((s.region 2).since + s.entryTicks .deep)).region 2).pendWake = 0)
    ∧ (up.region 2).entering = none ∧ (railBusy 0).pwr.srpBusy = true
    ∧ (let u := (railBusy 1).elapseTo 8000; u.pwr.srpBusy = true ∧ u.pwr.srpAt + u.ticksOf 200000 ≤ u.tu.ltc ∧ u.pwr.srpSent < 2)
    ∧ (let u := (railBusy 2).elapseTo 8000; u.pwr.srpAt + u.ticksOf 200000 ≤ u.tu.ltc ∧ 2 ≤ u.pwr.srpSent)
    ∧ (up.elapseTo 0).hasRegion 5 = true ∧ [0, 0, 0, 0, 0, (85 : Int), 0][5]? = some 85
    ∧ up.pwr.throttled = false
    ∧ (let s := { allOff with par := { allOff.par with slowclkEn := true } }
       s.pwr.blockOff = false ∧ s.tu.onSlow = false ∧ s.slowOk = true)
    ∧ ({ up with tu := { up.tu with onSlow := true } } : State).tu.onSlow = true
    ∧ (let u := ({ up with pwr := { up.pwr with refAck := true, refReq := true }, tu := { up.tu with onSlow := true, slowTicks := 10 ^ 9 } } : State).elapseTo 0
       u.pwr.refAck = true ∧ u.pwr.refReq = true ∧ 2 * u.par.refStartUs * 32768 ≤ (u.tu.slowTicks - u.pwr.refReqAt) * 1000000) := by
  and_intros <;> decide +kernel

/-! ### Safety manager and boot -/

theorem witness_SafetyManagerRows :
    up.inReset = false ∧ (mkReport 15 .smOrSpineTarget 0).det ≤ 15
      ∧ (let d : Drain := { pc := 17, lc := none, oldInc := 0, newInc := 1, spare := none, det := 0, marked := 0, ghosts := 0, code := 0, at_ := 0 }
         let u := ({ up with sm := { up.sm with drains := [d] } } : State).elapseTo 0
         u.sm.drains.find? (fun d => decide (d.pc = 17)) = some d ∧ d.at_ ≤ u.tu.ltc)
      ∧ up.tu.ltc - up.sm.scrubAt < up.ticksOf 8000000
      ∧ (match memCore (.trf 17) with | some pc => up.hasCore pc | none => true) = true ∧ (up.region (memRegion (.trf 17))).state = .run
      ∧ memRegion .retention = 8 ∧ up.wordBad .retention 8191 = false
      ∧ (up.elapseTo 0).hasCore 17 = true
      ∧ (let u := (atCmd holdRec).elapseTo 0
         u.inReset = false ∧ (u.core 0).held = false ∧ ((u.core 0).fg.list).isSome = true ∧ (u.onCore 0 (fun k => { k with wdogSeen := k.flight })).causes 0 = []
          ∧ (u.core 0).stuck = false)
      ∧ (let u := (atCmd cvtRec (withFlight (flying cvtRec (some 1)))).elapseTo 0
         let v := u.onCore 0 (fun k => { k with wdogSeen := k.flight })
         (v.core 0).held = false ∧ ((v.core 0).fg.list).isSome = true ∧ v.causes 0 = [] ∧ (v.core 0).stuck = true)
      ∧ (let u := ({ up with sm := { up.sm with inj := SMap.set [] Inj.reset 15 { armed := true, count := 0 } } } : State).elapseTo 0
         (u.inj 15).armed = true)
      ∧ up.sm.simplex.getLsbD 1 = false ∧ up.sm.pairReset.getLsbD 1 = false ∧ up.boot.state = .running
      ∧ ({ up with sm := { up.sm with pairReset := 2 } } : State).sm.pairReset.getLsbD 1 = true
      ∧ ({ up with sm := { up.sm with diagBusy := true } } : State).sm.diagBusy = true
      ∧ bit (((up.setReg 0x30000 2).elapseTo 0).reg 0x30000) 1 = true := by
  and_intros <;> decide +kernel

theorem witness_BootRows :
    State.reset.boot.pend = some 0 ∧ State.reset.pwr.blockOff = false ∧ State.reset.regionsUp = true ∧ State.reset.par.testEn = false
      ∧ up.boot.pend ≠ some 0
      ∧ (let s := { up with boot := { up.boot with pend := some 3 } }
         s.boot.pend = some 3 ∧ s.mp.rstq = false ∧ s.par.testEn = false)
      ∧ (upBoot .bist).inReset = false ∧ (upBoot .bist).boot.state = .bist ∧ (upBoot .bist).boot.addrValid = false
      ∧ (upBoot .limnyStart).inReset = false ∧ (upBoot .limnyStart).boot.state = .limnyStart ∧ (upBoot .limnyStart).boot.kind = 0
      ∧ (let u := (upBoot .verify).elapseTo (10 ^ 12)
         u.inReset = false ∧ u.boot.state = .verify ∧ u.boot.fetchAt + u.ticksOf (10 ^ 6 * clampLo (fld (u.reg 0x80024) 0 16) 1) ≤ u.tu.ltc)
      ∧ ({ up with par := { up.par with testEn := true } } : State).par.testEn = true := by
  and_intros <;> decide +kernel

/-! ### The whole machine -/

theorem witness_EveryStepTakesTheFrontCommand : ∃ t, step { up with pending := [.stroke 0, .gongEnable] } = .next t ∧ t.pending = [.gongEnable] := by
  refine ⟨_, rfl, ?_⟩
  decide +kernel

theorem witness_OnlyGongsMoveTheGsn : movesGsn (.stroke 0) = false ∧ movesGsn (.gong 0) = true ∧ movesGsn .gongEnable = true
    ∧ (∃ t, exec (.stroke 0) up = .next t) ∧ ∃ t, step up = .next t :=
  ⟨rfl, rfl, rfl, ⟨_, rfl⟩, ⟨_, rfl⟩⟩

/-! ### Results that the spec works out -/

/-- R139 to R141: 2.5 rounds to 2 and 3.5 to 4. -/
theorem test_round_ties : roundQ none false 5 2 = 2 ∧ roundQ none false 7 2 = 4 ∧ roundQ none true 5 2 = -2 := by decide +kernel

/-- R135: a count wraps modulo 2^32. -/
theorem test_sync_add_wraps : ((up.signal 0 4 true 0xFFFFFFFF).signal 0 4 false 2 |>.sync 4).count = 1 := by decide +kernel

/-- R335: the first KNELL of a core advances its incarnation and fences it. -/
theorem test_knell_fences : ∃ t, exec (.knellReqGo 3) up = .next t ∧ t.sm.fenced = 8 ∧ t.incOf 3 = 1 := by
  refine ⟨_, rfl, ?_⟩
  decide +kernel

/-- R6: SKIP_CNT's clear register has reserved bits; a 1 in one of them has no effect that the spec gives. -/
theorem test_reserved_write : exec (.registerWrite 0x10440 4 15) up = .refused (.reservedWrite 0x10440) := by rfl

/-- R299: in block OFF nothing answers the HCP. -/
theorem test_dark_access : exec .gongEnable dark = .fault .hcpUnpowered := by rfl

/-! ### Clauses with their own ranges -/

/-- Two entries of a port's translation cache, at pages 2 and 3. -/
def page (n : Nat) : TlbEntry := { va := 4096 * n, size := 4096, pa := 0, read := true, write := true }

theorem witness_InvalidationRemovesEntries :
    ∃ s : State, (∃ b ∈ s.mp.tlbs, ∃ e ∈ b.2, e.va < 4096 * (2 + 1) ∧ 4096 * 2 < e.va + e.size ∧ 0 = fld (s.reg 0x50400) 0 20)
      ∧ (∃ b ∈ s.mp.tlbs, ∃ e ∈ b.2, ¬ (e.va < 4096 * (2 + 1))) :=
  ⟨{ up with mp := { up.mp with tlbs := [(7, [page 2, page 3])] } },
    ⟨_, List.mem_cons_self, page 2, List.mem_cons_self, by decide +kernel⟩,
    ⟨_, List.mem_cons_self, page 3, by decide +kernel, by decide +kernel⟩⟩

theorem witness_RoundingIsToNearestEven :
    (0 < 2 ∧ 5 % 2 ≠ 0 ∧ 6 % 2 = 0 ∧ 2 * ((2 : Int) * roundQ none false 5 2 - 5).natAbs = 2)
      ∧ toPw8 none (pw8Val 255) = (255, false) ∧ toPw8 none (pw8Val 0) = (0, false) ∧ toPw4 none (pw4Val 15) = (15, false) := by
  and_intros <;> decide +kernel
end Sys2Proof.Tests
end

section
/-! PROOFS. The gong sequence number (R17): the gong sequence (R27) adds 1 to it in step 1 and leaves it alone in every other step;
a record carries its low 32 bits. -/

namespace Sys2Proof.Machine

/-! ### Step 1 of the sequence -/

theorem fire_gsn (s : State) (t : Int) : (s.fire t).gong.gsn = s.gong.gsn + 1 := by
  simp only [State.fire, gsn_ite, gsn_State_evt, ite_self]

/-! ### Steps 2 and 3: fetches, cuts, margins and the per-core records -/

theorem gsn_finishFetches (s : State) : s.finishFetches.gong.gsn = s.gong.gsn :=
  gsn_foldl _ _ _ fun _ _ => gsn_State_fetched _ _ _

theorem gsn_cutRunning (s : State) (pc : Nat) (c : Ctx) (l : ListRef) : (s.cutRunning pc c l).1.gong.gsn = s.gong.gsn :=
  gsn_State_stopList _ _ _ _ _

theorem gsn_cutCtx (s : State) (due : ListRef → Bool) (pc : Nat) (c : Ctx) :
    (s.cutCtx due pc c).1.gong.gsn = s.gong.gsn := by
  simp only [State.cutCtx]
  split
  · split
    · simp only [gsn_cutRunning, gsn_ite, gsn_State_onCtx, ite_self]
    · simp only [gsn_ite, gsn_State_onCtx, ite_self]
  · simp only [gsn_ite, gsn_State_onCtx, ite_self]

theorem gsn_cutAll (s : State) (due : ListRef → Bool) : (s.cutAll due).1.gong.gsn = s.gong.gsn :=
  gsn_foldl1 _ _ _ fun a pc => (gsn_cutCtx _ due pc .bg).trans (gsn_cutCtx a.1 due pc .fg)

theorem gsn_countCuts (s : State) (cs : List Cut) : (s.countCuts cs).gong.gsn = s.gong.gsn :=
  gsn_foldl _ cs s fun _ _ => gsn_State_onLc _ _ _

theorem gsn_margins (s : State) (t : Int) : (s.margins t).gong.gsn = s.gong.gsn :=
  gsn_foldl _ _ s fun _ _ => gsn_State_onLc _ _ _

theorem gsn_coreGong (s : State) (pc : Nat) : (s.coreGong pc).gong.gsn = s.gong.gsn := by
  simp only [State.coreGong, gsn_State_onCore, gsn_ite, gsn_State_coreGhost, gsn_State_evt, ite_self]

/-! ### Step 5: the commit or the maps, pairs, routes, roles, histories, peals and returning cores -/

theorem gsn_gongCommit (s : State) : s.gongCommit.1.gong.gsn = s.gong.gsn := by
  unfold State.gongCommit
  split
  · split
    · exact gsn_State_commitImage _ _
    · rfl
  · split
    · split
      · rfl
      · exact gsn_State_tryCommit _
    · rfl

theorem gsn_variantRec (s : State) (code : Nat) : (s.variantRec code).gong.gsn = s.gong.gsn :=
  gsn_State_evt _ _ _ _

theorem gsn_applyMaps (s : State) (ds : List (Nat × Option Nat)) : (s.applyMaps ds).gong.gsn = s.gong.gsn := by
  refine gsn_foldl _ ds s fun v d => (gsn_variantRec _ _).trans ?_
  split
  · exact gsn_State_putMap _ _ _
  · rfl

theorem gsn_applyPairs (s : State) : s.applyPairs.gong.gsn = s.gong.gsn := by
  unfold State.applyPairs
  split
  · rfl
  · exact gsn_foldl _ _ s fun _ _ => gsn_State_applyPair _ _

theorem gsn_routeUpdate (s : State) : s.routeUpdate.gong.gsn = s.gong.gsn := by
  unfold State.routeUpdate
  split
  · rfl
  · exact (gsn_State_routeUpdateRec _ _ _).trans (gsn_foldl _ _ s fun _ _ => gsn_State_evt _ _ _ _)

theorem gsn_swapRoles (s : State) : s.swapRoles.gong.gsn = s.gong.gsn := by
  unfold State.swapRoles
  refine gsn_foldl _ _ s fun v n => ?_
  have inverted : ((v.lc n).swaps.foldl (fun u k => u.invertRole n k) v).gong.gsn = v.gong.gsn :=
    gsn_foldl _ _ v fun _ _ => gsn_State_invertRole _ _ _
  simp only [gsn_ite, gsn_State_onLc, ite_self, inverted]

theorem gsn_histories (s : State) : s.histories.gong.gsn = s.gong.gsn := by
  unfold State.histories
  refine gsn_foldl _ _ s fun v i => ?_
  simp only [gsn_ite, gsn_State_evt, gsn_State_onLc, ite_self]

theorem gsn_rejoin (s : State) : s.rejoin.gong.gsn = s.gong.gsn := by
  refine gsn_foldl _ _ s fun v e => ?_
  dsimp only
  split
  · rfl
  · refine (gsn_State_setPeal _ _ _).trans (gsn_foldl _ _ v fun _ _ => ?_)
    rw [gsn_State_evt, gsn_State_setQueue]

theorem gsn_unknellNow (s : State) : s.unknellNow.gong.gsn = s.gong.gsn :=
  gsn_foldl _ _ _ fun v pc => (gsn_State_evt _ _ _ _).trans (gsn_State_setCore v pc { Core.reset with inc := v.incOf pc })

/-! ### Steps 6 to 8: the type, the next gong and the GONG_CUT records -/

theorem gsn_selectType (s : State) (t : Int) : (s.selectType t).gong.gsn = s.gong.gsn := by
  simp only [State.selectType, gsn_ite, gsn_State_emitAt, gsn_State_evt, ite_self]

theorem gsn_nextGong (s : State) (t : Int) (wasMode : Bool) : (s.nextGong t wasMode).gong.gsn = s.gong.gsn := by
  simp only [State.nextGong, gsn_ite, gsn_State_afterMode, ite_self]

theorem gsn_cutRecords (s : State) (cs : List Cut) : (s.cutRecords cs).gong.gsn = s.gong.gsn :=
  gsn_foldl _ cs s fun _ _ => gsn_State_evt _ _ _ _

/-! ### The whole sequence -/

/-- The lemmas stand in the order of R27's steps, from the last back to what follows step 1. -/
theorem gongSeq_gsn_eq_fire (s : State) (t : Int) : (s.gongSeq t).gong.gsn = (s.fire t).gong.gsn := by
  simp only [State.gongSeq,
    gsn_State_fall, gsn_cutRecords,
    gsn_nextGong, gsn_State_releaseAt, gsn_selectType,
    State.onLcs, gsn_unknellNow, gsn_rejoin, gsn_histories, gsn_swapRoles, gsn_routeUpdate, gsn_applyPairs,
    gsn_ite, gsn_applyMaps, gsn_gongCommit, ite_self,
    gsn_foldl _ _ _ gsn_coreGong, gsn_margins, gsn_countCuts, gsn_cutAll, gsn_finishFetches]

theorem gongSeq_gsn (s : State) (t : Int) : (s.gongSeq t).gong.gsn = s.gong.gsn + 1 :=
  (gongSeq_gsn_eq_fire s t).trans (fire_gsn s t)

/-! ### Records -/

/-- R259: the buffer after a record is offered holds what it held and at most that record. -/
theorem mem_acceptEvent_buf {s : State} {r x : EvRec} {cap : Nat} (h : x ∈ (s.acceptEvent r cap).ev.buf) :
    x ∈ s.ev.buf ∨ x = r := by
  unfold State.acceptEvent at h
  split at h
  · simpa using h
  · exact .inl h

theorem mem_emitAt_buf_gsn {s : State} {time : BitVec 56} {cap kind cls unit : Nat} {p : BitVec 112} {x : EvRec}
    (h : x ∈ (s.emitAt time cap kind cls unit p).ev.buf) : x ∈ s.ev.buf ∨ x.gsn = s.gong.gsn.truncate 32 :=
  (mem_acceptEvent_buf h).imp_right fun (hx : x = _) => congrArg EvRec.gsn hx

/-! ### The two commands -/

theorem exec_gong_of_due {s : State} {at_ : Nat} (h : (s.elapseTo at_).gongDue = true) :
    exec (.gong at_) s = .next (settle (s.elapseTo at_) ((s.elapseTo at_).gongSeq (s.elapseTo at_).gongAt)) := by
  have dispatch : exec (.gong at_) s = execGong at_ s := rfl
  simp only [dispatch, execGong, h, if_true]

theorem exec_gong_of_not_due {s : State} {at_ : Nat} (h : (s.elapseTo at_).gongDue = false) :
    exec (.gong at_) s = .next (settle (s.elapseTo at_) (s.elapseTo at_)) := by
  have dispatch : exec (.gong at_) s = execGong at_ s := rfl
  simp only [dispatch, execGong, h, Bool.false_eq_true, if_false]

theorem exec_stroke_gsn (s : State) (at_ : Nat) :
    ∃ t, exec (.stroke at_) s = .next t ∧ t.gong.gsn = (s.elapseTo at_).gong.gsn := by
  refine ⟨_, rfl, ?_⟩
  rw [gsn_settle, gsn_ite, gsn_State_strokesDue, ite_self]

/-- Settles O39: of the steps of R27 only the first moves the GSN, by 1; strokes and what follows every effect leave it alone; and a
record takes its GSN from the state that emits it. -/
theorem gsnCountsGongs : Obligations.GsnCountsGongs := by
  intro s at_ u
  refine ⟨fun due => ⟨_, exec_gong_of_due due, rfl, ?_⟩, exec_gong_of_not_due, exec_stroke_gsn s at_, ?_⟩
  · rw [gsn_settle, gongSeq_gsn]
  · intro v time cap kind cls unit p x
    exact mem_emitAt_buf_gsn

end Sys2Proof.Machine
end

section
/-! PROOFS. A new TRF partition (R59, R60): TRF_PART_APPLY on a drained core resets the core's tiles, its map of registers to slots and
its latches, and offers a TRF_PART record. -/

namespace Sys2Proof.Machine

/-! ### A core whose partition changes -/

/-- What R60 does to a core: partition `p` in force, nothing in the registers, each of them in its own slot. -/
def Core.repartition (p : Bool) (k : Core) : Core :=
  { k with part := p, partPend := none, partMap := false, drain := 0, tiles := [], slotOf := [], latches := [] }

@[simp] theorem Core.repartition_part (p : Bool) (k : Core) : (k.repartition p).part = p := rfl
@[simp] theorem Core.repartition_partPend (p : Bool) (k : Core) : (k.repartition p).partPend = none := rfl
@[simp] theorem Core.repartition_latches (p : Bool) (k : Core) : (k.repartition p).latches = [] := rfl
@[simp] theorem Core.repartition_cache (p : Bool) (k : Core) : (k.repartition p).cache = k.cache := rfl
@[simp] theorem Core.repartition_flight (p : Bool) (k : Core) : (k.repartition p).flight = k.flight := rfl
@[simp] theorem Core.tile_repartition (p : Bool) (k : Core) (r : Nat) : (k.repartition p).tile r = Tile.reset := rfl
@[simp] theorem Core.slotOfReg_repartition (p : Bool) (k : Core) (r : Nat) : (k.repartition p).slotOfReg r = r := rfl

theorem Tile.reset_reads_zero (i : Nat) :
    Tile.reset.word i = 0 ∧ Tile.reset.bad = [] ∧ Tile.reset.kinds = 0 ∧ Tile.reset.t = 0 :=
  ⟨rfl, rfl, rfl, rfl⟩

/-! ### Free slots -/

theorem Core.mem_freeSlots {k : Core} {x : Nat} :
    x ∈ k.freeSlots ↔
      x < slotCount k.part ∧ (∀ r < regCount k.part, k.slotOfReg r ≠ x) ∧ ∀ f ∈ k.flight, f.uses x = false := by
  simp [Core.freeSlots]

/-- R59, R51: what is left in flight on a drained core is abandoned, and uses no slot. -/
theorem Core.uses_of_drained {k : Core} (h : k.drained = true) (x : Nat) : ∀ f ∈ k.flight, f.uses x = false := by
  intro f hf
  obtain ⟨-, abandoned⟩ := Bool.and_eq_true_iff.mp h
  have hp := List.all_eq_true.mp abandoned f hf
  cases phase : f.phase with
  | restart _ _ => simp only [InFlight.uses, phase]
  | _ => simp [phase] at hp

theorem Core.mem_freeSlots_repartition {k : Core} (h : k.drained = true) {p : Bool} {x : Nat}
    (inPart : x < slotCount p) (noReg : regCount p ≤ x) : x ∈ (k.repartition p).freeSlots := by
  rw [Core.mem_freeSlots, Core.repartition_part, Core.repartition_flight]
  exact ⟨inPart, fun r hr => Core.slotOfReg_repartition p k r ▸ (hr.trans_le noReg).ne, Core.uses_of_drained h x⟩

/-! ### Records -/

@[simp] theorem State.core_evt (s : State) (kind unit : Nat) (fs : List (Nat × Nat × Nat)) (n : Nat) :
    (s.evt kind unit fs).core n = s.core n := by
  simp only [State.core, State.evt_cores]

theorem State.acceptEvent_buf_of_room {s : State} {r : EvRec} {cap : Nat} (room : s.ev.buf.length < cap) :
    (s.acceptEvent r cap).ev.buf = s.ev.buf ++ [r] := by
  simp only [State.acceptEvent, if_pos room]

/-- R257, R259: where the buffer has room a record enters it behind the others, from the class that R400 gives its kind. -/
theorem State.evt_buf_of_room {s : State} (kind unit : Nat) (fs : List (Nat × Nat × Nat)) (room : s.ev.buf.length < evCapacity) :
    ∃ e : EvRec, (s.evt kind unit fs).ev.buf = s.ev.buf ++ [e] ∧ e.kind = kind ∧ e.cls = kindClass kind ∧ e.unit = unit :=
  ⟨_, State.acceptEvent_buf_of_room room, rfl, rfl, rfl⟩

/-! ### The command -/

theorem State.trfApply_of_drained {s : State} {pc : Nat} {p : Bool} (drained : (s.core pc).drained = true)
    (pend : (s.core pc).partPend = some p) (run : (s.region (regionOfCore pc)).state = .run) :
    ∃ fs, s.trfApply pc = (s.onCore pc (Core.repartition p)).evt 0x0032 pc fs := by
  simp only [State.trfApply, drained, run, pend, decide_true, Bool.and_true, if_true, Option.getD_some]
  exact ⟨_, rfl⟩

/-- Settles O41: the command is `Core.repartition` on that core and then the record, and each clause is a fact about one of the two. -/
theorem partitionApplies : Obligations.PartitionApplies := by
  intro s pc p drained pend run
  obtain ⟨fs, applied⟩ := State.trfApply_of_drained drained pend run
  refine ⟨s.trfApply pc, rfl, ?_⟩
  have core_pc : (s.trfApply pc).core pc = (s.core pc).repartition p := by simp [applied]
  have core_other : ∀ n, n ≠ pc → (s.trfApply pc).core n = s.core n := fun n hn => by simp [applied, hn]
  rw [core_pc]
  refine ⟨Core.repartition_part _ _, Core.repartition_partPend _ _, fun r i => ?_, fun x => Core.mem_freeSlots_repartition drained,
    Core.repartition_latches _ _, Core.repartition_cache _ _, core_other, ?_⟩
  · rw [Core.tile_repartition]
    exact Tile.reset_reads_zero i
  · intro room
    rw [applied]
    exact State.evt_buf_of_room 0x0032 pc fs room

end Sys2Proof.Machine
end

section
/-! PROOFS. An access of the HCP that the control matrix does not serve (R285, R290, R294): in reset, at the default target and at a
region that is off, it moves the matrix's counters and its note of the last such access, may make a record, and is answered. -/

namespace Sys2Proof.Machine

/-! ### The answer -/

/-- The HCP after an access that nothing serves (R285, R290): NO_TARGET, and data 0 on every beat of a read. -/
def HcpPort.unserved (p : HcpPort) : Instr → HcpPort
  | .poolWindowRead _ n => { p with resp := .noTarget, data := List.replicate n 0, poison := List.replicate n false }
  | _ => { p with resp := .noTarget }

/-- Of the rows that name a value only a read of the pool window has beats to blank. -/
theorem State.blankRead_noTarget (s : State) {c : Instr} (isAccess : (accessAt c).isSome = true) (value : valued c = true) :
    (s.noTarget .hcp).blankRead c = { s with hcp := s.hcp.unserved c } := by
  unfold State.blankRead
  split
  case h_1 => rfl
  case h_2 => exact absurd isAccess Bool.false_ne_true
  case h_3 => exact absurd value Bool.false_ne_true
  case h_4 => exact absurd value Bool.false_ne_true
  case h_5 notPool _ _ _ =>
    unfold HcpPort.unserved
    split
    · exact absurd rfl (notPool _ _)
    · rfl

/-! ### What the matrix keeps of the access -/

theorem State.acceptEvent_eq (s : State) (r : EvRec) (cap : Nat) : ∃ e, s.acceptEvent r cap = { s with ev := e } := by
  unfold State.acceptEvent
  split <;> exact ⟨_, rfl⟩

/-- R257: a record of the matrix touches the event plane alone. -/
theorem State.matrixRec_eq (s : State) (code m off g st woke pc : Nat) :
    ∃ e, s.matrixRec code m off g st woke pc = { s with ev := e } :=
  State.acceptEvent_eq _ _ _

/-- The ports `p` with the access of the HCP at `off` as the last one not served, for the reason `code` (R290, R294). -/
def Ports.lastOfHcp (p : Ports) (off code : Nat) : Ports :=
  { p with cmLastAddr := off % 0x4000000, cmLastMst := 0, cmLastCode := code }

/-- R290: the limit of one record per µs moves only the time of the last record and the event plane. -/
theorem State.missAccess_hcp_eq (s : State) (off : Nat) :
    ∃ at_ e, s.missAccess .hcp off =
      { s with
          mp := Ports.lastOfHcp { s.mp with cmMiss := satAdd s.mp.cmMiss 1 max32, missAt := at_ } off 0x0408
          ev := e : State }.noTarget .hcp := by
  unfold State.missAccess
  dsimp only
  split
  · obtain ⟨e, recorded⟩ := State.matrixRec_eq _ _ _ _ _ _ _ _
    exact ⟨_, e, recorded⟩
  · exact ⟨s.mp.missAt, s.ev, rfl⟩

theorem State.offRec_hcp_eq (s : State) (off g woke : Nat) :
    ∃ e, s.offRec .hcp off g woke =
      { s with mp := Ports.lastOfHcp { s.mp with cmOff := satAdd s.mp.cmOff 1 max32 } off 0x0409, ev := e } :=
  State.matrixRec_eq _ _ _ _ _ _ _ _

/-- A grant moves the target ports alone, so the counts stand. -/
@[simp] theorem State.granted_cmMiss (s : State) (off : Nat) : (s.granted off).mp.cmMiss = s.mp.cmMiss := rfl
@[simp] theorem State.granted_cmOff (s : State) (off : Nat) : (s.granted off).mp.cmOff = s.mp.cmOff := rfl

/-! ### A path whose access is refused (R287, R288) -/

section
variable {s : State} {k off : Nat} {w : Bool} {a : MAccess}
  (holds : (s.target k).path = some a) (access : accessAt a.cmd = some (off, w))

include holds access

theorem State.tryPath_miss (miss : s.verdict a.who off = .miss) :
    s.tryPath k true = ((s.freePath k).missAccess a.who off).blankRead a.cmd := by
  simp only [State.tryPath, holds, access, miss, if_true]

theorem State.tryPath_off {g : Nat} (out : s.verdict a.who off = .off g) :
    s.tryPath k true = (((s.freePath k).offRec a.who off g 0).noTarget a.who).blankRead a.cmd := by
  simp only [State.tryPath, holds, access, out, if_true]

end

/-- A target port whose path the HCP holds for `c`, with no other access waiting. -/
def Target.heldFor (c : Instr) : Target :=
  { last := some .hcp, park := some .hcp, smRun := 0, path := some { who := .hcp, cmd := c, orphan := false }, waits := [] }

theorem State.path_setTarget_heldFor (s : State) (k : Nat) (c : Instr) :
    ((s.setTarget k (Target.heldFor c)).target k).path = some { who := .hcp, cmd := c, orphan := false } := by
  rw [State.target_setTarget, if_pos rfl, Target.heldFor]

theorem State.freePath_heldFor (s : State) (off : Nat) (c : Instr) :
    (s.setTarget (s.portOf .hcp off) (Target.heldFor c)).freePath (s.portOf .hcp off) = s.granted off := by
  simp only [State.freePath, Target.heldFor, State.setTarget_setTarget, State.target_setTarget, if_true, State.granted, State.grantedTo]

section
variable {c : Instr} {s : State} {off : Nat} {w : Bool} (access : accessAt c = some (off, w)) (free : s.pathFree off = true)

include access free

theorem State.offer_eq_tryPath :
    s.offer c = (s.setTarget (s.portOf .hcp off) (Target.heldFor c)).tryPath (s.portOf .hcp off) true :=
  offer_free c s off w access free

theorem State.offer_miss (miss : s.verdict .hcp off = .miss) :
    s.offer c = ((s.granted off).missAccess .hcp off).blankRead c := by
  rw [State.offer_eq_tryPath access free, State.tryPath_miss (State.path_setTarget_heldFor s _ c) access miss, State.freePath_heldFor]

theorem State.offer_off {g : Nat} (out : s.verdict .hcp off = .off g) :
    s.offer c = (((s.granted off).offRec .hcp off g 0).noTarget .hcp).blankRead c := by
  rw [State.offer_eq_tryPath access free, State.tryPath_off (State.path_setTarget_heldFor s _ c) access out, State.freePath_heldFor]

end

/-! ### What an access of the HCP answers by the state of the block -/

theorem State.inReset_of_verdict {s : State} {m : Master} {off : Nat} (h : s.verdict m off ≠ .reset) : s.inReset = false := by
  by_contra reset
  exact h (if_pos (Bool.eq_true_of_not_eq_false reset))

section
variable {c : Instr} {s : State} {off : Nat} {w : Bool} (access : accessAt c = some (off, w))

include access

theorem hcpAccess_blockOff (dark : s.pwr.blockOff = true) : hcpAccess c s = .fault .hcpUnpowered := by
  simp only [hcpAccess, access, dark, if_true]

variable (on : s.pwr.blockOff = false)

include on

theorem hcpAccess_inReset (reset : s.inReset = true) : hcpAccess c s = .next (settle s (s.resetAccess.blankRead c)) := by
  simp only [hcpAccess, access, on, reset, if_true, Bool.false_eq_true, if_false]

theorem hcpAccess_miss (miss : s.verdict .hcp off = .miss) : hcpAccess c s = .next (settle s (s.offer c)) := by
  have run : s.inReset = false := State.inReset_of_verdict (by rw [miss]; nofun)
  simp only [hcpAccess, access, on, run, miss, Bool.false_eq_true, if_false]

theorem hcpAccess_off {g : Nat} (out : s.verdict .hcp off = .off g) : hcpAccess c s = .next (settle s (s.offer c)) := by
  have run : s.inReset = false := State.inReset_of_verdict (by rw [out]; nofun)
  simp only [hcpAccess, access, on, run, out, Bool.false_eq_true, if_false]

end

/-! ### The rows that name a value -/

/-- Settles O4: each way to refuse the access leaves a state known up to the event plane and the time of the last record, and what
follows the effect keeps every part that the statement reads. -/
theorem accessNotServedAnswersNoTarget : Obligations.AccessNotServedAnswersNoTarget := by
  intro s c off w access notOff notDefault answer
  have value : valued c = true := valued_of c notOff notDefault
  have isAccess : (accessAt c).isSome = true := by rw [access]; rfl
  have answer_eq : answer = s.hcp.unserved c := rfl
  rw [exec_access c s isAccess value, answer_eq]
  refine ⟨hcpAccess_blockOff access, fun on => ⟨fun reset => ?_, fun miss free => ?_, fun g out free => ?_⟩⟩
  · rw [hcpAccess_inReset access on reset, State.resetAccess, State.blankRead_noTarget _ isAccess value]
    rfl
  · obtain ⟨at_, e, left⟩ := State.missAccess_hcp_eq (s.granted off) off
    rw [hcpAccess_miss access on miss, State.offer_miss access free miss, left, State.blankRead_noTarget _ isAccess value]
    exact ⟨_, rfl, by simp [Ports.lastOfHcp, satAdd, max32]⟩
  · obtain ⟨e, left⟩ := State.offRec_hcp_eq (s.granted off) off g 0
    rw [hcpAccess_off access on out, State.offer_off access free out, left, State.blankRead_noTarget _ isAccess value]
    exact ⟨_, rfl, by simp [Ports.lastOfHcp, satAdd, max32]⟩

end Sys2Proof.Machine
end

section
/-! PROOFS. Every step takes exactly the front command off the queue, and the integration parameters stay (R374): what follows every
effect gives both back (`settle_pending`, `settle_par`), and the commands differ only in the state it gives them back from. -/

namespace Sys2Proof.Machine

/-- An outcome of a command on `s` with the rest of the queue and the integration parameters of `s`. -/
def KeepsQueue (s : State) (o : Host.Outcome State Fault Refusal) : Prop :=
  ∀ t, o = .next t → t.pending = s.pending ∧ t.par = s.par

/-! ### The outcomes that occur -/

theorem keepsQueue_next {s t : State} (hq : t.pending = s.pending) (hp : t.par = s.par) : KeepsQueue s (.next t) := by
  rintro _ ⟨⟩
  exact ⟨hq, hp⟩

theorem keepsQueue_self (s : State) : KeepsQueue s (.next s) := keepsQueue_next rfl rfl

theorem keepsQueue_settle (s v : State) : KeepsQueue s (.next (settle s v)) :=
  keepsQueue_next (settle_pending s v) (settle_par s v)

/-- Log entry 10: time that passes before the effect leaves both alone. -/
theorem keepsQueue_settle_elapseTo (s v : State) (at_ : Nat) : KeepsQueue s (.next (settle (s.elapseTo at_) v)) :=
  keepsQueue_next ((settle_pending _ v).trans (pending_State_elapseTo s at_)) ((settle_par _ v).trans (par_State_elapseTo s at_))

theorem keepsQueue_fault (s : State) (f : Fault) : KeepsQueue s (.fault f) := by
  rintro _ ⟨⟩

theorem keepsQueue_refused (s : State) (r : Refusal) : KeepsQueue s (.refused r) := by
  rintro _ ⟨⟩

theorem keepsQueue_ite {s : State} {a b : Host.Outcome State Fault Refusal} (p : Prop) [Decidable p] (ha : KeepsQueue s a)
    (hb : KeepsQueue s b) : KeepsQueue s (if p then a else b) := by
  split
  · exact ha
  · exact hb

/-! ### Accesses of the HCP and list commands -/

theorem keepsQueue_hcpAccess (c : Instr) (s : State) : KeepsQueue s (hcpAccess c s) := by
  unfold hcpAccess
  split
  · exact keepsQueue_self s
  · refine keepsQueue_ite _ (keepsQueue_fault s _) (keepsQueue_ite _ (keepsQueue_settle s _) ?_)
    split
    iterate 3 exact keepsQueue_settle s _
    iterate 3 exact keepsQueue_ite _ (keepsQueue_refused s _) (keepsQueue_settle s _)

theorem keepsQueue_issue (opc : Nat) (body : Nat → Ctx → ListRef → List Word → State → State) (pc : Nat) (c : Ctx) (s : State) :
    KeepsQueue s (.next (issue opc body pc c s)) := by
  unfold issue
  split
  · exact keepsQueue_self s
  · simp only [apply_ite Host.Outcome.next]
    refine keepsQueue_ite _ (keepsQueue_settle s _) (keepsQueue_ite _ (keepsQueue_self s) (keepsQueue_ite _ ?_ ?_))
    · exact keepsQueue_next (pending_State_hold ..) (par_State_hold ..)
    · iterate 3 refine keepsQueue_ite _ (keepsQueue_settle s _) ?_
      exact keepsQueue_settle s _

theorem keepsQueue_issueRow (opc : Nat) (body : Nat → Ctx → ListRef → List Word → State → State) (pc : Nat) (c : Ctx) (s : State) :
    KeepsQueue s (issueRow opc body pc c s) := by
  unfold issueRow
  refine keepsQueue_ite _ (keepsQueue_self s) ?_
  split
  · exact keepsQueue_ite _ (keepsQueue_refused s _) (keepsQueue_issue opc body pc c s)
  · exact keepsQueue_issue opc body pc c s

/-! ### Every command -/

/-- A cold start samples the ID of the block (R376), and else keeps the parameters too. -/
theorem exec_coldStart_keepsQueue {s t : State} {key : KeyPort} {i : BitVec 6} (h : exec (.coldStart key i) s = .next t) :
    t.pending = s.pending ∧ (t.par = s.par ∨ t.par = { s.par with instId := i }) := by
  change execColdStart key i s = .next t at h
  unfold execColdStart at h
  split at h
  · obtain ⟨hq, hp⟩ := keepsQueue_settle _ _ t h
    exact ⟨hq, .inr hp⟩
  · obtain ⟨hq, hp⟩ := keepsQueue_settle _ _ t h
    exact ⟨hq, .inl hp⟩

/-- Every other command is an access of the HCP, an access without a value, a command of a list, a completion on a core that runs or not,
or acts at once or after some time has passed. -/
theorem exec_keepsQueue {c : Instr} (s : State) (notCold : ∀ key i, c ≠ .coldStart key i) : KeepsQueue s (exec c s) := by
  cases c
  case coldStart key i => exact absurd rfl (notCold key i)
  case hcpAccessInReset => exact keepsQueue_ite _ (keepsQueue_fault s _) (keepsQueue_settle s _)
  case defaultTargetAccess | regionOffAccess =>
    exact keepsQueue_ite _ (keepsQueue_ite _ (keepsQueue_fault s _) (keepsQueue_settle s _)) (keepsQueue_settle s _)
  case tileComplete | solveComplete =>
    change KeepsQueue s (.next (if _ then _ else _))
    rw [apply_ite Host.Outcome.next]
    exact keepsQueue_ite _ (keepsQueue_settle s _) (keepsQueue_self s)
  case tld | tst | tmov | perm | permx | axp | trn | gth | sct | shuf | brev | redp | sort | ilv | dil | remap | win | cvt | scale | qnt | dqn
    | hold | wait | sig | hpop | hpush | pdl | admission | stamp | fence | endList =>
    exact keepsQueue_issueRow _ _ _ _ s
  case gong | stroke | curfew | auditComplete | malletGrant | xcxWaitLimitExpiry | ringPoll | outboundRingCopy | deadlockDetect | cfgCrcCheck
    | interpCalibrate | timePulse | pulseTimeout | eventRingWrite | ringConsumerPoll | watermarkWrite | mpRetry | xlpRequestTimeout | xlpRetry
    | flimitExpiry | resetQuiesceTimeout | aonCompareWake | srpTimeout | neighbourSample | refStartTimeout | drainWindowEnd | watchdogProbe
    | injection | ptestCycle | bootWdogExpiry =>
    exact keepsQueue_settle_elapseTo s _ _
  case pairApply | trfPartApply | tileRestart | rowReturn | routeFetchComplete | xcxContribution | sinFrame | soutFrame | soutCredit | burstFlush
    | spillComplete | loadStaged | imageResume | todWord | mpReadData | mpWriteResponse | xlpResponse | xlpInvalidate | quiesceReqRise
    | quiesceReqFall | hcpReset | stateEntryComplete | wakePin | wspFrame | sinActivityWake | wakeStepComplete | wakeStepTimeout | srpAnswer
    | throttleEdge | refSel | corePgFall | detectorReport | scrubRead | lockstepMismatch | pairRestartComplete | duplicateStateMismatch
    | diagComplete | warmStart | bistComplete | limnyRunning | jtagBypass | jtagIdcode | jtagMbist | jtagScan | warmReset | powerOnReset
    | regionReturnToRun =>
    exact keepsQueue_settle s _
  all_goals
    rw [exec_access _ s rfl rfl]
    exact keepsQueue_hcpAccess _ s

/-- Settles O59: on an empty queue a tick passes, and else the front command acts on the state with the rest of the queue. -/
theorem everyStepTakesTheFrontCommand : Obligations.EveryStepTakesTheFrontCommand := by
  intro s t h
  unfold step at h
  split at h
  case h_1 empty =>
    cases h
    rw [pending_State_elapse, empty]
    exact ⟨rfl, .inl (par_State_elapse s 1)⟩
  case h_2 c rest front =>
    rw [front]
    by_cases cold : ∃ key i, c = .coldStart key i
    · obtain ⟨key, i, rfl⟩ := cold
      obtain ⟨hq, hp⟩ := exec_coldStart_keepsQueue h
      exact ⟨hq, hp.imp_right fun hp => ⟨key, i, rest, rfl, hp⟩⟩
    · have notCold : ∀ key i, c ≠ .coldStart key i := fun key i e => cold ⟨key, i, e⟩
      obtain ⟨hq, hp⟩ := exec_keepsQueue _ notCold t h
      exact ⟨hq, .inl hp⟩

end Sys2Proof.Machine
end

section
/-! PROOFS. What leaves the GSN alone (R17): every command but a gong, what lets presented time step and what loses all state. -/

namespace Sys2Proof.Machine

/-- An outcome of a command on `s` with the GSN of `s`. -/
def KeepsGsn (s : State) (o : Host.Outcome State Fault Refusal) : Prop :=
  ∀ t, o = .next t → t.gong.gsn = s.gong.gsn

/-! ### The outcomes that occur -/

theorem gsn_if {p : Prop} [Decidable p] {a b : State} {n : DWord} (ha : a.gong.gsn = n) (hb : b.gong.gsn = n) :
    (if p then a else b).gong.gsn = n := by
  split
  · exact ha
  · exact hb

theorem keepsGsn_next {s t : State} (h : t.gong.gsn = s.gong.gsn) : KeepsGsn s (.next t) := by
  rintro _ ⟨⟩
  exact h

theorem keepsGsn_settle {s0 s v : State} (h : v.gong.gsn = s.gong.gsn) : KeepsGsn s (.next (settle s0 v)) :=
  keepsGsn_next ((gsn_settle s0 v).trans h)

/-- Log entry 10: time that passes before the effect leaves the GSN alone. -/
theorem keepsGsn_elapsed {s v : State} {at_ : Nat} (h : v.gong.gsn = (s.elapseTo at_).gong.gsn) :
    KeepsGsn s (.next (settle (s.elapseTo at_) v)) :=
  keepsGsn_settle (h.trans (gsn_State_elapseTo s at_))

theorem keepsGsn_issueRow {opc : Nat} {body : Nat → Ctx → ListRef → List Word → State → State}
    (hb : ∀ pc c l r s, (body pc c l r s).gong.gsn = s.gong.gsn) (pc : Nat) (c : Ctx) (s : State) :
    KeepsGsn s (issueRow opc body pc c s) :=
  gsn_issueRow opc body hb pc c s

/-! ### The operations without a lemma of their own -/

theorem gsn_State_jtag (s : State) (code : Nat) (priv : Bool) {out : State → State} (h : ∀ v, (out v).gong.gsn = v.gong.gsn) :
    (s.jtag code priv out).gong.gsn = s.gong.gsn :=
  gsn_if rfl (h _)

theorem exec_coldStart_keepsGsn (s : State) (key : KeyPort) (i : BitVec 6) : KeepsGsn s (exec (.coldStart key i) s) := by
  change KeepsGsn s (if _ then _ else _)
  split
  · exact keepsGsn_settle (gsn_State_startEntry ..)
  · exact keepsGsn_settle rfl

theorem exec_warmStart_keepsGsn (s : State) (key : KeyPort) : KeepsGsn s (exec (.warmStart key) s) := by
  refine keepsGsn_settle ?_
  split
  · exact gsn_if (gsn_State_startEntry ..) rfl
  · rfl

theorem exec_hcpAccessInReset_keepsGsn (s : State) (off : Nat) (w : Bool) : KeepsGsn s (exec (.hcpAccessInReset off w) s) := by
  change KeepsGsn s (if _ then _ else _)
  split
  · rintro _ ⟨⟩
  · exact keepsGsn_settle (gsn_if ((gsn_State_blankRead ..).trans (gsn_State_resetAccess s)) rfl)

/-! ### The commands -/

/-- Every command that is none of those `movesGsn` names: the effect of each is made of operations that leave the GSN alone. -/
theorem exec_keepsGsn {c : Instr} (s : State) (quiet : movesGsn c = false) : KeepsGsn s (exec c s) := by
  cases c
  case tld => exact keepsGsn_issueRow gsn_bodyTld _ _ s
  case tst => exact keepsGsn_issueRow gsn_bodyTst _ _ s
  case tmov => exact keepsGsn_issueRow gsn_bodyTmov _ _ s
  case perm | gth | sct => exact keepsGsn_issueRow (gsn_bodyRouted _) _ _ s
  case permx => exact keepsGsn_issueRow gsn_bodyPermx _ _ s
  case axp | trn | brev => exact keepsGsn_issueRow gsn_bodyLinear _ _ s
  case shuf => exact keepsGsn_issueRow gsn_bodyShuf _ _ s
  case ilv => exact keepsGsn_issueRow gsn_bodyIlv _ _ s
  case dil => exact keepsGsn_issueRow gsn_bodyDil _ _ s
  case remap => exact keepsGsn_issueRow gsn_bodyRemap _ _ s
  case win => exact keepsGsn_issueRow gsn_bodyWin _ _ s
  case redp => exact keepsGsn_issueRow gsn_bodyRedp _ _ s
  case sort => exact keepsGsn_issueRow gsn_bodySort _ _ s
  case cvt => exact keepsGsn_issueRow gsn_bodyCvt _ _ s
  case scale => exact keepsGsn_issueRow gsn_bodyScale _ _ s
  case qnt => exact keepsGsn_issueRow gsn_bodyQnt _ _ s
  case dqn => exact keepsGsn_issueRow gsn_bodyDqn _ _ s
  case hold => exact keepsGsn_issueRow gsn_bodyHold _ _ s
  case wait => exact keepsGsn_issueRow gsn_bodyWait _ _ s
  case sig => exact keepsGsn_issueRow gsn_bodySig _ _ s
  case hpop => exact keepsGsn_issueRow gsn_bodyHpop _ _ s
  case hpush => exact keepsGsn_issueRow gsn_bodyHpush _ _ s
  case pdl => exact keepsGsn_issueRow gsn_bodyPdl _ _ s
  case admission => exact keepsGsn_issueRow gsn_bodyAdmit _ _ s
  case stamp => exact keepsGsn_issueRow gsn_bodyStamp _ _ s
  case fence => exact keepsGsn_issueRow gsn_bodyFence _ _ s
  case endList => exact keepsGsn_issueRow gsn_bodyEnd _ _ s
  case stroke => exact keepsGsn_elapsed (gsn_if rfl (gsn_State_strokesDue _))
  case curfew => exact keepsGsn_elapsed (gsn_if (gsn_State_curfewStart _) rfl)
  case auditComplete => exact keepsGsn_elapsed (gsn_State_auditEnd _)
  case malletGrant => exact keepsGsn_elapsed (gsn_State_grant _)
  case xcxWaitLimitExpiry => exact keepsGsn_elapsed (gsn_State_xcxExpire ..)
  case ringPoll => exact keepsGsn_elapsed (gsn_if ((gsn_State_ringAnswer ..).trans (gsn_State_ringPoll ..)) rfl)
  case outboundRingCopy => exact keepsGsn_elapsed (gsn_State_ringCopy ..)
  case deadlockDetect => exact keepsGsn_elapsed (gsn_State_detect _)
  case cfgCrcCheck => exact keepsGsn_elapsed (gsn_if ((gsn_State_checkStaged _).trans (gsn_State_checkActive _)) rfl)
  case interpCalibrate => exact keepsGsn_elapsed (gsn_if rfl rfl)
  case pulseTimeout => exact keepsGsn_elapsed (gsn_State_pulseLate _)
  case eventRingWrite => exact keepsGsn_elapsed (gsn_State_evWrite ..)
  case ringConsumerPoll => exact keepsGsn_elapsed (gsn_if (gsn_State_setEvRing ..) rfl)
  case watermarkWrite => exact keepsGsn_elapsed (gsn_if (gsn_State_writeMark ..) rfl)
  case mpRetry => exact keepsGsn_elapsed (gsn_State_retryNow ..)
  case xlpRequestTimeout => exact keepsGsn_elapsed (gsn_State_xlpLate ..)
  case xlpRetry => exact keepsGsn_elapsed (gsn_State_xlpAgain ..)
  case flimitExpiry => exact keepsGsn_elapsed (gsn_State_flimitEnd ..)
  case resetQuiesceTimeout => exact keepsGsn_elapsed (gsn_State_rstLate _)
  case aonCompareWake => exact keepsGsn_elapsed (gsn_if rfl (gsn_State_compareWake ..))
  case srpTimeout => exact keepsGsn_elapsed (gsn_State_srpLate _)
  case neighbourSample => exact keepsGsn_elapsed (gsn_State_sample ..)
  case refStartTimeout => exact keepsGsn_elapsed (gsn_State_refLate _)
  case drainWindowEnd => exact keepsGsn_elapsed (gsn_State_drainEnd ..)
  case watchdogProbe => exact keepsGsn_elapsed (gsn_if rfl (gsn_State_probe ..))
  case injection => exact keepsGsn_elapsed (gsn_State_inject ..)
  case ptestCycle => exact keepsGsn_elapsed (gsn_State_ptest ..)
  case bootWdogExpiry => exact keepsGsn_elapsed (gsn_if rfl (gsn_State_wdogEnd _))
  case pairApply => exact keepsGsn_settle (gsn_State_pairNow ..)
  case trfPartApply => exact keepsGsn_settle (gsn_State_trfApply ..)
  case tileComplete => exact keepsGsn_next (gsn_if ((gsn_settle ..).trans (gsn_State_tileComplete ..)) rfl)
  case solveComplete => exact keepsGsn_next (gsn_if ((gsn_settle ..).trans (gsn_State_solveComplete ..)) rfl)
  case tileRestart => exact keepsGsn_settle (gsn_if (gsn_State_tileRestart ..) rfl)
  case rowReturn => exact keepsGsn_settle (gsn_if (gsn_State_rowReturn ..) rfl)
  case routeFetchComplete => exact keepsGsn_settle (gsn_State_fetched ..)
  case xcxContribution => exact keepsGsn_settle (gsn_State_xcxArrive ..)
  case sinFrame => exact keepsGsn_settle (gsn_State_sinFrame ..)
  case soutFrame => exact keepsGsn_settle (gsn_State_soutFrame ..)
  case soutCredit => exact keepsGsn_settle (gsn_State_soutCredit ..)
  case burstFlush => exact keepsGsn_settle (gsn_State_burstFlush ..)
  case spillComplete => exact keepsGsn_settle (gsn_State_spillEnd ..)
  case loadStaged => exact keepsGsn_settle (gsn_State_loadDone _)
  case imageResume => exact keepsGsn_settle (gsn_if rfl (gsn_State_resumeEnd _))
  case todWord => exact keepsGsn_settle rfl
  case mpReadData => exact keepsGsn_settle (gsn_State_readData ..)
  case mpWriteResponse => exact keepsGsn_settle (gsn_State_writeResp ..)
  case xlpResponse => exact keepsGsn_settle (gsn_State_xlpAnswer ..)
  case xlpInvalidate => exact keepsGsn_settle (gsn_State_invalidate ..)
  case quiesceReqRise => exact keepsGsn_settle (gsn_State_quiesceUp _)
  case quiesceReqFall => exact keepsGsn_settle (gsn_State_quiesceDown _)
  case stateEntryComplete => exact keepsGsn_settle (gsn_State_entryDone ..)
  case sinActivityWake => exact keepsGsn_settle (gsn_if (gsn_State_wake ..) rfl)
  case wakeStepTimeout => exact keepsGsn_settle (gsn_State_stepTimeout ..)
  case srpAnswer => exact keepsGsn_settle (gsn_State_srpAnswer ..)
  case throttleEdge => exact keepsGsn_settle (gsn_State_throttle ..)
  case refSel => exact keepsGsn_settle (gsn_State_refSel ..)
  case corePgFall => exact keepsGsn_settle (gsn_State_corePgFall _)
  case detectorReport => exact keepsGsn_settle (gsn_State_takeReport ..)
  case scrubRead => exact keepsGsn_settle (gsn_State_scrub ..)
  case lockstepMismatch => exact keepsGsn_settle (gsn_State_mismatch ..)
  case pairRestartComplete => exact keepsGsn_settle (gsn_State_pairEnd ..)
  case duplicateStateMismatch => exact keepsGsn_settle (gsn_State_copiesDiffer _)
  case diagComplete => exact keepsGsn_settle (gsn_State_diagEnd ..)
  case coldStart => exact exec_coldStart_keepsGsn s _ _
  case warmStart => exact exec_warmStart_keepsGsn s _
  case bistComplete => exact keepsGsn_settle (gsn_if rfl (gsn_State_bistEnd ..))
  case limnyRunning => exact keepsGsn_settle (gsn_if rfl (gsn_State_limnyEnd ..))
  case jtagBypass | jtagScan => exact keepsGsn_settle (gsn_State_jtag _ _ _ fun _ => rfl)
  case jtagIdcode => exact keepsGsn_settle (gsn_State_jtag _ _ _ fun _ => rfl)
  case jtagMbist => exact keepsGsn_settle (gsn_State_jtag _ _ _ fun _ => gsn_State_mbist ..)
  case warmReset => exact keepsGsn_settle (gsn_State_warmReset _)
  case hcpAccessInReset => exact exec_hcpAccessInReset_keepsGsn s _ _
  all_goals exact absurd quiet Bool.noConfusion

/-- Settles O60: no command but those that `movesGsn` names goes through an operation that moves the GSN, and neither does a tick. -/
theorem onlyGongsMoveTheGsn : Obligations.OnlyGongsMoveTheGsn := by
  refine ⟨fun c s t quiet h => exec_keepsGsn s quiet t h, fun s t empty h => ?_⟩
  have tick : step s = .next (s.elapse 1) := by rw [step, empty]
  cases tick.symm.trans h
  exact gsn_State_elapse s 1

end Sys2Proof.Machine
end

section
/-! PROOFS. The step, an idle tick (R239, R262, log entry 10), what reset leaves, and what follows every effect. -/

namespace Sys2Proof.Machine

/-! ### The step -/

/-- Settles O1: a step looks at the queue alone. -/
theorem stepRunsTheFrontCommand : Obligations.StepRunsTheFrontCommand := by
  intro s c rest front
  rw [step, front]

/-! ### A tick -/

@[simp] theorem State.tick_st (s : State) (n : Nat) : (s.tick n).st = s.st := rfl
@[simp] theorem State.tick_cfg (s : State) (n : Nat) : (s.tick n).cfg = s.cfg := rfl
@[simp] theorem State.tick_regs (s : State) (n : Nat) : (s.tick n).regs = s.regs := rfl

theorem State.tick_ltc {s : State} (fast : s.tu.onSlow = false) (n : Nat) : (s.tick n).tu.ltc = (s.tu.ltc + n) % 2 ^ 64 := by
  simp [State.tick, TimeUnit.elapse, fast]

@[simp] theorem State.tick_onSlow (s : State) (n : Nat) : (s.tick n).tu.onSlow = s.tu.onSlow := by
  simp only [State.tick, TimeUnit.elapse]
  split <;> rfl

/-- R250: a rate that begins to apply changes the rate and what makes presented time go on from it. -/
theorem State.applyRate_eq (s : State) :
    ∃ r o p, s.applyRate = { s with tu := { s.tu with rate := r, offset := o, ratePend := p } } := by
  unfold State.applyRate
  split
  · exact ⟨_, _, _, rfl⟩
  · exact ⟨s.tu.rate, s.tu.offset, s.tu.ratePend, rfl⟩

/-- R239: one tick while AON has its clock advances the LTC by 1 and leaves these parts alone. -/
theorem State.elapse_one {s : State} (on : s.pwr.blockOff = false) (fast : s.tu.onSlow = false) :
    (s.elapse 1).tu.ltc = (s.tu.ltc + 1) % 2 ^ 64 ∧ (s.elapse 1).st = s.st ∧ (s.elapse 1).cfg = s.cfg
      ∧ (s.elapse 1).regs = s.regs := by
  simp only [State.elapse, on, Bool.false_eq_true, Nat.one_ne_zero, or_self, if_false]
  split
  · obtain ⟨r, o, p, applied⟩ := (s.tick 1).applyRate_eq
    refine ⟨?_, by simp [applied], by simp [applied], by simp [applied]⟩
    rw [applied, State.tick_ltc (by simpa using fast)]
    simp [State.tick_ltc fast]
  · exact ⟨State.tick_ltc fast 1, by simp⟩

/-- Settles O2: one tick is `elapse 1`, which lets no time pass in block OFF. -/
theorem emptyQueueLetsOneTickPass : Obligations.EmptyQueueLetsOneTickPass := by
  intro s empty
  have idle : step s = .next (s.elapse 1) := by rw [step, empty]
  refine ⟨fun on fast => ?_, fun dark => ?_⟩
  · obtain ⟨ltc, st, cfg, regs⟩ := State.elapse_one on fast
    exact ⟨_, idle, ltc, gsn_State_elapse s 1, st, cfg, regs, (pending_State_elapse s 1).trans empty⟩
  · rw [idle, State.elapse, if_pos (.inl dark)]

/-! ### Reset -/

/-- R399: what HIST_CFG of every slot of every list controller reads after reset. -/
theorem State.reset_reg_history {h : Nat} (inRange : h < 256) : State.reset.reg (0x41000 + 8 * h) = 0x0000AA13 := by
  change regReset Params.hardMacro (0x41000 + 8 * h) = 0x0000AA13
  have inBank : 0x41000 ≤ 0x41000 + 8 * h ∧ 0x41000 + 8 * h < 0x41800 ∧ (0x41000 + 8 * h) % 8 = 0 := by omega
  unfold regReset
  iterate 15 rw [if_neg (by omega)]
  exact if_pos inBank

/-- Settles O3: reset is a state written out; each clause reads one of its parts. -/
theorem resetLeavesTheStatedValues : Obligations.ResetLeavesTheStatedValues := by
  unfold Obligations.ResetLeavesTheStatedValues
  intro s
  refine ⟨rfl, rfl, rfl, rfl, rfl, rfl, rfl, rfl, rfl, rfl, rfl, fun _ => ⟨rfl, rfl, rfl⟩, fun _ => ⟨rfl, rfl, rfl⟩,
    fun _ => State.reset_reg_history, fun _ => ⟨rfl, rfl⟩, fun _ => rfl, rfl, rfl, rfl, rfl, rfl, rfl, rfl, rfl, rfl, rfl, memWf_reset⟩

/-! ### What follows every effect -/

/-- Settles O58: `settle` gives back the parameters and the queue that it was given, and drains and wakes within three units. -/
theorem whatFollowsAnEffectLeavesTheRest : Obligations.WhatFollowsAnEffectLeavesTheRest := by
  intro s0 s t
  exact ⟨settle_regs .., settle_tu .., settle_gong .., settle_cores .., settle_lcs .., settle_so .., settle_routes .., settle_seqMem ..,
    settle_retain .., settle_cfg .., settle_mp .., settle_sm .., settle_boot .., settle_hcp .., settle_pins .., settle_freeCnt ..,
    settle_par .., settle_pending ..⟩

end Sys2Proof.Machine
end

section
/-! PROOFS. The contexts of a core: advancing and holding (R95, R189), signals to sync objects (R134, R135), and a launch (R50, R95). -/

namespace Sys2Proof.Machine

/-! ### A core with one context replaced -/

@[simp] theorem Core.ctx_setCtx_self (k : Core) (c : Ctx) (x : Context) : (k.setCtx c x).ctx c = x := by cases c <;> rfl
@[simp] theorem Core.setCtx_setCtx (k : Core) (c : Ctx) (x y : Context) : (k.setCtx c x).setCtx c y = k.setCtx c y := by cases c <;> rfl
@[simp] theorem Core.setCtx_ctx (k : Core) (c : Ctx) : k.setCtx c (k.ctx c) = k := by cases c <;> rfl
@[simp] theorem Core.setCtx_flight (k : Core) (c : Ctx) (x : Context) : (k.setCtx c x).flight = k.flight := by cases c <;> rfl
@[simp] theorem Core.setCtx_tiles (k : Core) (c : Ctx) (x : Context) : (k.setCtx c x).tiles = k.tiles := by cases c <;> rfl
@[simp] theorem Core.setCtx_nextId (k : Core) (c : Ctx) (x : Context) : (k.setCtx c x).nextId = k.nextId := by cases c <;> rfl
@[simp] theorem Core.setCtx_inFlight (k : Core) (c d : Ctx) (x : Context) : (k.setCtx c x).inFlight d = k.inFlight d := by cases c <;> rfl
@[simp] theorem Core.setCtx_part (k : Core) (c : Ctx) (x : Context) : (k.setCtx c x).part = k.part := by cases c <;> rfl

@[simp] theorem State.core_onCtx (s : State) (pc n : Nat) (c : Ctx) (f : Context → Context) :
    (s.onCtx pc c f).core n = if n = pc then (s.core pc).setCtx c (f ((s.core pc).ctx c)) else s.core n :=
  State.core_onCore _ _ _ _


/-! ### Advancing and holding -/

/-- A context that goes over to its next record (R95). -/
def Context.advanced (x : Context) : Context :=
  { x with wait := none, waitObj := 0, index := x.index + 1, run := x.run + 1, solves := [], fence := none }

/-- A context held by a cause, waiting on an object (R189). -/
def Context.heldBy (cause obj : Nat) (x : Context) : Context := { x with wait := some cause, waitObj := obj }

@[simp] theorem State.core_unhold (s : State) (pc : Nat) (c : Ctx) (n : Nat) :
    (s.unhold pc c).core n = if n = pc then (s.core pc).setCtx c { (s.core pc).ctx c with wait := none, waitObj := 0 } else s.core n :=
  State.core_onCtx s pc n c fun x => { x with wait := none, waitObj := 0 }

@[simp] theorem State.core_advance (s : State) (pc : Nat) (c : Ctx) (n : Nat) :
    (s.advance pc c).core n = if n = pc then (s.core pc).setCtx c ((s.core pc).ctx c).advanced else s.core n := by
  by_cases here : n = pc
  · subst here
    simp [State.advance, Context.advanced]
  · simp [State.advance, here]

/-- Besides its context, advancing changes only the order in which contexts wait. -/
theorem State.advance_frame (s : State) (pc : Nat) (c : Ctx) :
    (s.advance pc c).so = s.so ∧ (s.advance pc c).st.queues = s.st.queues ∧ (s.advance pc c).st.pool = s.st.pool
      ∧ (s.advance pc c).gong = s.gong ∧ (s.advance pc c).lcs = s.lcs ∧ (s.advance pc c).routes = s.routes
      ∧ (s.advance pc c).cfg = s.cfg :=
  ⟨rfl, rfl, rfl, rfl, rfl, rfl, rfl⟩

/-- Besides its context, holding changes only the order in which contexts wait. -/
theorem State.hold_eq (s : State) (pc : Nat) (c : Ctx) (cause obj : Nat) :
    ∃ q, s.hold pc c cause obj = { s.onCtx pc c (Context.heldBy cause obj) with st := { s.st with waitSeq := q } } := by
  unfold State.hold
  dsimp only
  split
  · exact ⟨s.st.waitSeq, rfl⟩
  · exact ⟨_, rfl⟩

@[simp] theorem State.core_hold (s : State) (pc : Nat) (c : Ctx) (cause obj n : Nat) :
    (s.hold pc c cause obj).core n
      = if n = pc then (s.core pc).setCtx c (((s.core pc).ctx c).heldBy cause obj) else s.core n := by
  obtain ⟨q, held⟩ := s.hold_eq pc c cause obj
  rw [held, ← State.core_onCtx s pc n c (Context.heldBy cause obj)]
  rfl

/-- Settles O23: on its context `advance` is `Context.advanced` and `hold` is `Context.heldBy`. -/
theorem advanceMovesOneRecord : Obligations.AdvanceMovesOneRecord := by
  intro s pc c t
  have advanced : t.core pc = (s.core pc).setCtx c ((s.core pc).ctx c).advanced := by simp [t]
  have others : ∀ n, n ≠ pc → t.core n = s.core n := fun n other => by simp [t, other]
  obtain ⟨so, queues, -, gong, lcs, routes, cfg⟩ := s.advance_frame pc c
  simp only [advanced, Core.ctx_setCtx_self, Core.setCtx_flight, Core.setCtx_tiles]
  refine ⟨rfl, rfl, rfl, rfl, rfl, others, trivial, trivial, so, queues, gong, lcs, routes, cfg, fun w o => ?_⟩
  have held : (s.hold pc c w o).core pc = (s.core pc).setCtx c (((s.core pc).ctx c).heldBy w o) := by simp
  have others : ∀ n, n ≠ pc → (s.hold pc c w o).core n = s.core n := fun n other => by simp [other]
  obtain ⟨q, frame⟩ := s.hold_eq pc c w o
  simp only [held, Core.ctx_setCtx_self, Core.setCtx_flight]
  exact ⟨rfl, rfl, rfl, others, trivial, by simp [frame], by simp [frame], by simp [frame], by simp [frame]⟩

/-! ### Signals -/

theorem State.sync_evt (s : State) (kind unit : Nat) (fs : List (Nat × Nat × Nat)) (n : Nat) : (s.evt kind unit fs).sync n = s.sync n := by
  simp only [State.sync, State.evt_so]

/-- R135: setting a count names its last updater; a logged object makes a record besides. -/
theorem State.setCount_eq (s : State) (n : Nat) (v : Word) (pc inc : Nat) (b : Bool) :
    (∀ m, (s.setCount n v pc inc b).sync m
        = if m = n then { s.sync n with count := v, lastPc := pc, lastInc := inc } else s.sync m)
      ∧ (s.setCount n v pc inc b).cores = s.cores ∧ (s.setCount n v pc inc b).st = s.st
      ∧ (s.setCount n v pc inc b).gong = s.gong ∧ (s.setCount n v pc inc b).lcs = s.lcs
      ∧ (s.setCount n v pc inc b).hcp = s.hcp := by
  unfold State.setCount
  dsimp only
  split
  · simp [State.sync_evt]
  · simp

theorem State.signal_of_fresh {s : State} {pc : Nat} (fresh : s.stale pc = false) (n : Nat) (isSet : Bool) (v : Word) :
    s.signal pc n isSet v = s.setCount n (if isSet then v else (s.sync n).count + v) pc (s.core pc).inc isSet := by
  simp only [State.signal, fresh, Bool.false_eq_true, if_false]

/-- Settles O25: a signal of a core that is not stale is `setCount`. -/
theorem signalSetsOrAddsTheCount : Obligations.SignalSetsOrAddsTheCount := by
  intro s pc n v fresh
  simp only [State.signal_of_fresh fresh]
  refine ⟨?_, ?_, fun b m other => ?_, fun b => ?_⟩
  · simp [(s.setCount_eq ..).1]
  · simp [(s.setCount_eq ..).1]
  · rw [(s.setCount_eq ..).1, if_neg other]
  · obtain ⟨-, cores, st, gong, -⟩ := s.setCount_eq n (if b then v else (s.sync n).count + v) pc (s.core pc).inc b
    exact ⟨cores, st, gong⟩

/-! ### A launch -/

/-- The instruction that `State.launch` puts in flight. -/
def State.launched (s : State) (pc : Nat) (c : Ctx) (l : ListRef) (r : List Word) (dest : Option Nat) (srcs : List Nat)
    (rd wr : Regions) (m : Option Mallet) (x : Tile) (n : CvtStats) (ph : Phase) (kept : List Tile) : InFlight :=
  { id := (s.core pc).nextId, ctx := c, list := l, index := ((s.core pc).ctx c).index, words := r, dest := dest,
    slot := dest.bind fun _ => (s.core pc).freeSlots.head?, result := x, srcs := srcs.map (fun y => (s.core pc).slotOfReg y), reads := rd,
    writes := wr, phase := ph, mallet := m, stats := n, rerun := false, late := false, noted := false, kept := kept }

/-- A core with one more instruction in flight, its commit slot out of the reuse latches (R49). -/
def Core.fly1 (k : Core) (f : InFlight) : Core :=
  let k := { k with flight := k.flight ++ [f], nextId := k.nextId + 1 }
  match f.slot with
  | some x => k.unlatch x
  | none => k

@[simp] theorem Core.fly1_flight (k : Core) (f : InFlight) : (k.fly1 f).flight = k.flight ++ [f] := by
  unfold Core.fly1; split <;> rfl
@[simp] theorem Core.fly1_nextId (k : Core) (f : InFlight) : (k.fly1 f).nextId = k.nextId + 1 := by
  unfold Core.fly1; split <;> rfl
@[simp] theorem Core.fly1_tiles (k : Core) (f : InFlight) : (k.fly1 f).tiles = k.tiles := by
  unfold Core.fly1; split <;> rfl
@[simp] theorem Core.ctx_fly1 (k : Core) (f : InFlight) (c : Ctx) : (k.fly1 f).ctx c = k.ctx c := by
  unfold Core.fly1; cases c <;> split <;> rfl

/-- A context whose grant went to the launched instruction, if it goes with a mallet. -/
def Context.granting (m : Option Mallet) (x : Context) : Context :=
  if m.isSome then { x with granted := none, requested := false } else x

theorem State.launch_eq (s : State) (pc : Nat) (c : Ctx) (l : ListRef) (r : List Word) (dest : Option Nat) (srcs : List Nat)
    (rd wr : Regions) (m : Option Mallet) (x : Tile) (n : CvtStats) (ph : Phase) (kept : List Tile) :
    s.launch pc c l r dest srcs rd wr m x n ph kept
      = (let u := s.onCore pc (fun k => k.fly1 (s.launched pc c l r dest srcs rd wr m x n ph kept))
         if m.isSome then u.onCtx pc c (fun y => { y with granted := none, requested := false }) else u).advance pc c := by
  cases dest <;> rfl

theorem State.core_launch (s : State) (pc : Nat) (c : Ctx) (l : ListRef) (r : List Word) (dest : Option Nat) (srcs : List Nat)
    (rd wr : Regions) (m : Option Mallet) (x : Tile) (n : CvtStats) (ph : Phase) (kept : List Tile) (k : Nat) :
    (s.launch pc c l r dest srcs rd wr m x n ph kept).core k
      = if k = pc then ((s.core pc).fly1 (s.launched pc c l r dest srcs rd wr m x n ph kept)).setCtx c
          (((s.core pc).ctx c).granting m).advanced
        else s.core k := by
  rw [State.launch_eq]
  by_cases here : k = pc
  · subst here
    cases m <;> simp [Context.granting]
  · cases m <;> simp [here]

/-- Settles O31: the launched instruction joins the core, and of the context only the record, the wait and the grant move. -/
theorem launchPutsOneInstructionInFlight : Obligations.LaunchPutsOneInstructionInFlight := by
  intro s pc c l r dest srcs rd wr m x n ph kept t
  have here := s.core_launch pc c l r dest srcs rd wr m x n ph kept pc
  have others : ∀ k, k ≠ pc → t.core k = s.core k := fun k other => (s.core_launch ..).trans (if_neg other)
  rw [if_pos rfl] at here
  have frame : t.so = s.so ∧ t.routes = s.routes ∧ t.lcs = s.lcs ∧ t.gong = s.gong ∧ t.st.queues = s.st.queues
      ∧ t.st.pool = s.st.pool := by
    simp only [t, State.launch_eq]
    obtain ⟨so, queues, pool, gong, lcs, routes, -⟩ := State.advance_frame
      (let u := s.onCore pc (fun k => k.fly1 (s.launched pc c l r dest srcs rd wr m x n ph kept))
       if m.isSome then u.onCtx pc c (fun y => { y with granted := none, requested := false }) else u) pc c
    rw [so, queues, pool, gong, lcs, routes]
    cases m <;> exact ⟨rfl, rfl, rfl, rfl, rfl, rfl⟩
  obtain ⟨so, routes, lcs, gong, queues, pool⟩ := frame
  change (∃ f : InFlight, (t.core pc).flight = _ ∧ _) ∧ _
  simp only [show t.core pc = _ from here, Core.ctx_setCtx_self, Core.setCtx_flight, Core.setCtx_tiles, Core.setCtx_nextId, Core.fly1_flight,
    Core.fly1_nextId, Core.fly1_tiles]
  refine ⟨⟨_, rfl, rfl, rfl, rfl, rfl, rfl, rfl, rfl, rfl, rfl, rfl, rfl, rfl⟩, ?_, rfl, ?_, ?_, trivial, trivial, others, so, routes, lcs,
    gong, queues, pool⟩
  · cases m <;> rfl
  · intro some
    simp [Context.advanced, Context.granting, some]
  · rintro rfl
    rfl

end Sys2Proof.Machine
end

section
/-! PROOFS. A record at the issue point (R94 to R98, R105), and the control commands (R126 to R130). -/

namespace Sys2Proof.Machine

/-! ### Errors judged at issue -/

theorem lowestErr_eq_none_iff (es : List (Bool × Nat)) : lowestErr es = none ↔ ∀ e ∈ es, e.1 = false := by
  have some_of_some (l : List (Bool × Nat)) (x : Nat) :
      l.foldl (fun (a : Option Nat) e => match a with | some x => some (min x e.2) | none => some e.2) (some x) ≠ none := by
    induction l generalizing x with
    | nil => simp
    | cons e l ih => exact ih _
  unfold lowestErr
  cases h : es.filter (fun e => e.1) with
  | nil => simpa using h
  | cons e l =>
    have broken : e ∈ es ∧ e.1 = true := by simpa using (h ▸ List.mem_cons_self : e ∈ es.filter (fun e => e.1))
    exact ⟨fun none => absurd none (some_of_some l e.2), fun clean => by simp [clean e broken.1] at broken⟩

theorem firstShape_eq_none_iff (es : List (Bool × Nat × Nat)) : firstShape es = none ↔ ∀ e ∈ es, e.1 = false := by
  simp [firstShape, List.find?_eq_none]

theorem judge_of_clean {errs : List (Bool × Nat)} {shapes : List (Bool × Nat × Nat)} (noErr : lowestErr errs = none)
    (noShape : firstShape shapes = none) (pc : Nat) (c : Ctx) (r : List Word) (k : State → State) (s : State) :
    judge pc c r errs shapes k s = k s := by
  simp only [judge, noErr, noShape]

theorem judge_of_err {errs : List (Bool × Nat)} {e : Nat} (err : lowestErr errs = some e) (shapes : List (Bool × Nat × Nat))
    (pc : Nat) (c : Ctx) (r : List Word) (k : State → State) (s : State) :
    judge pc c r errs shapes k s = s.cmdError pc c r e := by
  simp only [judge, err]

/-! ### The row of an opcode -/

/-- R23: a background row does nothing while the foreground has a command ready. -/
theorem issueRow_yields (opc : Nat) (body : Nat → Ctx → ListRef → List Word → State → State) {s : State} {pc : Nat}
    (ready : s.fgReady pc = true) : issueRow opc body pc .bg s = .next s := by
  simp [issueRow, ready]

section
variable {opc : Nat} {body : Nat → Ctx → ListRef → List Word → State → State} {s : State} {pc : Nat} {c : Ctx} {l : ListRef}
  {r : List Word} (turn : c = .bg → s.fgReady pc = false)

include turn

theorem issueRow_of_none (point : s.issuePoint pc c = none) : issueRow opc body pc c s = .next s := by
  simp only [issueRow, point, issue, if_neg (show ¬ (c = .bg ∧ s.fgReady pc = true) from fun h => by simp [turn h.1] at h)]

/-- R6: a reserved field that is set in a record of the row's opcode stops it. -/
theorem issueRow_of_reserved (point : s.issuePoint pc c = some (l, r, false)) (opcode : recOpc r = opc) (set_ : reservedSet r = true) :
    issueRow opc body pc c s = .refused .reservedRecord := by
  simp only [issueRow, point, if_neg (show ¬ (c = .bg ∧ s.fgReady pc = true) from fun h => by simp [turn h.1] at h), opcode, set_,
    and_self, if_true]

theorem issueRow_eq_issue {bad : Bool} (point : s.issuePoint pc c = some (l, r, bad))
    (allowed : bad = false → recOpc r = opc → reservedSet r = false) :
    issueRow opc body pc c s = .next (issue opc body pc c s) := by
  simp only [issueRow, if_neg (show ¬ (c = .bg ∧ s.fgReady pc = true) from fun h => by simp [turn h.1] at h), point]
  cases bad with
  | true => rfl
  | false => exact if_neg fun h => by simp [allowed rfl h.1] at h

end

/-- What the checks of a record let through acts, and the prefetch channels scan on (R185). -/
theorem issueRow_of_atIssue {opc : Nat} {s : State} {pc : Nat} {c : Ctx} {l : ListRef} {r : List Word} (at_ : s.atIssue pc c opc l r)
    (body : Nat → Ctx → ListRef → List Word → State → State) :
    issueRow opc body pc c s = .next (settle s (body pc c l r s).prefetch) := by
  obtain ⟨point, rfl, known, unreserved, barrier, shape, flags, index, turn⟩ := at_
  rw [issueRow_eq_issue turn point fun _ _ => unreserved]
  have met : ¬ (recBarrier r = true ∧ (!s.ctxDone pc c) = true) := fun h => by simp [barrier h.1] at h
  have last : ¬ (16383 ≤ ((s.core pc).ctx c).index ∧ recOpc r ≠ 0x3F) := fun h => index.elim h.2 (Nat.not_lt_of_le h.1)
  simp only [issue, point, known, shape, flags, if_neg met, if_neg last, Bool.not_true, Bool.false_eq_true, or_self, if_false,
    ne_eq, not_true_eq_false]

/-- Settles O30: `issue` judges the reading of the record and its opcode first, then BARRIER, shape code, flags and index in this order. -/
theorem badRecordsAreCommandErrors : Obligations.BadRecordsAreCommandErrors := by
  intro s pc c l r
  refine ⟨?_, fun turn => ⟨fun point => ?_, fun point => issueRow_of_reserved turn point, fun point opcode unreserved free => ?_,
    fun point unknown => ?_, issueRow_of_none turn⟩⟩
  · rintro rfl ready
    exact issueRow_yields _ _ ready
  · refine (issueRow_eq_issue turn point nofun).trans ?_
    simp only [issue, point, true_or, if_true]
  · have issued : exec (.hold pc c) s = .next (issue 0x30 bodyHold pc c s) :=
      issueRow_eq_issue turn point fun _ _ => unreserved
    have known : opcodes.contains 0x30 = true := by decide
    have checked : issue 0x30 bodyHold pc c s =
        if (!shpOk r) = true then settle s (s.cmdError pc c r 2) else if (!flagsOk r) = true then settle s (s.cmdError pc c r 3)
        else if 16383 ≤ ((s.core pc).ctx c).index ∧ 0x30 ≠ 0x3F then settle s (s.cmdError pc c r 4)
        else settle s (bodyHold pc c l r s).prefetch := by
      simp only [issue, point, opcode, known, free, Bool.false_eq_true, Bool.not_true, or_self, false_and, if_false, ne_eq,
        not_true_eq_false]
    rw [issued, checked]
    exact ⟨fun shape => by simp [shape], fun shape flags => by simp [shape, flags], fun shape flags index => by simp [shape, flags, index]⟩
  · have notHold : recOpc r ≠ 0x30 := fun h => by rw [h] at unknown; exact absurd unknown (by decide)
    refine (issueRow_eq_issue turn point fun _ h => absurd h notHold).trans ?_
    simp only [issue, point, unknown, Bool.not_false, or_true, if_true]

/-! ### HOLD, WAIT and SIG -/

/-- R126: COND 2 and 3 are the only errors of HOLD and WAIT. -/
theorem lowestErr_cond {n : Nat} (valid : n < 2) : lowestErr [(decide (2 ≤ n), 8)] = none := by
  simp [lowestErr_eq_none_iff, valid]

section
variable {r : List Word} (valid : ctCond r < 2) (s : State) (pc : Nat) (c : Ctx) (l : ListRef)

include valid

theorem bodyHold_eq : bodyHold pc c l r s =
    if ctBit15 r = true ∧ (!condHolds (ctCond r) (s.sync (ctSo r)).count (ctValue r)) = true then s.hold pc c 11 (ctSo r)
    else s.advance pc c :=
  judge_of_clean (lowestErr_cond valid) rfl pc c r _ s

theorem bodyWait_eq : bodyWait pc c l r s =
    if condHolds (ctCond r) (s.sync (ctSo r)).count (ctValue r) = true then s.advance pc c else s.hold pc c 4 (ctSo r) :=
  judge_of_clean (lowestErr_cond valid) rfl pc c r _ s

end

/-- Settles O24: the three bodies advance or hold by their condition. -/
theorem syncCommandsWaitAndSignal : Obligations.SyncCommandsWaitAndSignal := by
  intro s pc c l r
  refine ⟨fun at_ valid => ?_, fun at_ valid => ?_, fun at_ => ?_⟩
  · have row : exec (.hold pc c) s = _ := issueRow_of_atIssue at_ bodyHold
    rw [row, bodyHold_eq valid]
    exact ⟨fun pass => by rw [if_neg]; rintro ⟨cond, fails⟩; simp_all, fun cond fails => by rw [if_pos]; simp [cond, fails]⟩
  · have row : exec (.wait pc c) s = _ := issueRow_of_atIssue at_ bodyWait
    rw [row, bodyWait_eq valid]
    exact ⟨fun holds => by rw [if_pos holds], fun fails => by rw [if_neg]; simp [fails]⟩
  · have row : exec (.sig pc c) s = _ := issueRow_of_atIssue at_ bodySig
    rw [row, bodySig]
    exact ⟨fun done => by rw [if_pos done], fun waits => by rw [if_neg]; simp [waits]⟩

/-! ### HPOP and HPUSH -/

/-- Settles O26: where no error is judged the bodies pop, or push, give back and wait as the queue allows. -/
theorem handleCommandsMoveHandles : Obligations.HandleCommandsMoveHandles := by
  intro s pc c l r
  refine ⟨fun at_ => ⟨fun empty consumer => ?_, fun full => ?_⟩, fun at_ => ⟨fun y held release quiet => ?_,
    fun y held keep producer quiet takes => ?_, fun empty => ?_⟩⟩
  · have row : exec (.hpop pc c) s = _ := issueRow_of_atIssue at_ bodyHpop
    have clean : lowestErr [((((s.core pc).ctx c).hreg (ctH r)).isSome, 5), (!s.consumer (ctHq r) l.lc c, 6)] = none := by
      simp [lowestErr_eq_none_iff, empty, consumer]
    rw [row, bodyHpop, judge_of_clean clean rfl]
    exact ⟨fun u h side popped => by simp only [popped], fun u w waits => by simp only [waits]⟩
  · have row : exec (.hpop pc c) s = _ := issueRow_of_atIssue at_ bodyHpop
    have err : lowestErr [((((s.core pc).ctx c).hreg (ctH r)).isSome, 5), (!s.consumer (ctHq r) l.lc c, 6)] = some 5 := by
      cases s.consumer (ctHq r) l.lc c <;> simp [lowestErr, full]
    rw [row, bodyHpop, judge_of_err err]
  · have row : exec (.hpush pc c) s = _ := issueRow_of_atIssue at_ bodyHpush
    have clean : lowestErr [((((s.core pc).ctx c).hreg (ctH r)).isNone, 5), (!ctRelease r && !s.producer (ctHq r) l.lc c, 6)] = none := by
      simp [lowestErr_eq_none_iff, held, release]
    rw [row, bodyHpush, judge_of_clean clean rfl]
    simp only [held, quiet, release, Bool.false_eq_true, if_false, if_true]
  · have row : exec (.hpush pc c) s = _ := issueRow_of_atIssue at_ bodyHpush
    have clean : lowestErr [((((s.core pc).ctx c).hreg (ctH r)).isNone, 5), (!ctRelease r && !s.producer (ctHq r) l.lc c, 6)] = none := by
      simp [lowestErr_eq_none_iff, held, producer]
    have unblocked : (if (s.staleCode y.handle).isSome = true then none else s.pushWait (ctHq r) (y.heldFor (ctHq r))) = none := by
      rcases takes with stale | room
      · rw [if_pos stale]
      · rw [room, ite_self]
    rw [row, bodyHpush, judge_of_clean clean rfl]
    simp only [held, quiet, keep, unblocked, Bool.false_eq_true, if_false]
  · have row : exec (.hpush pc c) s = _ := issueRow_of_atIssue at_ bodyHpush
    have err : lowestErr [((((s.core pc).ctx c).hreg (ctH r)).isNone, 5), (!ctRelease r && !s.producer (ctHq r) l.lc c, 6)] = some 5 := by
      cases !ctRelease r && !s.producer (ctHq r) l.lc c <;> simp [lowestErr, empty]
    rw [row, bodyHpush, judge_of_err err]

/-! ### ADMIT, STAMP and FENCE -/

/-- Settles O28: each clause is one branch of its body. -/
theorem admitStampAndFence : Obligations.AdmitStampAndFence := by
  intro s pc c l r
  refine ⟨fun at_ => ?_, issueRow_of_atIssue (body := bodyStamp), fun at_ open_ => ?_⟩
  · have row : exec (.admission pc c) s = _ := issueRow_of_atIssue at_ bodyAdmit
    intro u
    rw [row, bodyAdmit]
    refine ⟨fun rel => ?_, fun m keep granted => ?_, fun keep none_ curfew => ?_, fun keep none_ free new => ?_, fun keep none_ free asked => ?_⟩
    · simp only [rel, if_true, u]
    · simp only [keep, granted, Bool.false_eq_true, if_false, u]
    · simp only [u] at curfew
      simp only [keep, none_, curfew, Bool.false_eq_true, if_false, if_true, u]
    · simp only [u] at free
      simp only [keep, none_, free, new, Bool.false_eq_true, if_false, u]
    · simp only [u] at free
      simp only [keep, none_, free, asked, Bool.false_eq_true, if_false, if_true, u]
  · have row : exec (.fence pc c) s = _ := issueRow_of_atIssue at_ bodyFence
    intro u
    have opened : bodyFence pc c l r s = if (!u.ctxDone pc c) = true then u.hold pc c 15 0
        else if (ctXctx r && u.olderThan pc (otherCtx c) (s.core pc).nextId) = true then u.hold pc c 15 0 else u.complete pc c r := by
      simp only [bodyFence, open_, Option.getD_none, u]
    rw [row, opened]
    refine ⟨fun waits => by simp [waits], fun done clear => ?_⟩
    rcases clear with here | none_
    · simp [done, here]
    · simp [done, none_]

end Sys2Proof.Machine
end

section
/-! PROOFS. END (R96, R126, R127): what goes back when a list ends touches no core but the context that goes over to its next list. -/

namespace Sys2Proof.Machine

theorem State.core_congr {s t : State} (h : s.cores = t.cores) (n : Nat) : s.core n = t.core n := by simp only [State.core, h]

@[simp] theorem State.releaseMallet_cores (s : State) (m : Option Mallet) : (s.releaseMallet m).cores = s.cores := by
  cases m <;> rfl

@[simp] theorem State.withdraw_cores (s : State) (f : AcReq → Bool) : (s.withdraw f).cores = s.cores := rfl

@[simp] theorem State.stopPrefetch_cores (s : State) (lc : Nat) (c : Ctx) : (s.stopPrefetch lc c).cores = s.cores := rfl

@[simp] theorem State.signal_cores (s : State) (pc n : Nat) (isSet : Bool) (v : Word) : (s.signal pc n isSet v).cores = s.cores := by
  cases stale : s.stale pc
  · rw [State.signal_of_fresh stale]
    exact (s.setCount_eq ..).2.1
  · simp only [State.signal, stale, if_true]
    rfl

@[simp] theorem State.csig_cores (s : State) (pc : Nat) (r : List Word) : (s.csig pc r).cores = s.cores := by
  unfold State.csig
  split
  · exact State.signal_cores ..
  · rfl

/-- The next list of a context does not depend on what the last one waited for. -/
theorem Context.next_of_unheld (x : Context) : Context.next { x with wait := none, waitObj := 0 } = x.next := rfl

/-- With no handle to give back, a list that ends leaves every core as it is but for its context. -/
theorem bodyEnd_eq {pc : Nat} {c : Ctx} (l : ListRef) (r : List Word) {s : State} (done : s.ctxDone pc c = true)
    (empty : ((s.core pc).ctx c).hregs = []) :
    ∃ v : State, v.cores = s.cores ∧ bodyEnd pc c l r s = (v.unhold pc c).onCtx pc c (fun x => x.next) := by
  simp only [bodyEnd, done, Bool.not_true, Bool.false_eq_true, if_false, empty, List.foldl_nil]
  refine ⟨_, ?_, rfl⟩
  rw [State.stopPrefetch_cores]
  split <;> simp

theorem bodyEnd_core {pc : Nat} {c : Ctx} (l : ListRef) (r : List Word) {s : State} (done : s.ctxDone pc c = true)
    (empty : ((s.core pc).ctx c).hregs = []) (n : Nat) :
    (bodyEnd pc c l r s).core n = if n = pc then (s.core pc).setCtx c ((s.core pc).ctx c).next else s.core n := by
  obtain ⟨v, cores, ended⟩ := bodyEnd_eq l r done empty
  have same := State.core_congr cores
  by_cases here : n = pc
  · simp [ended, here, same, Context.next_of_unheld]
  · simp [ended, here, same]

/-- Settles O29: `bodyEnd` holds until the context is done, and ends the list then. -/
theorem endOfAList : Obligations.EndOfAList := by
  intro s pc c l r at_
  have row : exec (.endList pc c) s = _ := issueRow_of_atIssue at_ bodyEnd
  refine ⟨fun waits => ?_, fun done => ⟨row, fun empty => ⟨?_, fun n other => ?_⟩⟩⟩
  · rw [row, bodyEnd, waits]
    rfl
  · rw [bodyEnd_core l r done empty, if_pos rfl, Core.ctx_setCtx_self]
  · rw [bodyEnd_core l r done empty, if_neg other]

end Sys2Proof.Machine
end

section
/-! PROOFS. Tile commands at the issue point (O32 to O37): a record that is clean passes `judgeTile`, then its gate; what it launches
is the model's own. -/

namespace Sys2Proof.Machine

/-! ### Records without errors -/

theorem lowestErr_cons (e : Bool × Nat) (es : List (Bool × Nat)) : lowestErr (e :: es) = none ↔ e.1 = false ∧ lowestErr es = none := by
  simp only [lowestErr_eq_none_iff, List.forall_mem_cons]

theorem lowestErr_append (es fs : List (Bool × Nat)) : lowestErr (es ++ fs) = none ↔ lowestErr es = none ∧ lowestErr fs = none := by
  simp only [lowestErr_eq_none_iff, List.forall_mem_append]

theorem lowestErr_nil : lowestErr [] = none := rfl

theorem lowestErr_rndErr {r : List Word} (valid : recRnd r < 2) : (rndErr r).1 = false := by simp [rndErr, valid]

theorem firstShape_append (es fs : List (Bool × Nat × Nat)) :
    firstShape (es ++ fs) = none ↔ firstShape es = none ∧ firstShape fs = none := by
  simp only [firstShape_eq_none_iff, List.forall_mem_append]

theorem firstShape_cons (e : Bool × Nat × Nat) (es : List (Bool × Nat × Nat)) :
    firstShape (e :: es) = none ↔ e.1 = false ∧ firstShape es = none := by
  simp only [firstShape_eq_none_iff, List.forall_mem_cons]

theorem firstShape_nil : firstShape [] = none := rfl

section
variable {s : State} {pc : Nat} {c : Ctx} {l : ListRef} {r : List Word} {dest : Option Nat} {srcs : List Nat} {m : Option Mallet}
  {heavy : Bool}

theorem State.tileClean.judged {errs : List (Bool × Nat)} {shapes : List (Bool × Nat × Nat)} (clean : s.tileClean pc c dest srcs errs shapes)
    (k : State → State) : judgeTile (s.tileWait pc c dest srcs) pc c r errs shapes k s = k s := by
  obtain ⟨noWait, noErr, noShape⟩ := clean
  simp only [judgeTile, noWait, judge_of_clean noErr noShape]

/-! ### The gates -/

theorem State.malletFor_light : s.malletFor pc c l r false none := rfl

theorem tileGate_of_free (noWait : s.tileWait pc c dest srcs = none) (mallet : s.malletFor pc c l r heavy m)
    (act : Option Mallet → State → State) : tileGate pc c l r dest srcs heavy act s = act m s := by
  unfold State.malletFor at mallet
  cases heavy
  · cases mallet
    simp [tileGate, noWait]
  · simp only [if_true] at mallet
    simp [tileGate, noWait, mallet]

variable {wants : List Want} {got : List (Route × Kinds)} {u : State}

theorem fabGate_of_ready (noWait : s.tileWait pc c dest srcs = none) (ready : s.routesReady pc wants got u)
    (mallet : u.malletFor pc c l r heavy m) (act : Option Mallet → List (Route × Kinds) → State → State) :
    fabGate pc c l r dest srcs heavy wants none act s = act m got u := by
  obtain ⟨noErr, rfl, found⟩ := ready
  unfold State.malletFor at mallet
  cases heavy
  · cases mallet
    simp [fabGate, noWait, noErr, found]
  · simp only [if_true] at mallet
    simp [fabGate, noWait, noErr, found, mallet]

/-- A fabric command with a plan acts once its solves are queued and none of its slots is being solved. -/
theorem fabGate_of_solved {pl : SolvePlan} {q v : State} (noWait : s.tileWait pc c dest srcs = none)
    (ready : s.routesReady pc wants got u) (queued : q = u.queueSolves pc c pl.slots pl.scatter (u.planVectors pc pl got))
    (all : pl.slots.length ≤ ((q.core pc).ctx c).solves.length) (idle : pl.slots.any (fun k => (q.core pc).solving k) = false)
    (used : v = q.onCore pc (fun k => pl.slots.foldl (fun k n => k.touch n) k)) (mallet : v.malletFor pc c l r heavy m)
    (act : Option Mallet → List (Route × Kinds) → State → State) :
    fabGate pc c l r dest srcs heavy wants (some pl) act s
      = act m (((q.core pc).ctx c).solves.map (fun x => ((solveResult pl.scatter x).1, (solveResult pl.scatter x).2 ||| x.2))) v := by
  obtain ⟨noErr, rfl, found⟩ := ready
  subst queued used
  have solved := not_or.mpr ⟨Nat.not_lt.mpr all, ne_true_of_eq_false idle⟩
  unfold State.malletFor at mallet
  cases heavy
  · cases mallet
    simp only [fabGate, noWait, noErr, found, reduceCtorEq, false_and, if_false, Bool.false_eq_true, if_neg solved]
  · simp only [if_true] at mallet
    simp only [fabGate, noWait, noErr, found, reduceCtorEq, false_and, if_false, if_true, if_neg solved, mallet]

end

/-- Settles O32: each of the four bodies is `judgeTile` before `tileGate`. -/
theorem numberCommandsLaunch : Obligations.NumberCommandsLaunch := by
  intro s pc c l r m
  refine ⟨fun at_ clean mallet => ?_, fun at_ number clean => ?_, fun at_ clean mallet => ?_, fun at_ clean => ?_⟩
  · have row : exec (.cvt pc c) s = _ := issueRow_of_atIssue at_ bodyCvt
    rw [row, bodyCvt, clean.judged, tileGate_of_free clean.1 mallet]
  · have row : exec (.scale pc c) s = _ := issueRow_of_atIssue at_ bodyScale
    obtain ⟨sg, z, e, value⟩ := number
    obtain ⟨noWait, noErr, noShape⟩ := clean
    have clean : s.tileClean pc c (some (recD r)) [recSa r] [rndErr r, (false, 8)] _ :=
      ⟨noWait, by simpa only [lowestErr_cons, true_and] using noErr, noShape⟩
    rw [row, bodyScale]
    simp only [value]
    rw [clean.judged, tileGate_of_free noWait State.malletFor_light]
  · have row : exec (.qnt pc c) s = _ := issueRow_of_atIssue at_ bodyQnt
    rw [row, bodyQnt, clean.judged, tileGate_of_free clean.1 mallet]
  · have row : exec (.dqn pc c) s = _ := issueRow_of_atIssue at_ bodyDqn
    rw [row, bodyDqn, clean.judged, tileGate_of_free clean.1 State.malletFor_light]

/-! ### What fabric work leaves unchanged -/

@[simp] theorem Core.latch_flight (k : Core) (p n : Nat) : (k.latch p n).flight = k.flight := rfl
@[simp] theorem Core.latch_tiles (k : Core) (p n : Nat) : (k.latch p n).tiles = k.tiles := rfl

/-- The fields that fabric work of core `pc` keeps between two states. -/
structure State.FabKeeps (pc : Nat) (s t : State) : Prop where
  flight : (t.core pc).flight = (s.core pc).flight
  tiles : (t.core pc).tiles = (s.core pc).tiles
  others : ∀ n, n ≠ pc → t.core n = s.core n
  so : t.so = s.so
  routes : t.routes = s.routes
  st : t.st = s.st

theorem State.FabKeeps.rfl {pc : Nat} {s : State} : s.FabKeeps pc s := ⟨Eq.refl _, Eq.refl _, fun _ _ => Eq.refl _, Eq.refl _, Eq.refl _, Eq.refl _⟩

theorem State.FabKeeps.trans {pc : Nat} {s t u : State} (h : s.FabKeeps pc t) (k : t.FabKeeps pc u) : s.FabKeeps pc u :=
  ⟨k.flight.trans h.flight, k.tiles.trans h.tiles, fun n other => (k.others n other).trans (h.others n other), k.so.trans h.so,
    k.routes.trans h.routes, k.st.trans h.st⟩

theorem State.fabKeeps_onCore {pc : Nat} {s : State} {f : Core → Core} (flight : (f (s.core pc)).flight = (s.core pc).flight)
    (tiles : (f (s.core pc)).tiles = (s.core pc).tiles) : s.FabKeeps pc (s.onCore pc f) :=
  ⟨by simpa using flight, by simpa using tiles, fun n other => by simp [other], Eq.refl _, Eq.refl _, Eq.refl _⟩

theorem State.fabKeeps_fabFail (s : State) (pc port place : Nat) (injected : Bool) : s.FabKeeps pc (s.fabFail pc port place injected) :=
  .trans (State.fabKeeps_onCore (f := fun k => { k with
      cnt := { k.cnt with fabCheck := satAdd k.cnt.fabCheck 1 max32 }
      gongPort := if k.gongFab = 0 then port else k.gongPort
      gongPlace := if k.gongFab = 0 then place else k.gongPlace
      gongFab := k.gongFab + 1 }) (Eq.refl _) (Eq.refl _))
    ⟨Eq.refl _, Eq.refl _, fun _ _ => Eq.refl _, Eq.refl _, Eq.refl _, Eq.refl _⟩

theorem State.fabKeeps_fabFails (pc : Nat) (fs : Fails) (injected : Bool) (s : State) : s.FabKeeps pc (s.fabFails pc fs injected) := by
  unfold State.fabFails
  induction fs generalizing s with
  | nil => exact .rfl
  | cons f fs ih => exact (s.fabKeeps_fabFail pc f.1 f.2 injected).trans (ih _)

theorem Core.latches_keep (reads : List (Nat × Nat)) (k : Core) :
    (reads.foldl (fun k x => k.latch (k.slotOfReg x.1) x.2) k).flight = k.flight
      ∧ (reads.foldl (fun k x => k.latch (k.slotOfReg x.1) x.2) k).tiles = k.tiles := by
  induction reads generalizing k with
  | nil => exact ⟨rfl, rfl⟩
  | cons x reads ih => exact ih _

theorem State.fabKeeps_fabDone (s : State) (pc passes : Nat) (reads : List (Nat × Nat)) (fs : Fails) :
    s.FabKeeps pc (s.fabDone pc passes reads fs) :=
  (State.fabKeeps_onCore (Core.latches_keep reads _).1 (Core.latches_keep reads _).2).trans (State.fabKeeps_fabFails ..)

/-! ### Movement -/

theorem any_range_map {n : Nat} {f : Nat → Nat} {g : Nat → Bool} (h : ∀ i, i < n → g (f i) = false) :
    ((List.range n).map f).any g = false := by
  simpa [List.any_eq_false] using h

/-- The errors of a TST beyond those of its access (R110, R174). -/
theorem tstErrs_clean {s : State} {pc : Nat} {c : Ctx} {l : ListRef} {r : List Word} {n : Nat}
    (takes : mvAlloc r = true → (∀ i, i < n → ((s.core pc).ctx c).hreg (mvH r + i) = none)
        ∧ (s.part (mvPart r)).size ≠ 0 ∧ (s.part (mvPart r)).reserved = false ∧ (s.queue (recChq r)).valid = true)
    (pushes : recCpush r = true → s.producer (recChq r) l.lc c = true ∧ ∀ i, i < recCn r → recCh r + i ≤ 15
        ∧ ((((s.core pc).ctx c).hreg (recCh r + i)).isSome = true ∨ mvAlloc r = true ∧ mvH r ≤ recCh r + i ∧ recCh r + i < mvH r + n)) :
    lowestErr
      [ (mvAlloc r && ((List.range n).map (fun i => mvH r + i)).any (fun h => (((s.core pc).ctx c).hreg h).isSome), 5),
        (recCpush r && ((List.range (recCn r)).map (fun i => recCh r + i)).any (fun h => (((s.core pc).ctx c).hreg h).isNone
          && !(mvAlloc r && ((List.range n).map (fun i => mvH r + i)).contains h)), 5),
        (mvAlloc r && (decide ((s.part (mvPart r)).size = 0) || (s.part (mvPart r)).reserved), 6),
        ((mvAlloc r && !(s.queue (recChq r)).valid) || (recCpush r && !s.producer (recChq r) l.lc c), 6),
        (recCpush r && ((List.range (recCn r)).map (fun i => recCh r + i)).any (fun h => decide (15 < h)), 8) ] = none := by
  have own (h : Nat) (low : mvH r ≤ h) (high : h < mvH r + n) : ((List.range n).map (fun i => mvH r + i)).contains h = true := by
    simp only [List.contains_eq_mem, List.mem_map, List.mem_range, decide_eq_true_eq]
    exact ⟨h - mvH r, by omega, by omega⟩
  simp only [lowestErr_cons, lowestErr_nil, and_true, Bool.or_eq_false_iff]
  refine ⟨?_, ?_, ?_, ⟨?_, ?_⟩, ?_⟩
  · cases alloc : mvAlloc r
    · rfl
    · exact any_range_map fun i here => by rw [(takes alloc).1 i here]; rfl
  · cases push : recCpush r
    · rfl
    · refine any_range_map fun i here => ?_
      obtain ⟨-, held | ⟨alloc, low, high⟩⟩ := (pushes push).2 i here
      · simp [Option.isSome_iff_ne_none.mp held]
      · rw [own _ low high, alloc]
        exact Bool.and_false _
  · cases alloc : mvAlloc r
    · rfl
    · obtain ⟨-, size, reserved, -⟩ := takes alloc
      simp [size, reserved]
  · cases alloc : mvAlloc r
    · rfl
    · simp [(takes alloc).2.2.2]
  · cases push : recCpush r
    · rfl
    · simp [(pushes push).1]
  · cases push : recCpush r
    · rfl
    · exact any_range_map fun i here => decide_eq_false (Nat.not_lt.mpr ((pushes push).2 i here).1)

/-- Settles O33: the busy regions, the buffers and the gate let the record through in turn. -/
theorem moveCommandsLaunch : Obligations.MoveCommandsLaunch := by
  intro s pc c l r p d ds srcs
  refine ⟨fun at_ clean shape free => ?_, fun at_ shape operand noWait noErr takes pushes free => ?_, fun at_ clean => ?_⟩
  · have row : exec (.tld pc c) s = _ := issueRow_of_atIssue at_ bodyTld
    have gate := clean.judged (r := r)
    simp only [row, bodyTld]
    simp only [show shapeOk (s.core pc).part (descD (s.core pc).part r) = true from shape, if_true,
      show (s.core pc).regionBusy c (s.regionsOf pc c l.lc r (movedRows (s.core pc).part (descD (s.core pc).part r))) [] = false from free,
      Bool.false_eq_true, if_false]
    rw [gate, if_neg (ne_true_of_eq_false free), tileGate_of_free clean.1 State.malletFor_light]
  · have row : exec (.tst pc c) s = _ := issueRow_of_atIssue at_ bodyTst
    have clean : s.tileClean pc c none [recSa r] _ [(badOperand p (recSa r) ds, 1, ds.ty)] :=
      ⟨noWait, (lowestErr_append _ _).mpr ⟨noErr, tstErrs_clean (l := l) (fun alloc => ⟨(takes alloc).1, (takes alloc).2.1, (takes alloc).2.2.1,
        (takes alloc).2.2.2.1⟩) pushes⟩, by simp only [firstShape_cons, operand, firstShape_nil, and_self]⟩
    have gate := clean.judged (r := r)
    have room : (mvAlloc r && (decide ((s.part (mvPart r)).free.length < allocCount r (movedRows p ds))
        || !s.canReserve (recChq r) (allocCount r (movedRows p ds)))) = false := by
      cases alloc : mvAlloc r
      · rfl
      · obtain ⟨-, -, -, -, slots, credits⟩ := takes alloc
        simp [slots, credits]
    simp only [row, bodyTst]
    simp only [show shapeOk (s.core pc).part (descS (s.core pc).part r) = true from shape, if_true,
      show (s.core pc).regionBusy c [] (s.regionsOf pc c l.lc r (movedRows (s.core pc).part (descS (s.core pc).part r))) = false from free,
      Bool.false_eq_true, if_false]
    rw [gate, if_neg (ne_true_of_eq_false free), if_neg (ne_true_of_eq_false room), tileGate_of_free noWait State.malletFor_light]
  · have row : exec (.tmov pc c) s = _ := issueRow_of_atIssue at_ bodyTmov
    have keeps := s.fabKeeps_fabDone pc (tmNr r / 4) ((List.range (tmNr r / 4)).map (fun i => (recSa r, tmRs r / 4 + i)))
      (tmovTile p r ((s.core pc).tile (recSa r)) ((s.core pc).tile (recSb r)) (s.core pc).injLane).2
    refine ⟨_, ?_, keeps.flight, keeps.tiles, keeps.others, keeps.so, keeps.routes, keeps.st⟩
    rw [row, bodyTmov, clean.judged, tileGate_of_free clean.1 State.malletFor_light]

end Sys2Proof.Machine
end

section
/-! PROOFS. Reordering commands (O34 to O36): `judgeTile`, then `fabGate`, then the move. -/

namespace Sys2Proof.Machine

section
variable {s u : State} {pc : Nat} {c : Ctx} {l : ListRef} {r : List Word} {m : Option Mallet} {got : List (Route × Kinds)}

/-- The want of a routed command without SOLVE. -/
def routedWant (s : State) (pc : Nat) (r : List Word) : Want :=
  { ref := ref3lo r, kinds := moveKinds (descS (s.core pc).part r).ty, width := some (widthOf (descS (s.core pc).part r).ty) }

/-- A routed command whose stored route is there moves by it. -/
theorem bodyRouted_of_stored {heavyOk : Bool} {ks : Bool} (keeps : ks = s.wantKeeps pc (routedWant s pc r)) (plain : recSolve r = false)
    (rnd : recRnd r < 2)
    (clean : s.tileClean pc c (some (recD r)) (if ks then [recSa r, recSb r] else [recSa r]) []
      (operandShapes (s.core pc).part r ++ convShapes (s.core pc).part (descS (s.core pc).part r) (descD (s.core pc).part r)
        ++ [(ks && decide (regCount (s.core pc).part ≤ recSb r), 2, (descD (s.core pc).part r).ty)]))
    (ready : s.routesReady pc [routedWant s pc r] got u)
    (mallet : u.malletFor pc c l r (heavyOk && decide (sliceCount (s.core pc).part r = rmax (s.core pc).part / 4)) m) :
    bodyRouted heavyOk pc c l r s = actRouted pc c l r (if ks then [recSa r, recSb r] else [recSa r]) ks m got u := by
  obtain ⟨noWait, -, noShape⟩ := clean
  have srcs : [recSa r] ++ (if ks then [recSb r] else []) ++ [] = if ks then [recSa r, recSb r] else [recSa r] := by cases ks <;> rfl
  subst keeps
  unfold routedWant at *
  simp only [bodyRouted, plain, Bool.false_and, Bool.false_eq_true, if_false]
  rw [srcs]
  rw [State.tileClean.judged (r := r) ⟨noWait, ?_, ?_⟩, fabGate_of_ready noWait ready mallet]
  · simp only [lowestErr_cons, lowestErr_rndErr rnd, lowestErr_nil, and_self]
  · simp only [firstShape_append, firstShape_cons, firstShape_nil, and_true] at noShape ⊢
    exact noShape

/-- The slots that a routed command with SOLVE names: one, or one for each slice in turn under PER of a GTH (R114). -/
def solveSlots (s : State) (pc : Nat) (r : List Word) : List Nat :=
  if decide (recOpc r = 0x14) && recCmod0 r && solIsrc r then
    (List.range (sliceCount (s.core pc).part r)).map (fun i => (ref3lo r).slot ^^^ (i % 2))
  else [(ref3lo r).slot]

/-- The stored INDEX route that a routed command with SOLVE wants where its indices are not in a register. -/
def solveWants (r : List Word) : List Want :=
  if solIsrc r then [] else [{ ref := { id := solId r, bySlot := false, slot := 0 }, kinds := [4], width := none }]

/-- The registers that a routed command with SOLVE reads. -/
def solveSrcs (r : List Word) (scat : Bool) : List Nat :=
  [recSa r] ++ (if scat then [recSb r] else []) ++ (if solIsrc r then [solReg r] else [])

/-- The solves that a routed command with SOLVE asks for (R114). -/
def solvePlanOf (s : State) (pc : Nat) (r : List Word) (scat : Bool) : SolvePlan :=
  { slots := solveSlots s pc r, scatter := scat, reg := if solIsrc r then some (solReg r, solSlice r) else none }

/-- A routed command with SOLVE asks for its plan before it acts. -/
theorem bodyRouted_of_solve {heavyOk scat : Bool} (opcode : scat = decide (recOpc r = 0x15)) (solve : recSolve r = true)
    (rnd : recRnd r < 2)
    (clean : s.tileClean pc c (some (recD r)) (solveSrcs r scat)
      [(!(ref3lo r).bySlot, 8), (solIsrc r && decide (rmax (s.core pc).part / 4 < solSlice r + (solveSlots s pc r).length), 8)]
      (operandShapes (s.core pc).part r ++ convShapes (s.core pc).part (descS (s.core pc).part r) (descD (s.core pc).part r)
        ++ [(scat && decide (regCount (s.core pc).part ≤ recSb r), 2, (descD (s.core pc).part r).ty),
            (solIsrc r && decide (regCount (s.core pc).part ≤ solReg r), 5, 0)])) :
    bodyRouted heavyOk pc c l r s
      = fabGate pc c l r (some (recD r)) (solveSrcs r scat)
          (heavyOk && decide (sliceCount (s.core pc).part r = rmax (s.core pc).part / 4)) (solveWants r) (some (solvePlanOf s pc r scat))
          (actRouted pc c l r (solveSrcs r scat) scat) s := by
  obtain ⟨noWait, noErr, noShape⟩ := clean
  subst opcode
  unfold solvePlanOf solveSrcs solveWants solveSlots at *
  simp only [bodyRouted, solve, Bool.true_and, Bool.and_true, if_true]
  rw [State.tileClean.judged (r := r) ⟨noWait, ?_, noShape⟩]
  exact (lowestErr_cons _ _).mpr ⟨lowestErr_rndErr rnd, noErr⟩

end

/-- Settles O34: a stored route takes `bodyRouted_of_stored`, a solve `bodyRouted_of_solve`. -/
theorem routedCommandsLaunch : Obligations.RoutedCommandsLaunch := by
  intro s pc c l r m got u p sop dop n ref want ks srcs isrc per slots wants scat pl ssrcs q v ready solved rts heavy
  have stored {heavyOk : Bool} {m : Option Mallet} (h : ready) (mallet : u.malletFor pc c l r (heavyOk && heavy) m) :
      bodyRouted heavyOk pc c l r s = actRouted pc c l r srcs ks m got u := by
    obtain ⟨plain, rnd, clean, there⟩ := h
    exact bodyRouted_of_stored rfl plain rnd clean there mallet
  have solve {heavyOk : Bool} {m : Option Mallet} (h : solved) (mallet : v.malletFor pc c l r (heavyOk && heavy) m) :
      bodyRouted heavyOk pc c l r s = actRouted pc c l r ssrcs scat m rts v := by
    obtain ⟨solve, rnd, clean, there, all, idle⟩ := h
    have queued : q = u.queueSolves pc c pl.slots pl.scatter (u.planVectors pc pl got) := rfl
    have used : v = q.onCore pc (fun k => pl.slots.foldl (fun k n => k.touch n) k) := rfl
    have acts := fabGate_of_solved (pl := pl) (dest := some (recD r)) clean.1 there queued all idle used mallet
    exact (bodyRouted_of_solve (scat := scat) rfl solve rnd clean).trans (acts _)
  refine ⟨fun at_ => ⟨fun h mallet => ?_, fun h mallet => ?_⟩, fun at_ => ⟨fun h => ?_, fun h => ?_⟩,
    fun at_ => ⟨fun h => ?_, fun h => ?_⟩⟩
  · have row : exec (.perm pc c) s = _ := issueRow_of_atIssue at_ (bodyRouted true)
    rw [row, stored (heavyOk := true) h mallet]
  · have row : exec (.perm pc c) s = _ := issueRow_of_atIssue at_ (bodyRouted true)
    have gather : scat = false := decide_eq_false (by rw [at_.2.1]; decide)
    rw [row, solve (heavyOk := true) h mallet, gather]
  · have row : exec (.gth pc c) s = _ := issueRow_of_atIssue at_ (bodyRouted false)
    rw [row, stored h State.malletFor_light]
  · have row : exec (.gth pc c) s = _ := issueRow_of_atIssue at_ (bodyRouted false)
    have gather : scat = false := decide_eq_false (by rw [at_.2.1]; decide)
    rw [row, solve h State.malletFor_light, gather]
  · have row : exec (.sct pc c) s = _ := issueRow_of_atIssue at_ (bodyRouted false)
    rw [row, stored h State.malletFor_light]
  · have row : exec (.sct pc c) s = _ := issueRow_of_atIssue at_ (bodyRouted false)
    have scatter : scat = true := decide_eq_true at_.2.1
    rw [row, solve h State.malletFor_light, scatter]

/-! ### Moves without a stored route -/

theorem State.routesReady_nil (s : State) (pc : Nat) : s.routesReady pc [] [] s := ⟨rfl, rfl, rfl⟩

/-- Settles O35: these commands want no route. -/
theorem computedMovesLaunch : Obligations.ComputedMovesLaunch := by
  intro s pc c l r p sop dop n mode g clean moved
  have linear (h : clean) : Host.Outcome.next (settle s (bodyLinear pc c l r s).prefetch) = moved := by
    rw [bodyLinear, h.judged, fabGate_of_ready h.1 (s.routesReady_nil pc) State.malletFor_light]
  refine ⟨fun at_ h => ?_, fun at_ h => ?_, fun at_ h => ?_, fun at_ h low least most => ?_⟩
  · exact Eq.trans (issueRow_of_atIssue at_ bodyLinear) (linear h)
  · exact Eq.trans (issueRow_of_atIssue at_ bodyLinear) (linear h)
  · exact Eq.trans (issueRow_of_atIssue at_ bodyLinear) (linear h)
  · have row : exec (.shuf pc c) s = _ := issueRow_of_atIssue at_ bodyShuf
    obtain ⟨noWait, noErr, noShape⟩ := h
    have noMode : ¬ 4 ≤ fld (rw r 3) 0 3 := Nat.not_le.mpr low
    have noGroup : ¬ (fld (rw r 3) 3 4 = 0 ∨ 8 < fld (rw r 3) 3 4) := by
      change 1 ≤ fld (rw r 3) 3 4 at least
      change fld (rw r 3) 3 4 ≤ 8 at most
      omega
    rw [row, bodyShuf, State.tileClean.judged (r := r) ⟨noWait, ?_, noShape⟩,
      fabGate_of_ready noWait (s.routesReady_nil pc) State.malletFor_light]
    simpa only [lowestErr_cons, lowestErr_nil, decide_eq_false noMode, decide_eq_false noGroup, and_true] using noErr

/-! ### Reduce, sort and exchange -/

/-- Settles O36: each body is `judgeTile` before `fabGate`; a PERMX also finds its collective. -/
theorem reduceSortAndBetweenGroups : Obligations.ReduceSortAndBetweenGroups := by
  intro s pc c l r m got u p sop dop n heavy src wants keep srcs sw
  refine ⟨fun at_ clean ready mallet => ?_, fun e k gs at_ clean ready mallet route => ?_, ?_⟩
  · have row : exec (.redp pc c) s = _ := issueRow_of_atIssue at_ bodyRedp
    intro o
    have act := fabGate_of_ready (dest := some (recD r)) (heavy := heavy) clean.1 ready mallet
    refine ⟨u.onCnt pc (fun x => { x with redpSat := satAdd x.redpSat o.2 max32 }), tileOfLanes p dop o.1.1
      ((src.map (fun x => ((u.core pc).tile x.1).kinds) ++ got.map (fun x => x.2)).foldl (· ||| ·)
        (if keep then ((u.core pc).tile (recSb r)).kinds else 0)) ((u.core pc).tile (recSa r)).t, ?_, ⟨_, _, rfl⟩, ?_⟩
    · rw [row, bodyRedp, clean.judged, act]
    · simp +contextual [State.onCnt]
  · have row : exec (.sort pc c) s = _ := issueRow_of_atIssue at_ bodySort
    subst route
    have act := fabGate_of_ready (dest := some (recD r)) (heavy := heavy) clean.1 ready mallet
    obtain ⟨noWait, noErr, noShape⟩ := clean
    rw [row, bodySort, State.tileClean.judged (r := r) ⟨noWait, ?_, noShape⟩, act]
    exact noErr
  · intro ref stored g glob xw w1 w3 full kp at_ globOk member named clean xmapOk room ready mallet
    have row : exec (.permx pc c) s = _ := issueRow_of_atIssue at_ bodyPermx
    obtain ⟨noWait, -, noShape⟩ := clean
    have free : ((s.joins ref.id l.lc).isNone && decide (4 ≤ (s.routes.colls.filter (fun e => !e.2.closed)).length)) = false := by
      cases room with
      | inl joins => simp [Option.isSome_iff_ne_none.mp joins]
      | inr open_ => simp [Nat.not_le.mpr open_]
    have act := fabGate_of_ready (dest := some (recD r)) (heavy := true) noWait ready mallet
    rw [row, bodyPermx]
    simp only [show s.wantErr pc { ref := { id := (ref3lo r).id, bySlot := false, slot := 0 }, kinds := [7], width := none } = none
      from globOk, Option.isNone_none, Bool.true_and, if_true, true_and]
    rw [State.tileClean.judged (r := r) ⟨noWait, ?_, noShape⟩]
    · rw [show s.tileWait pc c (some (recD r)) (if kp then [recSa r, recSb r] else [recSa r]) = none from noWait]
      simp only [Option.isNone_none, and_true, if_true,
        show s.firstRouteErr pc
          [{ ref := { id := glXmap (s.tableRoute (ref3lo r).id), bySlot := false, slot := 0 }, kinds := [6], width := none }] = none
          from xmapOk,
        show ((s.joins (ref3lo r).id l.lc).isNone && decide (4 ≤ (s.routes.colls.filter (fun e => !e.2.closed)).length)) = false
          from free, Bool.false_eq_true, if_false]
      rw [act]
    · simpa [lowestErr_cons, lowestErr_nil] using And.intro named member

end Sys2Proof.Machine
end

section
/-! PROOFS. The staging-sourced commands (O37): ILV, DIL, REMAP and WIN are `stagedCommand` with their own sequence. -/

namespace Sys2Proof.Machine

section
variable {s u : State} {pc : Nat} {c : Ctx} {l : ListRef} {r : List Word} {errs : List (Bool × Nat)} {shapes : List (Bool × Nat × Nat)}
  {srcs : List Nat} {wants : List Want} {got : List (Route × Kinds)} {gen : State → List Src}

/-- Whether a source of D lies outside staging. -/
def outsideStaging (r : List Word) (d : Desc) (xs : List Src) : Bool :=
  xs.any (fun x => match x with | .elem i => stOut d.ty (stSrc r) i | _ => false)

/-- The register that sources of staging make, and its failed checks. -/
def stagedTile (u : State) (pc : Nat) (p : Bool) (d : Desc) (r : List Word) (srcs : List Nat) (fill : Nat) (xs : List Src) : Tile × Fails :=
  let es := xs.map (fun x => stElem (u.core pc).staging d.ty (stSrc r) fill x)
  let ks := (srcs.map (fun g => ((u.core pc).tile g).kinds)).foldl (· ||| ·) (if es.any (fun e => e.2) then kEcc else 0)
  (buildTile p d (es.map (fun e => e.1)) [] (es.map (fun e => e.2)) ks 0).checked p d (u.core pc).injLane

/-- A staging-sourced command with its routes at hand, whose regions are free: command error 7, or a launch. -/
theorem stagedCommand_of_clean (fill : Nat) (shape : shapeOk (s.core pc).part (descD (s.core pc).part r) = true)
    (clean : s.tileClean pc c (some (recD r)) srcs
      ((decide ((descD (s.core pc).part r).ty ≠ tyPW4 ∧ stSrc r % tySize (descD (s.core pc).part r).ty ≠ 0), 8) :: errs)
      ((badOperand (s.core pc).part (recD r) (descD (s.core pc).part r), 0, (descD (s.core pc).part r).ty) :: shapes))
    (free : (s.core pc).regionBusy c (stRegions (descD (s.core pc).part r).ty (stSrc r) (gen s)) [] = false)
    (ready : s.routesReady pc wants got u) :
    stagedCommand pc c l r errs shapes srcs wants fill gen s
      = if outsideStaging r (descD (s.core pc).part r) (gen u) then u.cmdError pc c r 7
        else
          let x := stagedTile u pc (s.core pc).part (descD (s.core pc).part r) r srcs fill (gen u)
          let t := u.fabDone pc (slicesOf (descD (s.core pc).part r)) [] x.2
          (t.setCore pc ((t.core pc).addStall 14 (stExtra (descD (s.core pc).part r) (stSrc r) (gen u)))).launch pc c l r
            (some (recD r)) srcs (stRegions (descD (s.core pc).part r).ty (stSrc r) (gen s)) [] none x.1 CvtStats.zero .done := by
  simp only [stagedCommand, shape, if_true, free, Bool.false_eq_true, if_false]
  rw [clean.judged, if_neg (ne_true_of_eq_false free), fabGate_of_ready clean.1 ready State.malletFor_light]
  rfl

end

/-- Settles O37: each of the four rows is `stagedCommand_of_clean` with its sequence. -/
theorem stagingSourcedCommandsLaunch : Obligations.StagingSourcedCommandsLaunch := by
  intro s pc c l r got u p d il dl rm h w kh kw sy sx py px wn clean outcome
  have settles {opc : Nat} {errs : List (Bool × Nat)} {shapes : List (Bool × Nat × Nat)} {srcs : List Nat} {wants : List Want}
      {fill : Nat} {gen : State → List Src} {body : Nat → Ctx → ListRef → List Word → State → State}
      (is : body pc c l r s = stagedCommand pc c l r errs shapes srcs wants fill gen s) (h : clean opc errs shapes srcs wants gen) :
      outcome srcs fill gen (issueRow opc body pc c s) := by
    obtain ⟨at_, shape, tile, free, ready⟩ := h
    rw [issueRow_of_atIssue at_ body, is, stagedCommand_of_clean fill shape tile free ready]
    refine ⟨fun outside => ?_, fun inside => ?_⟩
    · rw [if_pos (show outsideStaging r d (gen u) = true from outside)]
    · rw [if_neg (ne_true_of_eq_false (show outsideStaging r d (gen u) = false from inside))]
      rfl
  exact ⟨settles (body := bodyIlv) rfl, settles (body := bodyDil) rfl, settles (body := bodyRemap) rfl, fun h => settles (body := bodyWin) (gen := fun _ => wn) rfl h⟩

end Sys2Proof.Machine
end

section
/-! PROOFS. Rounding (R141, R142, R162) and the narrow weight codes (R145, R146). -/

namespace Sys2Proof.Machine

/-- The signed numerator that `roundQ` divides. -/
def signedNum (neg : Bool) (n : Nat) : Int := if neg then -(n : Int) else n

/-- What is left below the quotient is a number below the denominator. -/
theorem rem_toNat (x : Int) {d : Nat} (pos : 0 < d) : ((x % d).toNat : Int) = x - d * (x / d) ∧ (x % d).toNat < d := by
  have nonneg := Int.emod_nonneg x (b := d) (by omega)
  have below := Int.emod_lt_of_pos x (b := d) (by omega)
  have split := Int.mul_ediv_add_emod x d
  omega

/-- Half to even takes the quotient or the next integer: the nearer one, and at a tie the even one. -/
theorem roundQ_none_cases (neg : Bool) (n d : Nat) :
    (2 * (signedNum neg n % d).toNat < d ∧ roundQ none neg n d = signedNum neg n / d)
      ∨ (d < 2 * (signedNum neg n % d).toNat ∧ roundQ none neg n d = signedNum neg n / d + 1)
      ∨ (2 * (signedNum neg n % d).toNat = d ∧ roundQ none neg n d % 2 = 0
        ∧ (roundQ none neg n d = signedNum neg n / d ∨ roundQ none neg n d = signedNum neg n / d + 1)) := by
  have round : roundQ none neg n d = if 2 * (signedNum neg n % d).toNat < d then signedNum neg n / d
      else if d < 2 * (signedNum neg n % d).toNat then signedNum neg n / d + 1
      else if signedNum neg n / d % 2 = 0 then signedNum neg n / d else signedNum neg n / d + 1 := rfl
  rw [round]
  split_ifs <;> omega

/-- R141: the nearest integer, and at a tie the even one. -/
theorem roundQ_none_nearest (neg : Bool) (n : Nat) {d : Nat} (pos : 0 < d) :
    2 * ((d : Int) * roundQ none neg n d - signedNum neg n).natAbs ≤ d
      ∧ (2 * ((d : Int) * roundQ none neg n d - signedNum neg n).natAbs = d → roundQ none neg n d % 2 = 0) := by
  obtain ⟨rem, below⟩ := rem_toNat (signedNum neg n) pos
  have cases_ := roundQ_none_cases neg n d
  have up : (d : Int) * (signedNum neg n / d + 1) = d * (signedNum neg n / d) + d := by ring
  have off : (d : Int) * roundQ none neg n d - signedNum neg n = -((signedNum neg n % d).toNat : Int)
        ∧ roundQ none neg n d = signedNum neg n / d
      ∨ (d : Int) * roundQ none neg n d - signedNum neg n = d - ((signedNum neg n % d).toNat : Int)
        ∧ roundQ none neg n d = signedNum neg n / d + 1 := by
    obtain q | q : roundQ none neg n d = signedNum neg n / d ∨ roundQ none neg n d = signedNum neg n / d + 1 := by omega
    · exact .inl ⟨by rw [q, rem]; ring, q⟩
    · exact .inr ⟨by rw [q, up, rem]; ring, q⟩
  generalize (signedNum neg n % d).toNat = f at *
  obtain ⟨off, q⟩ | ⟨off, q⟩ := off
  · rw [off, Int.natAbs_neg, Int.natAbs_natCast]
    omega
  · rw [off, show ((d : Int) - f).natAbs = d - f by omega]
    omega

theorem roundQ_le_zero (n : Nat) {d : Nat} (pos : 0 < d) : roundQ none true n d ≤ 0 := by
  obtain ⟨near, -⟩ := roundQ_none_nearest true n pos
  simp only [signedNum, if_true] at near
  by_contra positive
  have : (d : Int) * 1 ≤ d * roundQ none true n d := Int.mul_le_mul_of_nonneg_left (by omega) (by omega)
  omega

theorem roundQ_nonneg (n : Nat) {d : Nat} (pos : 0 < d) : 0 ≤ roundQ none false n d := by
  obtain ⟨near, -⟩ := roundQ_none_nearest false n pos
  simp only [signedNum, Bool.false_eq_true, if_false] at near
  by_contra negative
  have : (d : Int) * roundQ none false n d ≤ d * (-1) := Int.mul_le_mul_of_nonneg_left (by omega) (by omega)
  omega

/-- From half a step above the high end on, the nearest integer is not below it. -/
theorem le_roundQ {hi : Int} {n d : Nat} (pos : 0 < d) (edge : (2 * hi + 1) * d ≤ 2 * n) : hi ≤ roundQ none false n d := by
  obtain ⟨near, -⟩ := roundQ_none_nearest false n pos
  simp only [signedNum, Bool.false_eq_true, if_false] at near
  refine Int.le_of_mul_le_mul_left (a := d) ?_ (by omega)
  have spread : (2 * hi + 1) * d = 2 * (d * hi) + d := by ring
  omega

/-- Past half a step below the low end, or at it where the low end is odd, the nearest integer is not above it. -/
theorem roundQ_le {lo : Int} {n d : Nat} (pos : 0 < d)
    (edge : (1 - 2 * lo) * d < 2 * n ∨ (2 * (n : Int) = (1 - 2 * lo) * d ∧ lo % 2 ≠ 0)) : roundQ none true n d ≤ lo := by
  obtain ⟨near, tie⟩ := roundQ_none_nearest true n pos
  simp only [signedNum, if_true] at near tie
  by_contra above
  have step : (d : Int) * (lo + 1) ≤ d * roundQ none true n d := Int.mul_le_mul_of_nonneg_left (by omega) (by omega)
  have spread : (1 - 2 * lo) * d = d - 2 * (d * lo) := by ring
  have next : (d : Int) * (lo + 1) = d * lo + d := by ring
  omega

/-- R142: rounding into integers saturates at the ends. -/
theorem toInt_none {lo hi : Int} (neg : Bool) (n : Nat) {d : Nat} (pos : 0 < d) (low : lo ≤ 0) (high : 0 ≤ hi) :
    (toInt lo hi none (.num neg n d)).1 = max lo (min hi (roundQ none neg n d)) := by
  cases neg with
  | true =>
    have sign := roundQ_le_zero n pos
    simp only [toInt, if_true]
    split_ifs with edge
    · have := roundQ_le pos edge
      omega
    · dsimp only
      omega
  | false =>
    have sign := roundQ_nonneg n pos
    simp only [toInt, Bool.false_eq_true, if_false]
    split_ifs with edge
    · have := le_roundQ pos edge
      dsimp only
      omega
    · dsimp only
      omega

/-- R162: a draw leaves an exact quotient as it is. -/
theorem roundQ_of_exact (k : Nat) (neg : Bool) {n d : Nat} (pos : 0 < d) (exact_ : n % d = 0) :
    roundQ (some k) neg n d = roundQ none neg n d := by
  have divides : (d : Int) ∣ n := Int.natCast_dvd_natCast.mpr (Nat.dvd_of_mod_eq_zero exact_)
  have rem : (if neg then -(n : Int) else (n : Int)) % d = 0 := by
    cases neg
    · exact Int.emod_eq_zero_of_dvd divides
    · exact Int.emod_eq_zero_of_dvd (Int.dvd_neg.mpr divides)
  simp only [roundQ, rem, Int.toNat_zero, Nat.mul_zero, Nat.zero_div, Nat.not_lt_zero, if_false, if_pos pos]

theorem toPw8_pw8Val : ∀ c, c < 256 → c ≠ 0x80 → toPw8 none (pw8Val c) = (c, false) := by decide +kernel

theorem toPw4_pw4Val : ∀ c, c < 16 → c ≠ 8 → toPw4 none (pw4Val c) = (c, false) := by decide

/-- Settles O38: the nearest integer bounds the saturated one; the narrow codes are a finite check. -/
theorem roundingIsToNearestEven : Obligations.RoundingIsToNearestEven :=
  ⟨fun neg n _ pos => roundQ_none_nearest neg n pos, fun _ _ neg n _ pos low high => toInt_none neg n pos low high,
    fun k neg _ _ pos exact_ => roundQ_of_exact k neg pos exact_, toPw8_pw8Val, toPw4_pw4Val⟩

end Sys2Proof.Machine
end

section
/-! PROOFS. Served accesses of the gong unit, the counter clears and the core banks (O6 to O8): each row is one operation of its unit
on the state whose port granted the access (R287). -/

namespace Sys2Proof.Machine

/-- A served access in terms of the state it makes. -/
theorem exec_served_as {c : Instr} {s : State} {off : Nat} {w : Bool} {t : State} {r : Resp} (at_ : accessAt c = some (off, w))
    (served : s.serves off = true) (free : s.accessReserved c = false) (named : valued c = true)
    (applied : applyAccess c (s.granted off) = (t, r)) : exec c s = .next (settle s (t.respond r)) := by
  rw [exec_served c s off w at_ served free named, applied]

/-- Settles O6: each row is the operation of the gong unit that it names. -/
theorem gongControlWrites : Obligations.GongControlWrites := by
  intro s
  refine ⟨fun served => ⟨?_, ?_, fun m => ?_⟩, fun served ty => ?_⟩
  · refine exec_served_as rfl served rfl rfl ?_
    cases en : s.gong.en
    · simp only [applied_gongEnable, State.gongOn, State.setGongEn, State.granted_gong, en]
      rfl
    · simp [State.gongOn, State.setGongEn, en]
  · refine exec_served_as rfl served rfl rfl ?_
    cases en : s.gong.en
    · simp [State.gongOff, State.setGongEn, en]
    · simp only [applied_gongDisable, State.gongOff, State.setGongEn, State.granted_gong, en]
      rfl
  · exact exec_served_as rfl served rfl rfl rfl
  · refine exec_served_as rfl served rfl rfl ?_
    have value : BitVec.ofNat 32 ty.toNat = ty.setWidth 32 := by simp
    simp only [applied_gongTypeOvrArm, State.overrideArm, value]
    rfl

/-- Settles O7: each row clears the counters of its unit. -/
theorem counterClears : Obligations.CounterClears := by
  intro s
  refine ⟨fun served => ⟨exec_served_as rfl served rfl rfl rfl, exec_served_as rfl served rfl rfl rfl⟩,
    fun served => exec_served_as rfl served rfl rfl rfl, fun pc core => ⟨fun served => ?_, fun served => ?_, fun served => ?_, fun served => ?_⟩⟩
  · exact exec_served_as rfl served rfl rfl (by rw [applied_trfCntClr, hasCore_granted, if_pos core]; rfl)
  · exact exec_served_as rfl served rfl rfl (by rw [applied_fabCntClr, hasCore_granted, if_pos core]; rfl)
  · exact exec_served_as rfl served rfl rfl (by rw [applied_cvtCntClr, hasCore_granted, if_pos core]; rfl)
  · exact exec_served_as rfl served rfl rfl (by rw [applied_stallCntClr, hasCore_granted, if_pos core]; rfl)

/-- Settles O8: TRF_PART, CVT_LFSR and HIST_CFG.CLR change their core or histogram alone. -/
theorem coreBankWrites : Obligations.CoreBankWrites := by
  intro s pc core
  refine ⟨fun served p => ⟨fun same => ?_, fun other => ?_⟩, fun served v => ?_, fun lc h lcLt hLt served => ?_⟩
  · refine exec_served_as rfl served rfl rfl ?_
    rw [applied_trfPartWrite, hasCore_granted, if_pos core, State.partWrite, State.onCore, Core.partWrite, core_granted, if_pos same.symm]
  · refine ⟨_, exec_served_as rfl served rfl rfl (by rw [applied_trfPartWrite, hasCore_granted, if_pos core, State.partWrite]), ?_⟩
    have waits : (s.core pc).partWrite p
        = { s.core pc with partPend := some p, drain := if (s.core pc).partPend.isSome then (s.core pc).drain else 0 } :=
      if_neg fun h => other h.symm
    simp +contextual [waits]
  · refine exec_served_as rfl served rfl rfl ?_
    rw [applied_cvtLfsrWrite, hasCore_granted, if_pos core]
    rfl
  · refine exec_served_as (w := true) (by
      change some (0x41000 + 0x80 * (lc % 16) + 8 * (h % 16), true) = _
      rw [Nat.mod_eq_of_lt lcLt, Nat.mod_eq_of_lt hLt]) served rfl rfl ?_
    rw [applied_histClr, Nat.mod_eq_of_lt lcLt, Nat.mod_eq_of_lt hLt]
    rfl

end Sys2Proof.Machine
end

section
/-! PROOFS. Served writes of agreement pairs (O10), of the route table and directories (O11), of sync objects (O12) and of the pool
window (O13). -/

namespace Sys2Proof.Machine

/-! ### Agreement pairs -/

/-- What a write to a pair leaves unchanged. -/
structure State.PairFrame (s t : State) : Prop where
  gong : t.gong = s.gong
  lcs : t.lcs = s.lcs
  cores : t.cores = s.cores
  regs : t.regs = s.regs

theorem State.pairFrame_setPair (s : State) (i : PairId) (x : PairLatch) : s.PairFrame (s.setPair i x) := ⟨rfl, rfl, rfl, rfl⟩

theorem mod_pairWidth {i : PairId} {h : Half} {v : Word} (fits : v.toNat < 2 ^ pairWidth i h) : v.toNat % 2 ^ pairWidth i h = v.toNat :=
  Nat.mod_eq_of_lt fits

/-- R227: the written half is pending, the other one stays. -/
theorem State.pairWrite_a {s : State} {i : PairId} {v : Word} (fits : v.toNat < 2 ^ pairWidth i .a) :
    ((s.pairWrite i .a v.toNat).pair i).a = some v.toNat ∧ ((s.pairWrite i .a v.toNat).pair i).b = (s.pair i).b := by
  simp only [State.pairWrite, pair_setPair, if_true, mod_pairWidth fits]
  split <;> exact ⟨rfl, rfl⟩

theorem State.pairWrite_b {s : State} {i : PairId} {v : Word} (fits : v.toNat < 2 ^ pairWidth i .b) :
    ((s.pairWrite i .b v.toNat).pair i).b = some v.toNat ∧ ((s.pairWrite i .b v.toNat).pair i).a = (s.pair i).a := by
  simp only [State.pairWrite, pair_setPair, if_true, mod_pairWidth fits]
  split <;> exact ⟨rfl, rfl⟩

theorem State.pairWrite_others (s : State) (i : PairId) (h : Half) (v : Nat) {j : PairId} (other : j ≠ i) :
    (s.pairWrite i h v).pair j = s.pair j := by
  simp only [State.pairWrite, pair_setPair, if_neg other]

/-- The served row of a half is `pairWrite`. -/
theorem exec_pairHalfWrite {s : State} {i : PairId} {h : Half} {v : Word} (has : s.hasPair i = true) (fits : v.toNat < 2 ^ pairWidth i h)
    (served : s.serves (pairOff i h) = true) :
    exec (.pairHalfWrite i h v) s = .next (settle s (((s.granted (pairOff i h)).pairWrite i h v.toNat).respond .ok)) := by
  refine exec_served_as rfl served ?_ rfl ?_
  · simp [State.accessReserved, Nat.not_le.mpr fits]
  · rw [applied_pairHalfWrite, hasPair_granted, if_pos has]

/-- A number that a map lists nowhere reads its default. -/
theorem SMap.exists_of_get_ne {α : Type} {m : SMap α} {d : α} {k : Nat} (ne : SMap.get m d k ≠ d) : ∃ e ∈ m, e.1 = k := by
  induction m with
  | nil => exact absurd rfl ne
  | cons e m ih =>
    by_cases here : e.1 = k
    · exact ⟨e, List.mem_cons_self, here⟩
    · obtain ⟨x, mem, key⟩ := ih (by simpa [SMap.get, here] using ne)
      exact ⟨x, List.mem_cons_of_mem _ mem, key⟩

theorem State.mem_openPairs {s : State} {i : PairId} (ne : s.pair i ≠ .closed) : i ∈ s.openPairs := by
  cases i with
  | gong => simp [State.openPairs, show s.cfg.pairGong ≠ .closed from ne]
  | admission => simp [State.openPairs, show s.cfg.pairAdmit ≠ .closed from ne]
  | partition p => obtain ⟨e, mem, rfl⟩ := SMap.exists_of_get_ne ne; simpa [State.openPairs] using ⟨_, mem⟩
  | queue q => obtain ⟨e, mem, rfl⟩ := SMap.exists_of_get_ne ne; simpa [State.openPairs] using ⟨_, mem⟩
  | peal g => obtain ⟨e, mem, rfl⟩ := SMap.exists_of_get_ne ne; simpa [State.openPairs] using ⟨_, mem⟩
  | region n => obtain ⟨e, mem, rfl⟩ := SMap.exists_of_get_ne ne; simpa [State.openPairs] using ⟨_, mem⟩

/-- One pair dropped if it is OPEN. -/
def State.dropOne (s : State) (i : PairId) : State := if (s.pair i).open_ then s.setPair i .closed else s

theorem State.pair_dropOne (s : State) (i j : PairId) :
    (s.dropOne i).pair j = if j = i ∧ (s.pair j).open_ = true then .closed else s.pair j := by
  unfold State.dropOne
  by_cases here : j = i
  · subst here
    cases o : (s.pair j).open_ <;> simp
  · cases o : (s.pair i).open_ <;> simp [here]

theorem PairLatch.open_closed : PairLatch.closed.open_ = false := rfl

theorem State.pair_dropAll (is : List PairId) (s : State) (j : PairId) :
    (is.foldl State.dropOne s).pair j = if j ∈ is ∧ (s.pair j).open_ = true then .closed else s.pair j := by
  induction is generalizing s with
  | nil => simp
  | cons i is ih =>
    rw [List.foldl_cons, ih, State.pair_dropOne]
    by_cases here : j = i
    · subst here
      cases o : (s.pair j).open_ <;> simp [o, PairLatch.open_closed]
    · simp [here]

theorem State.pairFrame_dropAll (is : List PairId) (s : State) : s.PairFrame (is.foldl State.dropOne s) := by
  induction is generalizing s with
  | nil => exact ⟨rfl, rfl, rfl, rfl⟩
  | cons i is ih =>
    have one : s.PairFrame (s.dropOne i) := by
      unfold State.dropOne
      split
      · exact s.pairFrame_setPair i .closed
      · exact ⟨rfl, rfl, rfl, rfl⟩
    have rest := ih (s.dropOne i)
    exact ⟨rest.gong.trans one.gong, rest.lcs.trans one.lcs, rest.cores.trans one.cores, rest.regs.trans one.regs⟩

/-- R227: PAIR_DROP closes the OPEN pairs and no other. -/
theorem State.pair_pairDrop (s : State) (i : PairId) : s.pairDrop.pair i = if (s.pair i).open_ then .closed else s.pair i := by
  refine (State.pair_dropAll s.openPairs s i).trans ?_
  by_cases o : (s.pair i).open_ = true
  · have listed : i ∈ s.openPairs := State.mem_openPairs fun closed => by simp [closed, PairLatch.open_closed] at o
    rw [if_pos ⟨listed, o⟩, if_pos o]
  · rw [if_neg fun h => o h.2, if_neg o]

/-- Settles O10: a half is written by `pairWrite`, and PAIR_DROP closes what `openPairs` lists as OPEN. -/
theorem pairHalvesWaitForEachOther : Obligations.PairHalvesWaitForEachOther := by
  intro s
  refine ⟨fun i v has fits served => ⟨_, exec_pairHalfWrite has fits served, ?_⟩,
    fun i v has fits served => ⟨_, exec_pairHalfWrite has fits served, ?_⟩, fun served => ⟨_, exec_served_as rfl served rfl rfl rfl, ?_⟩⟩
  · obtain ⟨a, b⟩ := State.pairWrite_a (s := s.granted (pairOff i .a)) fits
    simp only [pair_settle, pair_respond, settle_gong, settle_lcs, settle_cores, settle_regs]
    exact ⟨a, b.trans (by simp), fun j other => by rw [State.pairWrite_others _ _ _ _ other, pair_granted], rfl, rfl, rfl, rfl⟩
  · obtain ⟨b, a⟩ := State.pairWrite_b (s := s.granted (pairOff i .b)) fits
    simp only [pair_settle, pair_respond, settle_gong, settle_lcs, settle_cores, settle_regs]
    exact ⟨b, a.trans (by simp), fun j other => by rw [State.pairWrite_others _ _ _ _ other, pair_granted], rfl, rfl, rfl, rfl⟩
  · have frame := State.pairFrame_dropAll (s.granted 0x4000C).openPairs (s.granted 0x4000C)
    simp only [pair_settle, pair_respond, settle_gong, settle_lcs, settle_cores, settle_regs]
    exact ⟨fun i => by rw [State.pair_pairDrop, pair_granted], frame.gong, frame.lcs, frame.cores, frame.regs⟩

end Sys2Proof.Machine
end

section
/-! PROOFS. Served writes of the route table and the directories (O11), of sync objects (O12), and accesses of the pool window (O13). -/

namespace Sys2Proof.Machine

@[simp] theorem State.hcp_respond (s : State) (r : Resp) : (s.respond r).hcp = { s.hcp with resp := r } := rfl

/-! ### The route table and the directories -/

/-- Settles O11: a write into a live group is counted and answered, any other stores its bytes. -/
theorem routeTableAndDirectoryWrites : Obligations.RouteTableAndDirectoryWrites := by
  intro s
  refine ⟨fun off v strb lt served => ⟨fun live => ?_, fun free => ?_⟩, fun off v strb lt served => ?_, fun served => ⟨?_, ?_⟩⟩
  · refine ⟨_, exec_served_as (w := true) (congrArg (fun k => some (0xC00000 + k, true)) (Nat.mod_eq_of_lt lt)) served rfl rfl
      (by rw [applied_routeTableWrite, Nat.mod_eq_of_lt lt, State.tableWrite, groupLive_granted, if_pos live]), ?_, ?_⟩
    · simp [satAdd, max16]
    · simp
  · refine exec_served_as (w := true) (congrArg (fun k => some (0xC00000 + k, true)) (Nat.mod_eq_of_lt lt)) served rfl rfl ?_
    rw [applied_routeTableWrite, Nat.mod_eq_of_lt lt, State.tableWrite, groupLive_granted, if_neg (ne_true_of_eq_false free)]
    rfl
  · refine exec_served_as (w := true) (congrArg (fun k => some (0x808000 + k, true)) (Nat.mod_eq_of_lt lt)) served rfl rfl ?_
    rw [applied_shadowDirWrite, Nat.mod_eq_of_lt lt]
    rfl
  · exact exec_served_as rfl served rfl rfl rfl
  · exact exec_served_as rfl served rfl rfl rfl

/-! ### Sync objects -/

theorem State.soWrite_whole (s : State) (n : Nat) (add : Bool) (v : Word) :
    s.soWrite n add v 0xF = (s.setCount n (if add then (s.sync n).count + v else v) 0x1F 0 (!add), .ok) := rfl

theorem State.soWrite_partial (s : State) (n : Nat) (add : Bool) (v : Word) {strb : BitVec 4} (gap : strb ≠ 0xF) :
    s.soWrite n add v strb = (s, if strb = 0 then .ok else .dataErr) := if_neg gap

theorem State.soWrite_resp (s : State) (n : Nat) (add : Bool) (v : Word) (strb : BitVec 4) :
    (s.soWrite n add v strb).2 = if strb = 0xF ∨ strb = 0 then .ok else .dataErr := by
  by_cases whole : strb = 0xF
  · subst whole
    rfl
  · rw [State.soWrite_partial s n add v whole]
    simp only [whole, false_or]

theorem inBank_sync {n : Nat} (lt : n < 32768) : inBank (0x400000 + 16 * n) = false := by
  simp only [inBank, Bool.or_eq_false_iff, decide_eq_false_iff_not]
  omega

/-- A 64-bit write to a sync object writes SO_COUNT, then SO_ADD. -/
theorem State.regWrite_sync (s : State) {n : Nat} (lt : n < 32768) (d : DWord) (m : BitVec 8) :
    s.regWrite (0x400000 + 16 * n) d m
      = let x := s.soWrite n false (d.setWidth 32) (m.setWidth 4)
        let y := x.1.soWrite n true ((d >>> 32).setWidth 32) ((m >>> 4).setWidth 4)
        (y.1, if x.2 = .ok then y.2 else x.2) := by
  have below : 0x400000 + 16 * n < 0x480000 := by omega
  have aligned : (0x400000 + 16 * n) / 8 * 8 = 0x400000 + 16 * n := by omega
  have low (v : Word) (strb : BitVec 4) (s : State) : s.soHalf (0x400000 + 16 * n) v strb = s.soWrite n false v strb := by
    have index : (0x400000 + 16 * n - 0x400000) / 16 = n := by omega
    have field : (0x400000 + 16 * n) % 16 / 4 = 0 := by omega
    simp only [State.soHalf, index, field]
  have high (v : Word) (strb : BitVec 4) (s : State) : s.soHalf (0x400000 + 16 * n + 4) v strb = s.soWrite n true v strb := by
    have index : (0x400000 + 16 * n + 4 - 0x400000) / 16 = n := by omega
    have field : (0x400000 + 16 * n + 4) % 16 / 4 = 1 := by omega
    simp only [State.soHalf, index, field]
  simp only [State.regWrite, inBank_sync lt, Bool.false_eq_true, if_false, if_pos below, beatHalves, aligned, List.foldl_cons, List.foldl_nil,
    low, high, if_true]

theorem accessReserved_sync {s : State} {n : Nat} (lt : n < 32768) (d : DWord) (m : BitVec 8) :
    s.accessReserved (.registerWrite (0x400000 + 16 * n) d m) = false := by
  simp only [State.accessReserved, inBank_sync lt, Bool.false_and]

theorem strobes_low : ∀ m : BitVec 8, (m.setWidth 4 = 0xF ∨ m.setWidth 4 = 0) ↔ (m &&& 0x0F = 0 ∨ m &&& 0x0F = 0x0F) := by decide

theorem strobes_high : ∀ m : BitVec 8, (m >>> 4 &&& 0x0F = 0 ∨ m >>> 4 &&& 0x0F = 0x0F) ↔ (m &&& 0xF0 = 0 ∨ m &&& 0xF0 = 0xF0) := by
  decide

/-- The answer of two halves: DATA_ERR where either is refused. -/
theorem resp_of_halves (low high : Prop) [Decidable low] [Decidable high] :
    (if (if low then Resp.ok else Resp.dataErr) = Resp.ok then (if high then Resp.ok else Resp.dataErr)
      else if low then Resp.ok else Resp.dataErr) = Resp.dataErr ↔ ¬(low ∧ high) := by
  by_cases low <;> by_cases high <;> simp [*]

/-- Settles O12: whole words are `setCount`, partial ones nothing, and 64-bit writes are two halves. -/
theorem syncObjectWrites : Obligations.SyncObjectWrites := by
  intro s n v strb lt
  have index : n % 32768 = n := Nat.mod_eq_of_lt lt
  refine ⟨fun served => ⟨?_, fun gap => ?_⟩, fun served => ⟨?_, fun gap => ?_⟩, fun served d m => ⟨?_, ?_⟩⟩
  · rintro rfl
    refine ⟨_, exec_served_as (w := true) (congrArg (fun k => some (0x400000 + 16 * k, true)) index) served rfl rfl
      (by rw [applied_soCountWrite, index, State.soWrite_whole]), ?_⟩
    obtain ⟨sync, cores, -, -, lcs, hcp⟩ := (s.granted (0x400000 + 16 * n)).setCount_eq n v 0x1F 0 true
    simp only [Bool.false_eq_true, if_false, Bool.not_false]
    exact ⟨by simp [sync], fun m other => by simp [sync, other], by simp [cores], by simp [lcs], by simp [hcp]⟩
  · refine exec_served_as (w := true) (congrArg (fun k => some (0x400000 + 16 * k, true)) index) served rfl rfl ?_
    rw [applied_soCountWrite, State.soWrite_partial _ _ _ _ gap]
  · rintro rfl
    refine ⟨_, exec_served_as (w := true) (congrArg (fun k => some (0x400004 + 16 * k, true)) index) served rfl rfl
      (by rw [applied_soAddWrite, index, State.soWrite_whole]), ?_⟩
    obtain ⟨sync, cores, -, -, lcs, hcp⟩ := (s.granted (0x400004 + 16 * n)).setCount_eq n ((s.sync n).count + v) 0x1F 0 false
    simp only [if_true, Bool.not_true, sync_granted]
    exact ⟨by simp [sync], fun m other => by simp [sync, other], by simp [cores], by simp [lcs], by simp [hcp]⟩
  · refine exec_served_as (w := true) (congrArg (fun k => some (0x400004 + 16 * k, true)) index) served rfl rfl ?_
    rw [applied_soAddWrite, State.soWrite_partial _ _ _ _ gap]
  · refine ⟨_, exec_served_as (w := true) rfl served (accessReserved_sync lt d 0xFF) rfl
      (by rw [applied_registerWrite, State.regWrite_sync _ lt]), ?_⟩
    have strobes : (0xFF : BitVec 8).setWidth 4 = 0xF ∧ ((0xFF : BitVec 8) >>> 4).setWidth 4 = 0xF := by decide
    simp only [strobes, State.soWrite_whole]
    obtain ⟨sync, -, -, -, -, hcp⟩ := (s.granted (0x400000 + 16 * n)).setCount_eq n (d.setWidth 32) 0x1F 0 true
    obtain ⟨sync', -, -, -, -, hcp'⟩ := ((s.granted (0x400000 + 16 * n)).setCount n (d.setWidth 32) 0x1F 0 true).setCount_eq n
      (d.setWidth 32 + (d >>> 32).setWidth 32) 0x1F 0 false
    simp only [Bool.false_eq_true, if_false, if_true, Bool.not_false, Bool.not_true, sync_settle, sync_respond, sync, sync', settle_hcp,
      State.hcp_respond, hcp', hcp, State.granted_hcp, true_and, and_true]
    exact fun k other => by rw [if_neg other, if_neg other, sync_granted]
  · refine ⟨_, exec_served_as (w := true) rfl served (accessReserved_sync lt d m) rfl (by rw [applied_registerWrite, State.regWrite_sync _ lt]), ?_⟩
    simp only [settle_hcp, State.hcp_respond, State.soWrite_resp, strobes_low, strobes_high]
    exact resp_of_halves _ _

/-! ### The pool window -/

/-- The strobed bytes of a run stand in memory from its first address on. -/
theorem Memory.byte_put_strobed (bs : List Byte) (strb a k : Nat) (m : Memory) (x : Nat) :
    (((indexed k bs).filter (fun e => strb.testBit e.1)).foldl (fun m e => m.put (a + e.1) [e.2]) m).byte x
      = if a + k ≤ x ∧ x < a + k + bs.length ∧ strb.testBit (x - a) = true then bs.getD (x - a - k) 0 else m.byte x := by
  induction bs generalizing k m with
  | nil => simp only [indexed, List.filter_nil, List.foldl_nil, List.length_nil]; rw [if_neg (by omega)]
  | cons b bs ih =>
    have first : ∀ m' : Memory, m' = (if strb.testBit k then m.put (a + k) [b] else m) →
        m'.byte x = if x = a + k ∧ strb.testBit (x - a) = true then b else m.byte x := by
      rintro _ rfl
      by_cases here : x = a + k
      · subst here
        cases bit : strb.testBit k <;> simp [Memory.byte_put, bit]
      · cases strb.testBit k <;> simp [Memory.byte_put, here]; omega
    have rest : ((indexed k (b :: bs)).filter (fun e => strb.testBit e.1)).foldl (fun m e => m.put (a + e.1) [e.2]) m
        = ((indexed (k + 1) bs).filter (fun e => strb.testBit e.1)).foldl (fun m e => m.put (a + e.1) [e.2])
          (if strb.testBit k then m.put (a + k) [b] else m) := by
      cases bit : strb.testBit k <;> simp [indexed, bit]
    rw [rest, ih, first _ rfl]
    by_cases here : x = a + k
    · subst here
      simp
    · have index (past : a + k < x) : (b :: bs).getD (x - a - k) 0 = bs.getD (x - a - (k + 1)) 0 := by
        rw [show x - a - k = x - a - (k + 1) + 1 by omega, List.getD_cons_succ]
      simp only [here, false_and, if_false, List.length_cons]
      by_cases past : a + k < x
      · rw [index past]
        congr 1
        simp only [eq_iff_iff]
        constructor <;> rintro ⟨low, high, bit⟩ <;> exact ⟨by omega, by omega, bit⟩
      · rw [if_neg (by omega), if_neg (by omega)]

/-- What a strobed store leaves at each address. -/
theorem Memory.byte_putStrobed (m : Memory) (a : Nat) (bs : List Byte) (strb x : Nat) :
    (m.putStrobed a bs strb).byte x = if a ≤ x ∧ x < a + bs.length ∧ strb.testBit (x - a) = true then bs.getD (x - a) 0 else m.byte x :=
  Memory.byte_put_strobed bs strb a 0 m x

theorem leBytes_length (n v : Nat) : (leBytes n v).length = n := by
  induction n generalizing v with
  | zero => rfl
  | succ n ih => simp [leBytes, ih]

theorem leBytes_getD {n j : Nat} (lt : j < n) (v : Nat) : (leBytes n v).getD j 0 = BitVec.ofNat 8 (v / 2 ^ (8 * j)) := by
  induction n generalizing v j with
  | zero => omega
  | succ n ih =>
    cases j with
    | zero => simp [leBytes]
    | succ j =>
      rw [leBytes, List.getD_cons_succ, ih (by omega), Nat.div_div_eq_div_mul, show 8 * (j + 1) = 8 + 8 * j by omega, Nat.pow_add]

/-- R168: a full beat stores its eight bytes and no other. -/
theorem State.poolWrite_full_beat (s : State) (a0 : Nat) {b : HcpBeat} (full : b.strb = 0xFF) (a : Nat) :
    (s.poolWrite a0 [b]).st.pool.byte a
      = if a0 ≤ a ∧ a < a0 + 8 then b.data.extractLsb' (8 * (a - a0)) 8 else s.st.pool.byte a := by
  obtain ⟨data, strb, poison⟩ := b
  obtain rfl : strb = 0xFF := full
  have ones : burstStrobes [{ data := data, strb := 0xFF, poison := poison }] = List.replicate 8 true := by
    simp only [burstStrobes, List.flatMap_cons, List.flatMap_nil, List.append_nil]
    decide
  have strobes : ((indexed 0 (List.replicate 8 true)).filter (fun e => e.2)).foldl (fun n e => n + 2 ^ e.1) 0 = 255 := by decide
  simp only [State.poolWrite, Memory.byte_mark, ones, strobes, Memory.byte_putStrobed, List.flatMap_cons, List.flatMap_nil, List.append_nil,
    leBytes_length]
  by_cases within : a0 ≤ a ∧ a < a0 + 8
  · have bit : Nat.testBit 255 (a - a0) = true := by
      have small : ∀ j, j < 8 → Nat.testBit 255 j = true := by decide
      exact small _ (by omega)
    rw [if_pos ⟨within.1, within.2, bit⟩, if_pos within, leBytes_getD (by omega), BitVec.extractLsb', Nat.shiftRight_eq_div_pow]
  · rw [if_neg fun h => within ⟨h.1, h.2.1⟩, if_neg within]

/-- Settles O13: reads are `poolRead`, writes `poolWrite`. -/
theorem poolWindowAccesses : Obligations.PoolWindowAccesses := by
  intro s off lt served
  have index : off % 0x1000000 = off := Nat.mod_eq_of_lt lt
  refine ⟨fun n => ?_, fun bs => ?_, fun b full a => s.poolWrite_full_beat _ full a⟩
  · refine (exec_served_as (c := .poolWindowRead off n) (w := false) (congrArg (fun k => some (0x1000000 + k, false)) index) served rfl rfl
      (by rw [applied_poolWindowRead, index])).trans ?_
    simp only [State.poolRead, List.map_map]
    rfl
  · refine exec_served_as (w := true) (congrArg (fun k => some (0x1000000 + k, true)) index) served rfl rfl ?_
    rw [applied_poolWindowWrite, index]

end Sys2Proof.Machine
end

section
/-! PROOFS. Served commands of the translation interface (O16), the power unit (O17, O18) and the safety manager (O20). -/

namespace Sys2Proof.Machine

/-! ### General facts -/

theorem SMap.get_map {α : Type} (m : SMap α) (d : α) (f : α → α) (fix : f d = d) (k : Nat) :
    SMap.get (m.map (fun e => (e.1, f e.2))) d k = f (SMap.get m d k) := by
  induction m with
  | nil => exact fix.symm
  | cons e m ih =>
    by_cases here : e.1 = k <;> simp [SMap.get, here, ih]

/-- What every step of a fold keeps, the fold keeps. -/
theorem foldl_keeps {α β : Type} (φ : State → β) (f : State → α → State) (keeps : ∀ s a, φ (f s a) = φ s) (l : List α) (s : State) :
    φ (l.foldl f s) = φ s := by
  induction l generalizing s with
  | nil => rfl
  | cons a l ih => exact (ih _).trans (keeps s a)

/-- A record changes the event plane alone. -/
theorem State.evt_eq (s : State) (kind unit : Nat) (fs : List (Nat × Nat × Nat)) : ∃ e, s.evt kind unit fs = { s with ev := e } :=
  State.acceptEvent_eq _ _ _

/-! ### Translation -/

theorem State.tlbClear_tlbs (s : State) : s.tlbClear.mp = { s.mp with tlbs := [] } := by
  simp [State.tlbClear, State.unlearn]

theorem State.core_tlbClear (s : State) (pc : Nat) : s.tlbClear.core pc = { s.core pc with slice := [] } := by
  have none_left (l : List TlbEntry) : l.filter (fun x => !(fun _ : TlbEntry => true) x) = [] := by simp
  exact (SMap.get_map s.cores Core.reset (fun k => { k with slice := k.slice.filter (fun x => !(fun _ : TlbEntry => true) x) }) rfl pc).trans
    (by simp only [none_left]; rfl)

/-- Settles O16: TLB_INV.ALL is `unlearn` of every entry. -/
theorem translationRegisterWrites : Obligations.TranslationRegisterWrites := by
  intro s
  refine ⟨fun served => ⟨_, exec_served_as rfl served rfl rfl rfl, ?_⟩, fun served p en => ⟨⟨_, exec_served_as rfl served rfl rfl rfl⟩,
    fun same => exec_served_as rfl served rfl rfl ?_⟩⟩
  · refine ⟨?_, fun pc => ?_, ?_, ?_, ?_, ?_⟩
    · rw [settle_mp]
      exact State.tlbClear_tlbs _
    · rw [core_settle]
      exact State.core_tlbClear _ pc
    all_goals simp [State.tlbClear, State.unlearn, State.respond]
  · rw [applied_xlpPasidWrite, State.pasidWrite, reg_granted, if_pos same]

/-! ### The power unit -/

theorem State.railGo_busy {s : State} (busy : s.pwr.srpBusy = true) (mv : Nat) : s.railGo mv = s := by
  simp only [State.railGo, busy, if_true]

theorem State.railGo_fit {s : State} {mv : Nat} (idle : s.pwr.srpBusy = false) (en : s.par.srpEn = true) (low : 600 ≤ mv) (high : mv ≤ 800)
    (step : mv % 5 = 0) (fit : s.railOk mv = true) :
    s.railGo mv = { s with
      pwr := { s.pwr with srpBusy := true, srpMv := mv, srpSent := 1, srpAt := s.tu.ltc }
      pins := { s.pins with srpTx := some (BitVec.ofNat 8 (mv / 5)) } } := by
  simp [State.railGo, idle, en, fit, step, Nat.not_lt.mpr low, Nat.not_lt.mpr high]

theorem State.railGo_unfit {s : State} {mv : Nat} (idle : s.pwr.srpBusy = false) (bad : s.par.srpEn = false ∨ mv < 600 ∨ 800 < mv) :
    s.railGo mv = s.srpRec 0x0707 mv := by
  have refuse : (!s.par.srpEn || decide (mv < 600) || decide (800 < mv) || decide (mv % 5 ≠ 0) || !s.railOk mv) = true := by
    obtain off | low | high := bad
    · simp [off]
    · simp [low]
    · simp [high]
  simp only [State.railGo, idle, Bool.false_eq_true, if_false, refuse, if_true]

/-- Settles O17: votes and ACK change their field, RAIL_REQ.GO is `railGo`. -/
theorem powerUnitWrites : Obligations.PowerUnitWrites := by
  intro s
  refine ⟨fun g v lt has => ?_, fun served => exec_served_as rfl served rfl rfl rfl, fun served mv => ⟨fun busy => ?_,
    fun idle en low high step fit => ?_, fun idle bad => ?_⟩⟩
  · have index : g % 8 = g := Nat.mod_eq_of_lt lt
    refine ⟨fun served => ?_, fun served => ?_⟩
    · refine exec_served_as (w := true) (congrArg (fun k => some (0x20208 + 0x10 * k, true)) index) served rfl rfl ?_
      rw [applied_rgnVoteSet, index, hasRegion_granted, if_pos has]
      rfl
    · refine exec_served_as (w := true) (congrArg (fun k => some (0x2020C + 0x10 * k, true)) index) served rfl rfl ?_
      rw [applied_rgnVoteClr, index, hasRegion_granted, if_pos has]
      rfl
  · refine exec_served_as rfl served rfl rfl ?_
    rw [applied_railReqGo, State.railGo_busy (s := (s.granted 0x20028).putLow 0x20028 0x3FF (mv.setWidth 32)) busy]
  · refine ⟨_, exec_served_as rfl served rfl rfl (by
      rw [applied_railReqGo, State.railGo_fit (s := (s.granted 0x20028).putLow 0x20028 0x3FF (mv.setWidth 32)) idle en low high step fit]), ?_⟩
    simp [State.respond, State.putLow]
  · refine ⟨_, exec_served_as rfl served rfl rfl (by
      rw [applied_railReqGo, State.railGo_unfit (s := (s.granted 0x20028).putLow 0x20028 0x3FF (mv.setWidth 32)) idle bad]), ?_⟩
    obtain ⟨e, record⟩ := ((s.granted 0x20028).putLow 0x20028 0x3FF (mv.setWidth 32)).evt_eq 0x00B3 0
      [(0, 16, 0x0707), (16, 10, mv.toNat), (26, 10, s.pwr.railMv)]
    rw [show State.srpRec _ 0x0707 mv.toNat = _ from record]
    simp [State.respond, State.putLow]

/-- R299: with every region in OFF, the block goes off. -/
theorem State.goOff_of_off {s : State} (off : ∀ g, g < 8 → s.hasRegion g = true → (s.region g).state = .off) :
    ∃ p, s.goOff = { s.lost with
      regs := s.regs.filter (fun e => decide (e.1 = 0x20014)), pwr := p, pins := { s.lost.pins with blkOff := true } } := by
  have none_left : ((List.range 8).filter (fun g => s.hasRegion g)).find? (fun g => decide ((s.region g).state ≠ .off)) = none := by
    simpa [List.find?_eq_none] using off
  have fold (gs : List Nat) (t : State) : ∃ p, gs.foldl (fun t g => t.onRegion g (fun r => { r with state := .off })) t = { t with pwr := p } := by
    induction gs generalizing t with
    | nil => exact ⟨_, rfl⟩
    | cons g gs ih => exact (ih _).imp fun p h => h
  simp only [State.goOff, none_left]
  exact fold _ _

/-- R299: one region that is not in OFF refuses the request with a record. -/
theorem State.goOff_of_on {s : State} {g : Nat} (lt : g < 8) (has : s.hasRegion g = true) (on : (s.region g).state ≠ .off) :
    ∃ e, s.goOff = { s with ev := e } := by
  obtain ⟨x, found⟩ : ∃ x, ((List.range 8).filter (fun g => s.hasRegion g)).find? (fun g => decide ((s.region g).state ≠ .off)) = some x := by
    rw [← Option.isSome_iff_exists, List.find?_isSome]
    exact ⟨g, by simp [lt, has], by simpa using on⟩
  simp only [State.goOff, found]
  exact s.evt_eq _ _ _

/-- Settles O18: BLOCK_OFF is `goOff`. -/
theorem blockOffNeedsEveryRegionOff : Obligations.BlockOffNeedsEveryRegionOff := by
  intro s served
  have row : exec .blockOff s = _ := exec_served_as (w := true) rfl served rfl rfl rfl
  refine ⟨fun off => ⟨_, row, ?_⟩, fun g lt has on => ⟨_, row, ?_⟩⟩
  · obtain ⟨p, gone⟩ := State.goOff_of_off (s := s.granted 0x20004) off
    rw [gone]
    simp [State.respond, State.lost, State.resetWith]
  · obtain ⟨e, refused⟩ := State.goOff_of_on (s := s.granted 0x20004) lt has on
    rw [refused]
    simp [State.respond]

/-! ### The safety manager -/

/-- Settles O20: injections are armed, diagnostics started and unknells noted where they may be. -/
theorem safetyManagerWrites : Obligations.SafetyManagerWrites := by
  intro s
  refine ⟨fun d v lt served => ?_, fun served pc => ?_, fun served pc => ⟨fun fenced passed => ?_, fun barred => ?_⟩⟩
  · have index : d % 16 = d := Nat.mod_eq_of_lt lt
    have apart : 0x30000 ≠ 0x30300 + 8 * d := by omega
    refine exec_served_as (w := true) (congrArg (fun k => some (0x30300 + 8 * k, true)) index) served rfl rfl ?_
    rw [applied_injArm, index]
    simp only [State.injArm, injOff, State.reg_setReg, if_neg apart, reg_granted]
    rfl
  · exact exec_served_as rfl served rfl rfl rfl
  · refine exec_served_as rfl served rfl rfl ?_
    have allowed : (s.fenced pc.toNat && s.sm.diagOk.getLsbD pc.toNat) = true := by simp [fenced, passed]
    refine (applied_unknell _ _).trans (congrArg (·, Resp.ok) ((if_pos allowed).trans ?_))
    simp [State.putLow]
  · refine ⟨_, exec_served_as rfl served rfl rfl rfl, ?_⟩
    have refused : (s.fenced pc.toNat && s.sm.diagOk.getLsbD pc.toNat) = false := by
      obtain h | h := barred <;> simp [h]
    obtain ⟨e, record⟩ := ((s.granted 0x30050).putLow 0x30050 0x1F (pc.setWidth 32)).evt_eq 0x00C2 0
      [(0, 16, 0x0305), (16, 5, pc.toNat), (21, 4, s.incOf pc.toNat), (25, 1, b2n (s.sm.diagOk.getLsbD pc.toNat))]
    have same : ((s.granted 0x30050).putLow 0x30050 0x1F (pc.setWidth 32)).unknellReq pc.toNat = _ :=
      (if_neg (ne_true_of_eq_false refused)).trans record
    rw [same]
    simp [State.respond, State.putLow]

end Sys2Proof.Machine
end

section
/-! PROOFS. A block reset (R283, R343), RESTART (O21) and the commands of the boot unit (O22). -/

namespace Sys2Proof.Machine

/-! ### What a block reset leaves -/

/-- Strobing off touches the requests of the ports alone; how far each burst had come is a free value. -/
theorem State.strobesOff_eq (s : State) (f : PReq → Bool) : ∃ m n, s.strobesOff f = { s with mp := m, freeCnt := n } := by
  unfold State.strobesOff
  generalize s.mp.reqs = rs
  induction rs generalizing s with
  | nil => exact ⟨_, _, rfl⟩
  | cons r rs ih =>
    rw [List.foldl_cons]
    split
    · exact ih _
    · exact ih s

theorem State.rstCheck_eq (s : State) : ∃ m e, s.rstCheck = { s with mp := m, ev := e } := by
  unfold State.rstCheck
  split
  · obtain ⟨e, record⟩ := State.evt_eq
      { s with mp := { s.mp with
          rstq := false, rstqCnt := satAdd s.mp.rstqCnt 1 max32, rstqLast := min 65535 (s.ns10 (s.tu.ltc - s.mp.rstSince)) } }
      0x00A3 9 [(0, 1, 1), (1, 32, s.ns10 (s.tu.ltc - s.mp.rstSince)), (33, 12, s.mp.rstHeld)]
    exact ⟨_, e, record⟩
  · exact ⟨_, _, rfl⟩

/-- Cores replaced one by one. -/
theorem State.setCores_eq (g : Nat → Core) (l : List Nat) (u : State) :
    ∃ cs, l.foldl (fun u pc => u.setCore pc (g pc)) u = { u with cores := cs }
      ∧ ∀ pc, pc ∈ l → SMap.get cs Core.reset pc = g pc := by
  suffices h : ∃ cs, l.foldl (fun u pc => u.setCore pc (g pc)) u = { u with cores := cs }
      ∧ ∀ pc, SMap.get cs Core.reset pc = if pc ∈ l then g pc else u.core pc by
    obtain ⟨cs, frame, read⟩ := h
    exact ⟨cs, frame, fun pc mem => (read pc).trans (if_pos mem)⟩
  induction l generalizing u with
  | nil => exact ⟨_, rfl, fun pc => rfl⟩
  | cons n l ih =>
    obtain ⟨cs, frame, read⟩ := ih (u.setCore n (g n))
    refine ⟨cs, frame, fun pc => ?_⟩
    rw [read, State.core_setCore]
    by_cases mem : pc ∈ l <;> by_cases here : pc = n <;> simp [mem, here]

/-- What lies in AON and in the active half of the carillon store stays over a block reset, and a start is due (R224, R343). -/
structure State.BlockReset (s t : State) (kind : Nat) : Prop where
  boot : t.boot = { Boot.reset with
    fsc := s.boot.fsc, fscInv := s.boot.fscInv, addrValid := s.boot.addrValid, hist := s.boot.hist, starts := s.boot.starts, pend := some kind }
  ltc : t.tu.ltc = s.tu.ltc
  cfg : t.cfg = { CfgUnit.reset with
    active := s.cfg.active, activeValid := s.cfg.activeValid, map := s.cfg.map, half := s.cfg.half, bad := s.cfg.bad }
  gong : t.gong = { Gong.reset with gsn := s.gong.gsn }
  retain : t.retain = s.retain
  fenced : t.sm.fenced = s.sm.fenced
  incs : t.sm.incs = s.sm.incs
  so : t.so = State.reset.so
  lcs : t.lcs = State.reset.lcs
  core : ∀ pc, pc < s.par.npc → t.core pc = { Core.reset with inc := s.incOf pc, held := s.fenced pc }

theorem State.blockReset_spec {s : State} (out : s.inReset = false) (kind : Nat) : s.BlockReset (s.blockReset kind) kind := by
  obtain ⟨m, n, strobes⟩ := s.strobesOff_eq (fun _ => true)
  unfold State.blockReset
  simp only [out, Bool.false_eq_true, if_false, strobes]
  generalize fold : (List.range _).foldl _ _ = v
  obtain ⟨m', e, passed⟩ := v.rstCheck_eq
  rw [passed]
  obtain ⟨cs, frame, read⟩ := State.setCores_eq (fun pc => { Core.reset with inc := s.incOf pc, held := s.fenced pc })
    (List.range s.par.npc) _
  rw [show v = _ from fold.symm.trans frame]
  exact ⟨rfl, rfl, rfl, rfl, rfl, rfl, rfl, rfl, rfl, fun pc lt => read pc (List.mem_range.mpr lt)⟩

/-! ### RESTART -/

theorem State.inReset_of_serves {s : State} {off : Nat} (served : s.serves off = true) : s.inReset = false :=
  State.inReset_of_verdict (m := .hcp) (off := off) (by rw [((serves_iff s _).mp served).2.1]; nofun)

/-- Settles O21: in FAILED and MINIMAL RESTART is a block reset. -/
theorem restartActsOnlyWhenFailedOrMinimal : Obligations.RestartActsOnlyWhenFailedOrMinimal := by
  intro s served
  have out := State.inReset_of_serves served
  refine ⟨fun state => ?_, fun running full => exec_served_as rfl served rfl rfl ?_⟩
  · have restarted : (s.granted 0x80008).restart = (s.granted 0x80008).blockReset 3 := by
      have out' : (s.granted 0x80008).inReset = false := out
      obtain h | h := state <;> simp [State.restart, h, out']
    refine ⟨_, exec_served_as rfl served rfl rfl (by rw [applied_restart, restarted]), ?_⟩
    have reset := State.blockReset_spec (s := s.granted 0x80008) out 3
    simp only [settle_boot, settle_tu, settle_cfg, State.respond]
    rw [reset.boot, reset.ltc, reset.cfg]
    exact ⟨rfl, rfl, rfl, rfl, rfl, rfl⟩
  · rw [applied_restart, State.restart, State.granted_boot]
    cases h : s.boot.state <;> simp_all

/-! ### What requests on the ports touch -/

/-- The state without what requests on the ports, their deliveries and records touch: the ports, the streams, the event plane, the
cores, and the buffers of the loads of the configuration unit and the ROM. -/
def State.offPort (s : State) : State :=
  { s with cores := [], st := Streams.reset, mp := Ports.reset, ev := Events.reset, freeCnt := 0,
           cfg := { s.cfg with err := none, buf := [] }, boot := { s.boot with err := false, buf := [] } }

theorem State.evt_offPort (s : State) (kind unit : Nat) (fs : List (Nat × Nat × Nat)) : (s.evt kind unit fs).offPort = s.offPort := by
  obtain ⟨e, record⟩ := s.evt_eq kind unit fs
  rw [record]
  rfl

theorem State.lostWrite_offPort (s : State) (r : PReq) : (s.lostWrite r).offPort = s.offPort := by
  unfold State.lostWrite
  split <;> rfl

theorem State.cachePut_offPort (s : State) (pc : Nat) (l : Line) : (s.cachePut pc l).offPort = s.offPort := by
  unfold State.cachePut
  dsimp only
  split <;> rfl

theorem State.fillRow_offPort (s : State) (c : Nat) (x : InRow) : (s.fillRow c x).offPort = s.offPort := by
  unfold State.fillRow
  dsimp only
  split <;> rfl

theorem State.ringRead_offPort (s : State) (r : Nat) (q : PReq) (data : List Byte) (lost : Bool) : (s.ringRead r q data lost).offPort = s.offPort := by
  unfold State.ringRead
  dsimp only
  split
  · rfl
  · split <;> rfl

theorem State.deliver_offPort (s : State) (r : PReq) (data : List Byte) (bad : List Nat) (k : Kinds) : (s.deliver r data bad k).offPort = s.offPort := by
  unfold State.deliver
  dsimp only
  split
  case h_1 | h_2 => exact foldl_keeps State.offPort _ (fun s x => s.cachePut_offPort _ _) _ s
  case h_3 => exact foldl_keeps State.offPort _ (fun s x => s.fillRow_offPort _ x) _ s
  case h_4 | h_5 => exact s.ringRead_offPort ..
  case h_13 | h_14 => split_ifs <;> rfl
  all_goals rfl

theorem State.poisonReq_offPort (s : State) (r : PReq) (k : Kinds) : (s.poisonReq r k).offPort = s.offPort := by
  unfold State.poisonReq
  dsimp only
  split
  · split
    · rfl
    · exact (State.lostWrite_offPort _ r).trans rfl
  · exact (State.deliver_offPort _ r _ _ k).trans rfl

theorem State.abandonRec_offPort (s : State) (pc lc cause opc row dest : Nat) : (s.abandonRec pc lc cause opc row dest).offPort = s.offPort :=
  (State.evt_offPort _ _ _ _).trans rfl

theorem State.abandonFault_offPort (s : State) (pc id va : Nat) : (s.abandonFault pc id va).offPort = s.offPort := by
  unfold State.abandonFault
  split
  · rfl
  · split
    · rfl
    · refine (State.abandonRec_offPort _ _ _ _ _ _ _).trans ?_
      exact foldl_keeps State.offPort (fun s (q : PReq) => s.dropReq q.id) (fun _ _ => rfl) _ s

theorem State.noteXlate_offPort (s : State) (r : PReq) (code : Nat) : (s.noteXlate r code).offPort = s.offPort := by
  unfold State.noteXlate
  split
  · rfl
  · split
    · split
      · rfl
      · exact (show State.offPort (State.onFlight _ _ _ _) = _ from rfl).trans (State.evt_offPort _ _ _ _)
    · exact State.evt_offPort _ _ _ _

theorem State.askPage_offPort (s : State) (r : PReq) : (s.askPage r).offPort = s.offPort := by
  unfold State.askPage
  dsimp only
  split <;> rfl

theorem State.faultReq_offPort (s : State) (r : PReq) (code : Nat) : (s.faultReq r code).offPort = s.offPort := by
  unfold State.faultReq
  dsimp only
  split
  · rfl
  · generalize noted : State.noteXlate _ r code = u
    have kept : u.offPort = s.offPort := noted ▸ (State.noteXlate_offPort _ r code).trans rfl
    have poisoned : (u.poisonReq r kTranslate).offPort = s.offPort := (u.poisonReq_offPort r kTranslate).trans kept
    have delivered : ((u.dropReq r.id).deliver r [] [] kTranslate).offPort = s.offPort := (State.deliver_offPort _ r _ _ _).trans kept
    have asked (f : PReq → PReq) : ((u.askPage r).onReq r.id f).offPort = s.offPort := (u.askPage_offPort r).trans kept
    split
    · exact kept
    · exact delivered
    · exact delivered
    · split
      · exact poisoned
      · split
        all_goals
          split
          · exact poisoned
          · split
            · exact (State.abandonFault_offPort _ _ _ _).trans (asked _)
            · exact (State.abandonFault_offPort _ _ _ _).trans (asked _)
            · exact asked _

theorem State.askXlp_offPort (s : State) (r : PReq) : (s.askXlp r).offPort = s.offPort := by
  unfold State.askXlp
  split
  · rfl
  · dsimp only
    split <;> rfl

theorem State.tlbPut_offPort (s : State) (es : List TlbEntry) (n : Nat) (e : TlbEntry) : (s.tlbPut es n e).1.offPort = s.offPort := by
  unfold State.tlbPut
  dsimp only
  split <;> rfl

theorem State.tryReq_offPort (s : State) (i : Nat) : (s.tryReq i).offPort = s.offPort := by
  unfold State.tryReq
  dsimp only
  split
  · rfl
  · split
    · split
      · rfl
      · split
        · split
          · split <;> rfl
          · rfl
        · split
          · have put (pc : Nat) (e : TlbEntry) : (s.tlbPut (s.core pc).slice 64 e).1.offPort = s.offPort := s.tlbPut_offPort ..
            split
            · split
              · split
                · split
                  · exact put _ _
                  · exact put _ _
                · split <;> rfl
              · split <;> rfl
            · split
              · split
                · exact put _ _
                · rfl
              · rfl
          · exact State.faultReq_offPort _ _ _
          · exact (State.askXlp_offPort _ _).trans rfl
    · rfl

theorem State.newReqAt_offPort (s : State) (who : Requester) (port : Nat) (chan : Option Nat) (va beats : Nat) (write : Bool)
    (data : List Byte) (bad : List Nat) (lo hi : Nat) : (s.newReqAt who port chan va beats write data bad lo hi).offPort = s.offPort :=
  (State.tryReq_offPort _ _).trans rfl

theorem State.bootFetch_offPort (s : State) (off len : Nat) : (s.bootFetch off len).offPort = s.offPort :=
  foldl_keeps State.offPort _ (fun s _ => s.newReqAt_offPort ..) _ s

/-! ### The boot unit -/

theorem State.monitor_of_minimal {s : State} (state : s.boot.state = .minimal) (out : s.inReset = false) : s.monitor = true := by
  simp [State.monitor, state, out]

theorem exec_fetch_idle {s : State} (served : s.serves 0x80008 = true) (idle : s.boot.state ≠ .waitFetch) :
    exec .fetch s = .next (settle s ({ s.granted 0x80008 with boot := { s.boot with addrValid := true } }.respond .ok)) := by
  refine exec_served_as rfl served rfl rfl ?_
  rw [applied_fetch, State.fetchSet]
  simp only [State.granted_boot]

theorem exec_fetch_waiting {s : State} (served : s.serves 0x80008 = true) (waits : s.boot.state = .waitFetch) :
    ∃ t, exec .fetch s = .next t ∧ t.boot.state = .verify ∧ t.boot.addrValid = true ∧ t.boot.fetchAt = s.tu.ltc := by
  refine ⟨_, exec_served_as rfl served rfl rfl (applied_fetch _), ?_⟩
  have fetched : (s.granted 0x80008).fetchSet = State.fetchStart { s.granted 0x80008 with boot := { s.boot with addrValid := true } } := by
    simp only [State.fetchSet, State.granted_boot, waits]
  have kept := congrArg State.boot (State.bootFetch_offPort
    { s.granted 0x80008 with boot := { s.boot with
        addrValid := true, state := .verify, fetchAt := s.tu.ltc, buf := [], len := 0, err := false } } 0 128)
  simp only [settle_boot, State.respond_boot, fetched]
  exact ⟨congrArg Boot.state kept, congrArg Boot.addrValid kept, congrArg Boot.fetchAt kept⟩

theorem exec_fscClr_may {s : State} (served : s.serves 0x80008 = true) (may : s.boot.ready = true ∨ s.boot.state = .minimal) :
    exec .fscClr s = .next (settle s ({ s.granted 0x80008 with boot := { s.boot with fsc := 0, fscInv := 3 } }.respond .ok)) := by
  refine exec_served_as rfl served rfl rfl ?_
  have allowed : (s.boot.ready || decide (s.boot.state = .minimal)) = true := by
    obtain h | h := may <;> simp [h]
  rw [applied_fscClr, State.fscClr, State.granted_boot, if_pos (by simpa using allowed)]

theorem exec_fscClr_mayNot {s : State} (served : s.serves 0x80008 = true) (notReady : s.boot.ready = false) (full : s.boot.state ≠ .minimal) :
    exec .fscClr s = .next (settle s ((s.granted 0x80008).respond .ok)) := by
  refine exec_served_as rfl served rfl rfl ?_
  rw [applied_fscClr, State.fscClr, State.granted_boot, notReady, decide_eq_false full]
  rfl

theorem exec_monBist_minimal {s : State} (served : s.serves 0x80030 = true) (minimal : s.boot.state = .minimal) (c : BitVec 18) (sp ct : Bool) :
    ∃ t, exec (.monBist c sp ct) s = .next t ∧ t.routes.table = Memory.reset ∧ t.seqMem = [] ∧ t.so = []
      ∧ t.retain = s.retain ∧ t.boot = { s.boot with bist := s.bistWord c sp ct, monErr := false } := by
  refine ⟨_, exec_served_as rfl served rfl rfl (applied_monBist ..), ?_⟩
  have active : ((s.granted 0x80030).monPut 1).monitor = true :=
    State.monitor_of_minimal (s := (s.granted 0x80030).monPut 1) minimal (show s.inReset = false from State.inReset_of_serves served)
  simp only [State.monBist, active, if_true, settle_routes, settle_seqMem, settle_so, settle_retain, settle_boot]
  exact ⟨rfl, rfl, rfl, rfl, rfl⟩

theorem monitor_of_readRetention {s : State} (served : s.serves 0x80030 = true) (minimal : s.boot.state = .minimal) (a : Word) :
    (((s.granted 0x80030).monPut 2).setReg 0x80034 a).monitor = true :=
  State.monitor_of_minimal (s := ((s.granted 0x80030).monPut 2).setReg 0x80034 a) minimal (show s.inReset = false from State.inReset_of_serves served)

theorem exec_monReadRetention_of_readable {s : State} (served : s.serves 0x80030 = true) (minimal : s.boot.state = .minimal) {a : Word}
    (readable : a.toNat % 4 = 0 ∧ a.toNat < 262144 ∧ s.tu.saved = none ∧ s.tu.ledger = []) :
    ∃ t, exec (.monReadRetention a) s = .next t ∧ t.retain = s.retain
      ∧ t.boot = { s.boot with monErr := false, monData := BitVec.ofNat 32 (leNat (s.retain.read a.toNat 4)) } := by
  refine ⟨_, exec_served_as rfl served rfl rfl (applied_monReadRetention ..), ?_⟩
  have readable' : a.toNat % 4 = 0 ∧ a.toNat < 262144 ∧ (((s.granted 0x80030).monPut 2).setReg 0x80034 a).tu.saved = none
      ∧ (((s.granted 0x80030).monPut 2).setReg 0x80034 a).tu.ledger = [] := readable
  simp only [State.monRead, monitor_of_readRetention served minimal, if_true, if_pos readable', settle_retain, settle_boot]
  exact ⟨rfl, rfl⟩

theorem exec_monReadRetention_of_unreadable {s : State} (served : s.serves 0x80030 = true) (minimal : s.boot.state = .minimal) {a : Word}
    (unreadable : ¬ (a.toNat % 4 = 0 ∧ a.toNat < 262144 ∧ s.tu.saved = none ∧ s.tu.ledger = [])) :
    ∃ t, exec (.monReadRetention a) s = .next t ∧ t.boot.monErr = false ∧ t.freeCnt = s.freeCnt + 1 := by
  refine ⟨_, exec_served_as rfl served rfl rfl (applied_monReadRetention ..), ?_⟩
  have unreadable' : ¬ (a.toNat % 4 = 0 ∧ a.toNat < 262144 ∧ (((s.granted 0x80030).monPut 2).setReg 0x80034 a).tu.saved = none
      ∧ (((s.granted 0x80030).monPut 2).setReg 0x80034 a).tu.ledger = []) := unreadable
  simp only [State.monRead, monitor_of_readRetention served minimal, if_true, if_neg unreadable', settle_freeCnt, settle_boot]
  exact ⟨rfl, rfl⟩

theorem applied_monReserved_of_reserved {c : BitVec 8} (reserved : 3 ≤ c.toNat) (u : State) :
    applyAccess (.monReserved c) u = ((u.monPut c.toNat).monOther, .ok) := by
  rw [applied_monReserved, if_pos reserved]

theorem exec_monReserved_minimal {s : State} (served : s.serves 0x80030 = true) (minimal : s.boot.state = .minimal) {c : BitVec 8}
    (reserved : 3 ≤ c.toNat) : ∃ t, exec (.monReserved c) s = .next t ∧ t.boot = { s.boot with monErr := true } := by
  refine ⟨_, exec_served_as rfl served rfl rfl (applied_monReserved_of_reserved reserved _), ?_⟩
  have active : ((s.granted 0x80030).monPut c.toNat).monitor = true :=
    State.monitor_of_minimal (s := (s.granted 0x80030).monPut c.toNat) minimal (show s.inReset = false from State.inReset_of_serves served)
  simp only [State.monOther, active, if_true, settle_boot]
  rfl

theorem exec_monReserved_notMinimal {s : State} (served : s.serves 0x80030 = true) (full : s.boot.state ≠ .minimal) {c : BitVec 8}
    (reserved : 3 ≤ c.toNat) : ∃ t, exec (.monReserved c) s = .next t ∧ t.boot = s.boot := by
  refine ⟨_, exec_served_as rfl served rfl rfl (applied_monReserved_of_reserved reserved _), ?_⟩
  have idle : ((s.granted 0x80030).monPut c.toNat).monitor = false :=
    (congrArg (!s.inReset && ·) (decide_eq_false full)).trans (Bool.and_false _)
  simp only [State.monOther, idle, Bool.false_eq_true, if_false, settle_boot]
  rfl

/-- Settles O22: each row is the command of the boot unit or the monitor that it names. -/
theorem bootUnitWrites : Obligations.BootUnitWrites := fun _ =>
  ⟨fun served => ⟨exec_fetch_idle served, exec_fetch_waiting served, exec_fscClr_may served, exec_fscClr_mayNot served⟩,
    fun served minimal =>
      ⟨exec_monBist_minimal served minimal,
        fun _ aligned within unsaved empty => exec_monReadRetention_of_readable served minimal ⟨aligned, within, unsaved, empty⟩,
        fun _ => exec_monReadRetention_of_unreadable served minimal, fun _ => exec_monReserved_minimal served minimal⟩,
    fun served full _ _ => exec_monReserved_notMinimal served full⟩

end Sys2Proof.Machine
end

section
/-! PROOFS. Agreement pairs outside a gong (O42), mallet grants (O43), time inputs (O49) and the event rings (O50). -/

namespace Sys2Proof.Machine

/-- Two effects that agree end a row in the same state. -/
theorem next_settle_congr {u v w : State} (same : v = w) : (Host.Outcome.next (settle u v) : Host.Outcome State Fault Refusal) = .next (settle u w) := by
  rw [same]

/-! ### Agreement pairs -/

theorem PairLatch.complete_iff (x : PairLatch) : x.complete = true ↔ ∃ a b, x.a = some a ∧ x.b = some b := by
  simp only [PairLatch.complete, Bool.and_eq_true, Option.isSome_iff_exists]
  exact ⟨fun ⟨⟨a, ha⟩, b, hb⟩ => ⟨a, b, ha, hb⟩, fun ⟨a, b, ha, hb⟩ => ⟨⟨a, ha⟩, b, hb⟩⟩

/-- Settles O42: once its guard holds, a COMPLETE pair is closed and taken, or refused with a record. -/
theorem pairsApply : Obligations.PairsApply := by
  intro s i
  refine ⟨fun ready complete idle => ?_, fun stays => ?_⟩
  · obtain ⟨a, b, ha, hb⟩ := (PairLatch.complete_iff _).mp complete
    have applies : exec (.pairApply i) s = .next (settle s (s.applyPair i)) := by
      have : s.pairNow i = s.applyPair i := by
        obtain free | ⟨off, free⟩ := idle <;> simp [State.pairNow, *]
      exact next_settle_congr this
    refine ⟨a, b, ha, hb, fun ok => applies.trans ?_, fun bad => ⟨_, applies, ?_⟩⟩
    · simp [State.applyPair, ha, hb, ok]
    · obtain ⟨e, record⟩ := (s.setPair i .closed).evt_eq 0x0083 0 [(0, 16, 0x0211), (16, 3, (pairCode i).1), (19, 10, (pairCode i).2)]
      have closed : s.applyPair i = { s.setPair i .closed with ev := e } := by
        simp only [State.applyPair, ha, hb, bad, Bool.false_eq_true, if_false, record]
      rw [closed]
      exact ⟨(pair_setPair s i i .closed).trans (if_pos rfl), rfl, rfl, rfl, rfl⟩
  · refine next_settle_congr (?_ : s.pairNow i = s)
    obtain h | h | ⟨h, k | k⟩ := stays <;> simp [State.pairNow, *]

/-! ### Mallets -/

/-- Settles O43. -/
theorem malletGrantsFollowBudgetAndTokens : Obligations.MalletGrantsFollowBudgetAndTokens := by
  intro s at_
  refine ⟨fun r head => ⟨fun budget tokens => ⟨_, rfl, ?_⟩, fun short => ?_⟩, fun empty => ?_⟩
  · simp only [State.grant, head, if_pos (And.intro budget tokens)]
    refine ⟨rfl, rfl, rfl, rfl, ?_, ?_, fun n other => ?_⟩
    · show (if List.isEmpty _ = true then _ else _) = _
      simp only [List.isEmpty_iff]
    · rw [State.core_onCtx, if_pos rfl, Core.ctx_setCtx_self]
    · rw [State.core_onCtx, if_neg other]
      rfl
  · refine next_settle_congr (?_ : State.grant _ = _)
    simp only [State.grant, head]
    refine if_neg fun ⟨budget, tokens⟩ => ?_
    omega
  · exact next_settle_congr (by simp only [State.grant, empty])

/-! ### Time inputs -/

/-- Settles O49. -/
theorem timeInputs : Obligations.TimeInputs := by
  intro s c at_ x u w used e stepNs big v
  have pulse (runs : w.tuRuns = true) (en : bit (w.reg 0x10064) 16 = true) : exec (.timePulse c at_) s = .next (settle w w.pulse) := by
    show Host.Outcome.next (settle w (if w.tuRuns && bit (w.reg 0x10064) 16 then w.pulse else used w)) = _
    rw [runs, en]; rfl
  refine ⟨rfl, fun n other => ?_, fun runs long => ?_, fun off => ?_, fun runs en => ?_, fun p last runs long => ?_⟩
  · show Host.Outcome.next (settle s { s with tu := { s.tu with tod := if n = 128 then _ else _ } }) = _
    rw [if_neg other]
  · exact next_settle_congr (if_pos ⟨runs, long⟩)
  · show Host.Outcome.next (settle w (if w.tuRuns && bit (w.reg 0x10064) 16 then w.pulse else used w)) = _
    obtain h | h := off <;> simp [h]
  · rw [pulse runs en]
    refine ⟨fun stale => ?_, fun fresh bad => ?_, fun fresh good invalid => ?_, fun fresh good valid => ⟨fun synced near => ?_, fun step => ?_⟩⟩
    all_goals refine next_settle_congr ?_
    · simp only [State.pulse, stale]; rfl
    · simp only [State.pulse, fresh, bad]; rfl
    · simp only [State.pulse, fresh, good, invalid]; rfl
    · have small : ¬ (w.tu.invalid = true ∨ stepNs * 65536 ≤ (e.natAbs : Int)) := by
        rw [synced]
        exact fun h => h.elim nofun (fun far => absurd near (not_lt.mpr far))
      simp only [State.pulse, fresh, good, valid]
      exact if_neg small
    · simp only [State.pulse, fresh, good, valid]
      exact if_pos step
  · have late : u.pulseLate = State.unlock (if u.tu.locked then
        State.timeFault (State.portRec { u with tu := { u.tu with lastPulse := none, pulseMiss := satAdd u.tu.pulseMiss 1 max32 } } 0x0603) 0x0603
      else { u with tu := { u.tu with lastPulse := none, pulseMiss := satAdd u.tu.pulseMiss 1 max32 } }) := by
      simp only [State.pulseLate, last, runs, Bool.not_true, Bool.false_or, decide_eq_true_eq, if_neg (not_lt.mpr long)]
    refine ⟨_, rfl, ?_⟩
    rw [show (s.elapseTo at_).pulseLate = _ from late]
    cases locked : u.tu.locked <;> simp [State.unlock, State.timeFault, State.portRec, State.lockRec, locked]

/-! ### Event rings -/

theorem EvRec.bytes_length (e : EvRec) : e.bytes.length = 32 := by
  simp only [EvRec.bytes, List.length_append, leBytes_length]

/-- Settles O50. -/
theorem eventRingRows : Obligations.EventRingRows := by
  refine ⟨EvRec.bytes_length, fun s r n at_ index => ?_⟩
  intro u x a es hi beats
  refine ⟨fun live idle some_ => next_settle_congr ?_, fun none_ => next_settle_congr ?_, fun live due => ?_,
    fun live => next_settle_congr (if_pos live), fun dead => ⟨next_settle_congr ?_, next_settle_congr (if_neg (by rw [dead]; nofun))⟩⟩
  · have write : (!u.ringLive r || !x.sent.isEmpty) = false := by rw [live, idle]; rfl
    have records : es.isEmpty = false := by cases h : es <;> simp_all
    show State.evWrite u r n = _
    simp only [State.evWrite]
    rw [write, if_neg Bool.false_ne_true, records]
    rfl
  · show (if (!u.ringLive r || !x.sent.isEmpty) = true then u else if es.isEmpty = true then u else _) = u
    obtain dead | busy | nothing := none_
    · rw [dead]; rfl
    · rw [List.isEmpty_eq_false_iff.mpr busy, Bool.not_false, Bool.or_true, if_pos rfl]
    · rw [nothing]; split <;> rfl
  · have polls : (u.ringLive r && (decide (u.ringFree r = 0) || decide ((u.evRing r).polled + u.ticksOf 10000 ≤ u.tu.ltc))) = true := by
      simpa [live] using due
    refine ⟨u.setEvRing r { u.evRing r with cons := index.toNat, polled := u.tu.ltc }, next_settle_congr (if_pos polls), ?_, fun k other => ?_, rfl⟩
    · exact (SMap.get_set _ _ _ _ _).trans (if_pos rfl)
    · exact (SMap.get_set _ _ _ _ _).trans (if_neg other)
  · rw [dead]; rfl

end Sys2Proof.Machine
end

section
/-! PROOFS. What reaches the requests on the ports and the translation interface (O51), and invalidations (O52). -/

namespace Sys2Proof.Machine

/-! ### Each row at its request -/

theorem State.readData_onTag {s : State} {port tag : Nat} {r : PReq} (mine : s.onTag port tag false = some r) (data : List Byte) (a : Resp)
    (poison : BitVec 2) (last : Bool) : s.readData port tag data a poison last = (s.readBeat r tag data a poison last).afterPort := by
  simp only [State.readData, mine]

theorem State.readData_noTag {s : State} {port tag : Nat} (none_ : s.onTag port tag false = none) (late : s.lateBack port tag false = none)
    (data : List Byte) (a : Resp) (poison : BitVec 2) (last : Bool) : s.readData port tag data a poison last = s.violation port tag := by
  simp only [State.readData, none_, late]

theorem State.writeResp_onTag {s : State} {port tag : Nat} {r : PReq} (mine : s.onTag port tag true = some r) (a : Resp) :
    s.writeResp port tag a = (s.writeDone r tag a).afterPort := by
  simp only [State.writeResp, mine]

theorem State.writeResp_noTag {s : State} {port tag : Nat} (none_ : s.onTag port tag true = none) (late : s.lateBack port tag true = none)
    (a : Resp) : s.writeResp port tag a = s.violation port tag := by
  simp only [State.writeResp, none_, late]

theorem State.retryNow_due {s : State} {port tag : Nat} {r : PReq}
    (mine : s.mp.reqs.find? (fun r => decide (r.port = port) && decide (r.st = .retry tag)) = some r)
    (due : r.at_ + s.ticksOf (1000 * s.retryUs) ≤ s.tu.ltc) :
    s.retryNow port tag = ((s.setMport port { s.mport port with retries := satAdd (s.mport port).retries 1 max32 }).onReq r.id
      (fun r => { r with st := .queued })).tryReq r.id := by
  simp only [State.retryNow, mine, if_neg (not_lt.mpr due)]

theorem State.xlpAnswer_none {s : State} {i : Nat} (none_ : s.mp.xreqs.find? (fun q => decide (q.id = i)) = none) (x : XlateAnswer) :
    s.xlpAnswer i x = s.violation (2 * (i / 64 % 4)) i := by
  simp only [State.xlpAnswer, none_]

theorem State.xlpAnswer_ok {s : State} {i : Nat} {q : XReq} (mine : s.mp.xreqs.find? (fun q => decide (q.id = i)) = some q)
    (fresh : q.stale = false) {x : XlateAnswer} (ok : x.status = .ok) :
    s.xlpAnswer i x = ((s.xlpEnd i).2.foldl (fun s r => s.lookAgain r)
      ((s.xlpEnd i).1.learn (i / 64) (((s.xlpEnd i).2.head?).bind (fun r => r.who.core))
        { va := q.va / pageSize x.page * pageSize x.page, size := pageSize x.page, pa := x.pa.toNat / pageSize x.page * pageSize x.page,
          read := x.read, write := x.write })).afterPort := by
  simp only [State.xlpAnswer, mine, fresh, ok, Bool.false_eq_true, if_false]

theorem State.xlpAnswer_fault {s : State} {i : Nat} {q : XReq} (mine : s.mp.xreqs.find? (fun q => decide (q.id = i)) = some q)
    (fresh : q.stale = false) {x : XlateAnswer} (bad : x.status ≠ .ok) :
    s.xlpAnswer i x = ((s.xlpEnd i).2.foldl (fun s r => s.faultReq r (faultCode x.status)) (s.xlpEnd i).1).afterPort := by
  simp only [State.xlpAnswer, mine, fresh, Bool.false_eq_true, if_false]

theorem State.xlpLate_due {s : State} {i : Nat} {q : XReq} (mine : s.mp.xreqs.find? (fun q => decide (q.id = i)) = some q)
    (fresh : q.stale = false) (due : q.at_ + s.ticksOf (1000 * fld (s.reg 0x50408) 0 16) ≤ s.tu.ltc) :
    s.xlpLate i = ((s.xlpEnd i).2.foldl (fun s r => s.faultReq r 0x0403) (s.xlpEnd i).1).afterPort := by
  simp only [State.xlpLate, mine, fresh, if_neg (not_lt.mpr due), Bool.false_eq_true, if_false]

theorem State.xlpAgain_due {s : State} {i : Nat} {r : PReq} {k : Nat} (mine : s.req i = some r) (faulted : r.st = .faulted k)
    (open_ : s.mp.quiesce = false) (open' : s.mp.rstq = false)
    (due : r.at_ + s.ticksOf (100 * clampLo (fld (s.reg 0x50404) 0 16) 1) ≤ s.tu.ltc) : s.xlpAgain i = s.lookAgain r true := by
  simp only [State.xlpAgain, mine, faulted, open_, open', decide_eq_false (not_lt.mpr due), Bool.or_self, Bool.false_eq_true, if_false]

theorem State.flimitEnd_due {s : State} {i : Nat} {r : PReq} {t c : Nat} (mine : s.req i = some r) (waits : r.wait = some t)
    (chan : r.chan = some c) (due : t + s.ticksOf (1000 * s.flimit c) ≤ s.tu.ltc) (off : r.onPort = false)
    (other : ∀ pc id, r.who ≠ .row pc id ∧ r.who ≠ .tst pc id) :
    s.flimitEnd i = ((((s.xlateRec 0x0404 r (s.faultRow r)).poisonReq r kTranslate).ringsGo).eventsGo).prefetch := by
  simp only [State.flimitEnd, mine, waits, chan, off, decide_eq_false (not_lt.mpr due), Bool.or_self, Bool.false_eq_true, if_false]
  split
  case h_1 pc id who => exact absurd who (other pc id).1
  case h_2 pc id who => exact absurd who (other pc id).2
  case h_3 => rfl

/-- Settles O51. -/
theorem portRowsReachTheirRequest : Obligations.PortRowsReachTheirRequest := by
  intro s port tag i at_ data a poison last x u
  refine ⟨fun r mine => next_settle_congr (State.readData_onTag mine ..), fun r mine => next_settle_congr (State.writeResp_onTag mine _),
    fun none_ late => next_settle_congr (State.readData_noTag none_ late ..), fun none_ late => next_settle_congr (State.writeResp_noTag none_ late _),
    fun r mine due => ⟨_, next_settle_congr (State.retryNow_due mine due), ?_, rfl⟩,
    fun q mine fresh => ⟨fun ok => next_settle_congr (State.xlpAnswer_ok mine fresh ok), fun bad => next_settle_congr (State.xlpAnswer_fault mine fresh bad)⟩,
    fun none_ => next_settle_congr (State.xlpAnswer_none none_ x), fun q mine fresh due => next_settle_congr (State.xlpLate_due mine fresh due),
    fun r k mine faulted open_ open' due => next_settle_congr (State.xlpAgain_due mine faulted open_ open' due),
    fun r t c mine waits chan due off other => next_settle_congr (State.flimitEnd_due mine waits chan due off other)⟩
  exact congrArg MPort.retries ((State.mport_setMport _ _ _ _).trans (if_pos rfl))

/-! ### Invalidation -/

theorem mem_unlearn_tlbs {s : State} {f : TlbEntry → Bool} {b : Nat × List TlbEntry} :
    b ∈ (s.unlearn f).mp.tlbs ↔ (∃ l, (b.1, l) ∈ s.mp.tlbs ∧ l.filter (fun x => !f x) = b.2) ∧ b.2 ≠ [] := by
  obtain ⟨n, es⟩ := b
  simp only [State.unlearn, List.mem_filter, List.mem_map, Prod.exists, Prod.mk.injEq, Bool.not_eq_true', List.isEmpty_eq_false_iff]
  exact and_congr_left fun _ => ⟨fun ⟨_, l, mem, here, rest⟩ => ⟨l, here ▸ mem, rest⟩, fun ⟨l, mem, rest⟩ => ⟨n, l, mem, rfl, rest⟩⟩

theorem mem_unlearn_cores {s : State} {f : TlbEntry → Bool} {k : Nat × Core} :
    k ∈ (s.unlearn f).cores ↔ ∃ e ∈ s.cores, (e.1, { e.2 with slice := e.2.slice.filter (fun x => !f x) }) = k :=
  List.mem_map

theorem State.invalidate_eq (s : State) (pasid va n : Nat) (all : Bool) : ∃ acks,
    s.invalidate pasid va n all = { s.unlearn (fun e => all || (decide (pasid = fld (s.reg 0x50400) 0 20) && decide (e.va < 4096 * (va + n))
        && decide (4096 * va < e.va + e.size))) with
      mp := { (s.unlearn (fun e => all || (decide (pasid = fld (s.reg 0x50400) 0 20) && decide (e.va < 4096 * (va + n))
        && decide (4096 * va < e.va + e.size)))).mp with invAck := acks } } := by
  unfold State.invalidate
  dsimp only
  split <;> exact ⟨_, rfl⟩

/-- Settles O52: an entry stays exactly where the invalidation does not name it. -/
theorem invalidationRemovesEntries : Obligations.InvalidationRemovesEntries := by
  intro s pasid va n all hit
  obtain ⟨acks, removed⟩ := s.invalidate_eq pasid va n all
  generalize named : (fun e : TlbEntry => all || (decide (pasid = fld (s.reg 0x50400) 0 20) && decide (e.va < 4096 * (va + n))
    && decide (4096 * va < e.va + e.size))) = f at removed
  have hit_iff (e : TlbEntry) : f e = true ↔ hit e := by
    rw [← named]
    simp only [Bool.or_eq_true, Bool.and_eq_true, decide_eq_true_eq, and_assoc, hit]
  have stays {e : TlbEntry} {l : List TlbEntry} (mem : e ∈ l) (other : ¬ hit e) : e ∈ l.filter (fun x => !f x) :=
    List.mem_filter.mpr ⟨mem, by simpa [← hit_iff] using other⟩
  have gone {e : TlbEntry} {l : List TlbEntry} (mem : e ∈ l.filter (fun x => !f x)) : ¬ hit e := by
    simpa [← hit_iff] using (List.mem_filter.mp mem).2
  refine ⟨_, rfl, ?_⟩
  simp only [settle_mp, settle_cores, settle_gong, settle_so, removed]
  refine ⟨fun b mem e here => ?_, fun k mem e here => ?_, fun b mem e here other => ?_, fun k mem e here other => ?_, rfl, rfl, rfl⟩
  · obtain ⟨⟨l, -, rest⟩, -⟩ := mem_unlearn_tlbs.mp mem
    exact gone (rest ▸ here)
  · obtain ⟨k, -, rfl⟩ := mem_unlearn_cores.mp mem
    exact gone here
  · exact ⟨(b.1, b.2.filter (fun x => !f x)), mem_unlearn_tlbs.mpr ⟨⟨b.2, mem, rfl⟩, List.ne_nil_of_mem (stays here other)⟩, rfl, stays here other⟩
  · exact ⟨_, mem_unlearn_cores.mpr ⟨k, mem, rfl⟩, rfl, stays here other⟩

end Sys2Proof.Machine
end

section
/-! PROOFS. Stream ports (O46), rings, held bursts, deadlocks and spills (O47). -/

namespace Sys2Proof.Machine

/-! ### What a wake and a freed buffer touch -/

theorem State.wakeRegion_eq (s : State) (g src : Nat) (level : Bool) : ∃ p e, (s.wakeRegion g src level).1 = { s with pwr := p, ev := e } := by
  unfold State.wakeRegion
  dsimp only
  split
  · split
    · split <;> exact ⟨_, _, rfl⟩
    · obtain ⟨e, record⟩ := State.evt_eq (s.setRegion g _) 0x00B0 0 _
      exact ⟨_, e, record⟩
  · split
    iterate 3 exact ⟨_, _, rfl⟩
    split <;> exact ⟨_, _, rfl⟩

theorem State.recordWake_eq (s : State) (srcs : Nat) (rgns : List Nat) : ∃ p e, s.recordWake srcs rgns = { s with pwr := p, ev := e } := by
  unfold State.recordWake
  split
  · exact ⟨_, _, rfl⟩
  · obtain ⟨e, record⟩ := State.evt_eq { s with pwr := _ } 0x00B1 0 _
    exact ⟨_, e, record⟩

/-- A wake touches the regions and its record alone. -/
theorem State.wake_eq (s : State) (src : Nat) (level : Bool) (gs : List Nat) : ∃ p e, s.wake src level gs = { s with pwr := p, ev := e } := by
  unfold State.wake
  dsimp only
  generalize fold : List.foldl _ (s, []) gs = a
  have woken : ∃ p e, a.1 = { s with pwr := p, ev := e } := by
    rw [← fold]
    refine List.foldlRecOn (motive := fun (a : State × List Nat) => ∃ p e, a.1 = { s with pwr := p, ev := e }) gs _ ⟨_, _, rfl⟩ fun a keeps g _ => ?_
    obtain ⟨p, e, keeps⟩ := keeps
    split
    · obtain ⟨p', e', woken⟩ := a.1.wakeRegion_eq g src level
      exact ⟨p', e', by rw [woken, keeps]⟩
    · exact ⟨p, e, keeps⟩
  obtain ⟨p, e, woken⟩ := woken
  obtain ⟨p', e', recorded⟩ := a.1.recordWake_eq (2 ^ (src - 1) ||| s.compareSources a.2) a.2
  exact ⟨p', e', by rw [recorded, woken]⟩

theorem State.spillCnt_freeBuffer (s : State) (b : Nat) : (s.freeBuffer b).st.spillCnt = s.st.spillCnt := by
  unfold State.freeBuffer
  dsimp only
  split
  · split
    · split <;> rfl
    · rfl
  · split
    · rfl
    · split <;> rfl

theorem State.spillCnt_dropRef (s : State) (b : Nat) : (s.dropRef b).st.spillCnt = s.st.spillCnt := by
  unfold State.dropRef
  dsimp only
  split
  · exact State.spillCnt_freeBuffer s b
  · rfl

/-! ### Frames -/

theorem length_indexed {α : Type} (i : Nat) (l : List α) : (indexed i l).length = l.length := by
  induction l generalizing i with
  | nil => rfl
  | cons a l ih => exact congrArg Nat.succ (ih _)

theorem getElem?_indexed {α : Type} (i : Nat) (l : List α) (k : Nat) : (indexed i l)[k]? = l[k]?.map (fun a => (i + k, a)) := by
  induction l generalizing i k with
  | nil => rfl
  | cons a l ih =>
    cases k with
    | zero => rfl
    | succ k =>
      rw [indexed, List.getElem?_cons_succ, List.getElem?_cons_succ, ih, Nat.add_right_comm, Nat.add_assoc i k 1]

theorem length_frameBeats (f : SinFrame) : (frameBeats f).length = f.beats.length + 1 := by
  simp only [frameBeats, List.length_map, length_indexed, List.length_cons]

theorem last_frameBeats (f : SinFrame) {i : Nat} (lt : i < (frameBeats f).length) :
    ((frameBeats f)[i]?.map (fun b => b.2)) = some (decide (i = f.beats.length)) := by
  rw [length_frameBeats] at lt
  have beat : (f.header :: f.beats)[i]? = some ((f.header :: f.beats)[i]'lt) := List.getElem?_eq_getElem lt
  simp only [frameBeats, List.getElem?_map, getElem?_indexed, beat, Option.map_some, List.length_cons, Nat.zero_add, Nat.add_right_cancel_iff]

/-- Settles O46. -/
theorem streamPortsMoveWhileTheLinksAreUp : Obligations.StreamPortsMoveWhileTheLinksAreUp := by
  intro s k n f
  refine ⟨fun down => ⟨?_, ?_, ?_⟩, fun up lt => ⟨⟨if bit (s.reg 0x20014) 4 then s.wake 6 true [6] else s, next_settle_congr (if_pos ⟨lt, up⟩), ?_, ?_, ?_⟩,
    fun run => next_settle_congr (if_pos ⟨by omega, by omega, up, run⟩), next_settle_congr (if_pos ⟨by omega, by omega, up⟩)⟩,
    length_frameBeats f, fun i => last_frameBeats f⟩
  · exact next_settle_congr (if_neg (by simp [down]))
  · exact next_settle_congr (if_neg (by simp [down]))
  · exact next_settle_congr (if_neg (by simp [down]))
  · obtain ⟨p, e, woken⟩ := s.wake_eq 6 true [6]
    split
    · rw [woken]
    · rfl
  · obtain ⟨p, e, woken⟩ := s.wake_eq 6 true [6]
    split
    · rw [woken]
    · rfl
  · intro off
    rw [off]; rfl

/-! ### Rings and deadlocks -/

theorem State.queue_of_pop_handle {s v : State} {q : Nat} {h : Word} {side : BitVec 128} (popped : s.pop q false = (v, .handle h side)) :
    ((s.queue q).handles.isEmpty && (s.queue q).owed.isEmpty) = false := by
  unfold State.pop at popped
  dsimp only at popped
  split at popped
  next handles => rw [handles]; rfl
  next handles =>
    split at popped
    next owed => rw [owed]; simp
    next owed => simp at popped

theorem State.pollReady_iff (s : State) (r : Nat) : s.pollReady r = true ↔ (s.ring r).valid = true ∧ (s.region 6).state = .run ∧ s.mp.quiesce = false
    ∧ s.mp.rstq = false ∧ s.asking (.ringIdx r) = false ∧ (s.ring r).lastPoll + (100 * max 2 (s.ring r).poll : Nat) ≤ s.nowNs := by
  simp [State.pollReady, and_assoc]

/-- Settles O47. -/
theorem ringsBurstsAndDeadlocks : Obligations.RingsBurstsAndDeadlocks := by
  intro s r
  refine ⟨fun at_ index descs => ?_, fun at_ v h side => ?_, fun run => next_settle_congr (if_neg (not_not.mpr run)), fun at_ cy => ?_,
    fun q k i e found none_ => ⟨_, rfl, ?_⟩⟩
  · intro u x v w ready
    have poll (now : ready) : exec (.ringPoll r index descs at_) s = .next (settle u ((u.ringPoll r).ringAnswer r index descs)) :=
      next_settle_congr (if_pos ((u.pollReady_iff r).mpr now))
    refine ⟨fun now told => (poll now).trans (next_settle_congr ?_), fun now inbound moved => (poll now).trans (next_settle_congr ?_),
      fun notNow => next_settle_congr (if_neg (fun now => notNow ((u.pollReady_iff r).mp now)))⟩
    · have quiet : ¬ ((!x.outbound) = true ∧ x.cons ≠ x.told) := by
        rintro ⟨inbound, moved⟩
        obtain out | same := told
        · rw [out] at inbound; exact absurd inbound nofun
        · exact moved same
      simp only [State.ringPoll]
      rw [if_neg quiet]
    · have tells : (!x.outbound) = true ∧ x.cons ≠ x.told := ⟨by rw [inbound]; rfl, moved⟩
      simp only [State.ringPoll]
      rw [if_pos tells]
      rw [show (u.ring r).idx (u.ring r).outbound = x.idx false from congrArg x.idx inbound]
  · intro u x valid outbound idle run open_ open' room popped kept inner
    refine next_settle_congr ?_
    have some_ := State.queue_of_pop_handle popped
    have goes : (!x.valid || !x.outbound || x.out.isSome || decide ((u.region 6).state ≠ .run) || u.mp.quiesce || u.mp.rstq
        || decide (x.nslot ≤ (x.prod - x.cons).toNat) || ((u.queue x.queue).handles.isEmpty && (u.queue x.queue).owed.isEmpty)) = false := by
      rw [valid, outbound, idle, run, open_, open', decide_eq_false (not_le.mpr room), some_]
      rfl
    have inner' : (hExternal h && !isPlaceholder h) = false := by
      obtain h' | h' := inner <;> rw [h'] <;> simp
    show State.ringCopy u r = _
    simp only [State.ringCopy]
    rw [goes, if_neg Bool.false_ne_true, popped]
    have fresh : v.staleCode h = none := kept.elim (fun place => if_pos place) id
    simp only [fresh, inner', Bool.false_eq_true, if_false]
  · intro u run cycle quiet free
    refine next_settle_congr (?_ : State.detect u = _)
    have held : ((match u.deciding cy with | some q => (u.queue q).handles.any QEnt.poolHandle | none => false)
        && (u.mp.quiesce || u.mp.rstq)) = false := by
      obtain none_ | ⟨open_, open'⟩ := free
      · cases decides : u.deciding cy with
        | none => rfl
        | some q => simp only [none_ q decides, Bool.false_and]
      · rw [open_, open', Bool.or_self, Bool.and_false]
    simp only [State.detect, if_neg (not_not.mpr run), cycle, quiet]
    exact if_neg (by rw [Bool.false_or]; exact Bool.eq_false_iff.mp held)
  · generalize ended : s.spillEnd q k = v
    unfold State.spillEnd at ended
    simp only [found] at ended
    split at ended
    · rename_i some_
      exact nomatch none_.symm.trans some_
    subst ended
    refine ⟨?_, ?_, ?_⟩
    · rw [State.evt_st]
      exact congrArg (fun n => satAdd n 1 max32) (State.spillCnt_dropRef _ _)
    · rw [State.evt_so]
      exact (body_eq_so (body_State_dropRef _ _)).trans rfl
    · rw [State.evt_gong]
      exact (body_eq_gong (body_State_dropRef _ _)).trans rfl

end Sys2Proof.Machine
end

section
/-! PROOFS. Wake sources and wake steps (O54), state entry, rail, samples, throttle and clock reference (O55). -/

namespace Sys2Proof.Machine

@[simp] theorem State.region_evt (s : State) (kind unit : Nat) (fs : List (Nat × Nat × Nat)) (n : Nat) : (s.evt kind unit fs).region n = s.region n := by
  simp only [State.region, State.evt_pwr, State.evt_par]

@[simp] theorem State.region_report (s : State) (r : Report) (n : Nat) : (s.report r).region n = s.region n := rfl

@[simp] theorem State.reports_report (s : State) (r : Report) : (s.report r).sm.reports = s.sm.reports ++ [r] := rfl

/-! ### Wakes -/

theorem State.stepReady_next {s : State} {g : Nat} (waking : (s.region g).state = .waking) (ref : s.pwr.refAck = false)
    (rail : ¬ ((s.region g).step = 1 ∧ s.pwr.srpBusy = true)) (more : nextStep (s.region g).from_ (s.region g).step < 5) :
    s.stepReady g = s.setRegion g { s.region g with step := nextStep (s.region g).from_ (s.region g).step, tries := 0 } := by
  simp only [State.stepReady]
  rw [if_neg (by simp [waking, ref]), if_neg rail, if_pos more]

theorem State.stepReady_last {s : State} {g : Nat} (waking : (s.region g).state = .waking) (ref : s.pwr.refAck = false)
    (rail : ¬ ((s.region g).step = 1 ∧ s.pwr.srpBusy = true)) (last : 5 ≤ nextStep (s.region g).from_ (s.region g).step)
    (after : 6 ≤ g ∨ (s.region 6).state = .run ∧ (s.region 7).state = .run) : s.stepReady g = s.reachRun g := by
  simp only [State.stepReady]
  rw [if_neg (by simp [waking, ref]), if_neg rail, if_neg (not_lt.mpr last), if_neg]
  rintro ⟨core, down⟩
  obtain other | ⟨spine, control⟩ := after
  · omega
  · exact down.elim (· spine) (· control)

theorem State.stepTimeout_first {s : State} {g : Nat} (waking : (s.region g).state = .waking) (ref : s.pwr.refAck = false)
    (first : (s.region g).tries = 0) : s.stepTimeout g = s.setRegion g { s.region g with tries := 1 } := by
  simp only [State.stepTimeout]
  rw [if_neg (by simp [waking, ref]), if_pos first]

theorem State.stepTimeout_again {s : State} {g : Nat} (waking : (s.region g).state = .waking) (ref : s.pwr.refAck = false)
    (again : (s.region g).tries ≠ 0) : s.stepTimeout g = ((s.setRegion g { s.region g with state := .failed }).evt 0x00B2 0
      [(0, 16, 0x0701), (16, 4, g), (20, 3, (s.region g).step)]).report (mkReport (stepDetector (s.region g).step) (.region g) g) := by
  simp only [State.stepTimeout]
  rw [if_neg (by simp [waking, ref]), if_neg again]

/-- Settles O54. -/
theorem wakeRows : Obligations.WakeRows := by
  intro s g k addr p
  refine ⟨fun en => next_settle_congr (if_pos en), fun off => next_settle_congr (if_neg (by rw [off]; nofun)), fun en mine odd => ?_, fun other => ?_,
    fun lt en up => next_settle_congr (if_pos ⟨lt, en, up⟩), fun waking ref => ⟨fun on rail => ⟨fun more => ?_, fun last after => ?_⟩,
      fun first => next_settle_congr (State.stepTimeout_first waking ref first), fun again => ⟨_, next_settle_congr (State.stepTimeout_again waking ref again), ?_⟩⟩,
    ⟨s.regionReturn g, rfl, ?_, fun n other => ?_, rfl⟩, fun c at_ => ⟨fun on => next_settle_congr (if_neg (by rw [on]; nofun)),
      fun off => next_settle_congr (if_pos off)⟩⟩
  · exact next_settle_congr (if_pos (by simp [en, mine, odd]))
  · refine next_settle_congr (if_neg ?_)
    obtain h | h | h := other <;> simp [h]
  · refine next_settle_congr ((if_neg (by rw [on]; nofun)).trans ?_)
    rw [State.stepReady_next waking ref rail more]
  · refine next_settle_congr ((if_neg (by rw [on]; nofun)).trans ?_)
    rw [State.stepReady_last waking ref rail last after]
  · refine ⟨?_, fun n other => ?_, ?_⟩
    · simp
    · simp [other]
    · rw [State.reports_report, State.evt_sm]
      rfl
  · simp [State.regionReturn]
  · simp [State.regionReturn, other]

/-! ### Samples -/

/-- What a sample leaves of a region and the rest: its temperature, the cores, the gongs and the parameters. -/
def State.sampled (s : State) (n : Nat) : Int × SMap Core × Gong × Params := ((s.region n).temp, s.cores, s.gong, s.par)

theorem State.sampled_setRegion {s : State} {g : Nat} {x : Region} (same : x.temp = (s.region g).temp) (n : Nat) :
    (s.setRegion g x).sampled n = s.sampled n := by
  simp only [State.sampled, State.region_setRegion]
  split
  next here => rw [here, same]; rfl
  · rfl

theorem State.sampled_onRegion {s : State} {f : Region → Region} (same : ∀ x, (f x).temp = x.temp) (g n : Nat) :
    (s.onRegion g f).sampled n = s.sampled n := State.sampled_setRegion (same _) n

theorem State.sampled_evt (s : State) (kind unit : Nat) (fs : List (Nat × Nat × Nat)) (n : Nat) : (s.evt kind unit fs).sampled n = s.sampled n := by
  obtain ⟨e, record⟩ := s.evt_eq kind unit fs
  rw [record]
  rfl

theorem State.sampled_applyRegion (s : State) (g mhz mv n : Nat) : (s.applyRegion g mhz mv).sampled n = s.sampled n := by
  refine State.sampled_setRegion ?_ n
  rfl

theorem State.sampled_forceDown (s : State) (a b n : Nat) : (s.forceDown a b).sampled n = s.sampled n := by
  unfold State.forceDown
  dsimp only
  refine (State.sampled_evt _ _ _ _ n).trans ((State.sampled_onRegion ?_ _ n).trans ((State.sampled_applyRegion _ _ _ _ n).trans rfl))
  exact fun _ => rfl

theorem State.sampled_samplePair (s : State) (a b k n : Nat) : (s.samplePair a b k).sampled n = s.sampled n := by
  have noted (v : Nat) : (s.onRegion a (fun r => { r with beyond := setField r.beyond k 1 v })).sampled n = s.sampled n :=
    State.sampled_onRegion (by exact fun _ => rfl) a n
  unfold State.samplePair
  dsimp only
  split
  · exact (State.sampled_forceDown _ _ _ _).trans (noted _)
  · exact noted _

theorem State.sampled_sampleTemp (s : State) (g n : Nat) : (s.sampleTemp g).sampled n = s.sampled n := by
  have noted (v : Nat) : (s.setRegion g { s.region g with beyond := setField (s.region g).beyond 2 1 v }).sampled n = s.sampled n :=
    State.sampled_setRegion (by rfl) n
  unfold State.sampleTemp
  dsimp only
  split
  · exact noted _
  · exact noted _

/-- The samples of one region's temperature. -/
def State.sampleOne (temps : List Int) (s : State) (g : Nat) : State :=
  match temps[g]? with
  | some t => (s.onRegion g (fun r => { r with temp := t })).sampleTemp g
  | none => s

theorem State.sampled_sampleOne (temps : List Int) (s : State) (g n : Nat) : (s.sampleOne temps g).sampled n
    = (if n = g then temps[g]?.getD (s.region n).temp else (s.region n).temp, s.cores, s.gong, s.par) := by
  unfold State.sampleOne
  cases sample : temps[g]? with
  | some t =>
    refine (State.sampled_sampleTemp _ g n).trans ?_
    simp only [State.sampled, State.region_onRegion, Option.getD_some]
    split <;> rfl
  | none => simp [State.sampled]

theorem State.sampled_sampleAll (temps : List Int) (l : List Nat) (s : State) (n : Nat) : (l.foldl (State.sampleOne temps) s).sampled n
    = (if n ∈ l then temps[n]?.getD (s.region n).temp else (s.region n).temp, s.cores, s.gong, s.par) := by
  induction l generalizing s with
  | nil => rfl
  | cons g l ih =>
    obtain ⟨temp, cores, gong, par⟩ : _ ∧ _ ∧ _ ∧ _ := by
      simpa only [State.sampled, Prod.mk.injEq] using State.sampled_sampleOne temps s g n
    rw [List.foldl_cons, ih, temp, cores, gong, par]
    by_cases here : n = g
    · subst here
      by_cases mem : n ∈ l <;> cases temps[n]? <;> simp [mem]
    · simp [here]

theorem State.sampled_sample (s : State) (temps : List Int) (n : Nat) : (s.sample temps).sampled n
    = (if n < 7 ∧ s.hasRegion n = true then temps[n]?.getD (s.region n).temp else (s.region n).temp, s.cores, s.gong, s.par) := by
  have pairs (l : List Nat) (u : State) : (l.foldl (fun s g =>
      (if g + 1 < s.par.ncg then s.samplePair g (g + 1) 0 else s).samplePair g 6 1) u).sampled n = u.sampled n := by
    refine foldl_keeps (State.sampled · n) _ (fun s g => (State.sampled_samplePair _ _ _ _ n).trans ?_) l u
    split
    · exact State.sampled_samplePair _ _ _ _ n
    · rfl
  refine (pairs _ _).trans ((State.sampled_sampleAll temps _ s n).trans ?_)
  simp only [List.mem_filter, List.mem_range]

/-! ### Throttle, rail and reports -/

/-- A revocation touches the admission and the cores alone. -/
theorem State.revokeOne_eq (s : State) (pc : Nat) (c : Ctx) : ∃ p cs, (s.revokeOne pc c).1 = { s with pwr := p, cores := cs }
    ∧ p.throttled = s.pwr.throttled := by
  unfold State.revokeOne
  dsimp only
  split
  · exact ⟨_, _, rfl, rfl⟩
  · cases ((s.core pc).ctx c).held <;> exact ⟨_, _, rfl, rfl⟩

theorem State.throttle_edge {s : State} {b : Bool} (edge : b ≠ s.pwr.throttled) :
    (s.throttle b).pwr.throttled = b ∧ (s.throttle b).gong = s.gong ∧ (s.throttle b).tu = s.tu := by
  simp only [State.throttle]
  rw [if_neg edge]
  simp only [State.evt_pwr, State.evt_gong, State.evt_tu]
  split
  · refine List.foldlRecOn (motive := fun (a : State × Nat) => a.1.pwr.throttled = b ∧ a.1.gong = s.gong ∧ a.1.tu = s.tu) _ _
      ⟨rfl, rfl, rfl⟩ fun a keeps w _ => ?_
    obtain ⟨p, cs, revoked, same⟩ := a.1.revokeOne_eq w.1 w.2
    obtain ⟨throttled, gong, tu⟩ := keeps
    dsimp only
    rw [revoked]
    exact ⟨same.trans throttled, gong, tu⟩
  · exact ⟨rfl, rfl, rfl⟩

theorem foldl_report {α : Type} (f : α → Report) (l : List α) (s : State) :
    l.foldl (fun s g => s.report (f g)) s = { s with sm := { s.sm with reports := s.sm.reports ++ l.map f } } := by
  induction l generalizing s with
  | nil => simp
  | cons g l ih =>
    rw [List.foldl_cons, ih]
    simp only [State.report, List.map_cons, List.append_assoc, List.singleton_append]

theorem State.entryDone_reached {s w : State} {g : Nat} {st : RgnState} (enters : (s.region g).entering = some st)
    (then_ : s.elapseTo ((s.region g).since + s.entryTicks st) = w) (quiet : (w.region g).pendWake = 0) (other : g ≠ 7) :
    s.entryDone g = (State.pwrState (w.onRegion g (fun r => { r with state := st, entering := none, pendWake := 0, since := w.tu.ltc }))
      0 g 0 st.code (w.tu.ltc - (w.region g).since)).lose g st := by
  simp only [State.entryDone, enters, if_neg (show ¬ (g = 7 ∧ st ≠ .idle) from fun h => other h.1), then_]
  exact if_pos quiet

/-- Settles O55. -/
theorem powerRows : Obligations.PowerRows := by
  intro s g at_ b ts u
  refine ⟨fun st enters => fun quiet other => ⟨_, next_settle_congr (State.entryDone_reached enters rfl quiet other), ?_⟩, fun none_ => ?_,
    fun busy => ⟨_, rfl, ?_⟩, fun busy => ⟨_, rfl, ?_⟩, fun y => ?_, fun busy late => ⟨fun first => ?_, fun again => ?_⟩,
    ⟨_, rfl, ?_⟩, fun same => next_settle_congr (if_pos same), fun edge => ⟨_, rfl, State.throttle_edge edge⟩, fun on fast slow => ?_, fun on slow => ⟨_, rfl, ?_⟩,
    fun ack req late => ⟨_, rfl, ?_⟩, fun on => ⟨_, rfl, ?_⟩⟩
  · refine ⟨?_, ?_, ?_, State.evt_tu _ _ _ _, fun n off => ?_, State.evt_cores _ _ _ _⟩
    · simp [State.pwrState]
    · simp [State.pwrState]
    · simp [State.pwrState]
    · simp [State.pwrState, off]
  · exact next_settle_congr (by simp only [State.entryDone, none_])
  · simp [State.srpAnswer, State.srpEnd, State.srpRec, busy]
  · simp [State.srpAnswer, State.srpEnd, State.srpRec, busy]
  · exact next_settle_congr (if_pos (by simp))
  · have due : ¬ (!u.pwr.srpBusy || decide (u.tu.ltc < u.pwr.srpAt + u.ticksOf 200000)) = true := by simp [busy, late]
    exact next_settle_congr ((if_neg due).trans (if_pos first))
  · have due : ¬ (!u.pwr.srpBusy || decide (u.tu.ltc < u.pwr.srpAt + u.ticksOf 200000)) = true := by simp [busy, late]
    refine ⟨_, next_settle_congr ((if_neg due).trans (if_neg (not_lt.mpr again))), ?_⟩
    simp only [State.srpEnd, State.srpRec, State.report_pwr, State.evt_pwr, State.reports_report, List.mem_append, List.mem_singleton, or_true, and_true, true_and]
    exact rfl
  · have sampled (n : Nat) := State.sampled_sample u ts n
    simp only [State.sampled, Prod.mk.injEq] at sampled
    refine ⟨(sampled 0).2.1, (sampled 0).2.2.1, fun n t lt has sample => ?_⟩
    rw [(sampled n).1, if_pos ⟨lt, has⟩, sample]
    rfl
  · refine next_settle_congr ((if_neg (by rw [on]; nofun)).trans (if_pos ?_))
    rw [fast]
    exact slow
  · have noted (v : State) : (v.portRec 0x0608).tu = v.tu ∧ (v.portRec 0x0608).pwr = v.pwr ∧ (v.portRec 0x0608).gong = v.gong :=
      ⟨State.evt_tu _ _ _ _, State.evt_pwr _ _ _ _, State.evt_gong _ _ _ _⟩
    simp only [State.refSel, on, slow, Bool.false_and, Bool.not_false, Bool.true_and, Bool.false_eq_true, if_false, if_true, noted, and_self]
  · have reports : u.refLate = u.report (mkReport 6 .clkRef 0) := if_pos (by simp [ack, req, late])
    rw [show (s.elapseTo at_).refLate = _ from reports]
    exact ⟨rfl, rfl⟩
  · rw [State.corePgFall, if_neg (by rw [on]; nofun), foldl_report]
    exact ⟨rfl, rfl, rfl⟩

end Sys2Proof.Machine
end

section
/-! PROOFS. Quiesce and resets (O53), starts, their steps and the test access port (O57). -/

namespace Sys2Proof.Machine

/-! ### Quiesce -/

/-- A check of the quiesce acknowledges it where no tag and no translation is outstanding. -/
theorem State.quiesceCheck_spec {s : State} (asked : s.mp.quiesce = true) (open_ : s.mp.ack = false) :
    ∃ e, s.quiesceCheck = { s with mp := { s.mp with ack := !s.anyTag && s.mp.xreqs.isEmpty }, ev := e } := by
  cases free : !s.anyTag && s.mp.xreqs.isEmpty
  · refine ⟨s.ev, (if_neg ?_).trans ?_⟩
    · simp [asked, open_, free]
    · conv_rhs => rw [← open_]
  · obtain ⟨e, record⟩ := State.evt_eq { s with mp := { s.mp with ack := true } } 0x00A3 9
      [(0, 1, 0), (1, 32, s.ns10 (s.tu.ltc - s.mp.qSince)), (33, 12, s.mp.qHeld)]
    refine ⟨e, (if_pos ?_).trans record⟩
    simp [asked, open_, free]

/-- The end of a reset-time quiesce leaves no reset waiting, and touches neither gongs nor the time unit. -/
theorem State.rstLate_due {s : State} (waits : s.mp.rstq = true) (late : s.mp.rstSince + s.ticksOf 4000 ≤ s.tu.ltc) :
    s.rstLate.mp.rstq = false ∧ s.rstLate.gong = s.gong ∧ s.rstLate.tu = s.tu := by
  have due : ¬ (!s.mp.rstq || decide (s.tu.ltc < s.mp.rstSince + s.ticksOf 4000)) = true := by simp [waits, late]
  have faults (l : List Nat) (u : State) : (l.foldl (fun s p => s.mpFault 0x040B p 0 0 0) u).mp = u.mp
      ∧ (l.foldl (fun s p => s.mpFault 0x040B p 0 0 0) u).offPort = u.offPort :=
    ⟨foldl_keeps State.mp _ (fun s p => State.evt_mp _ _ _ _) l u, foldl_keeps State.offPort _ (fun s p => State.evt_offPort _ _ _ _) l u⟩
  unfold State.rstLate
  rw [if_neg due]
  dsimp only
  generalize fold : List.foldl _ s _ = v
  have kept : v.offPort = s.offPort := by
    rw [← fold]
    refine foldl_keeps State.offPort _ (fun s r => ?_) _ s
    split <;> rfl
  have passed : v.rstPass.offPort = s.offPort := (State.evt_offPort _ _ _ _).trans kept
  obtain ⟨ports, rest⟩ := faults ((List.range 8).filter (fun p => !(v.rstPass.mport p).late.isEmpty)) v.rstPass
  have all := rest.trans passed
  exact ⟨(congrArg Ports.rstq (ports.trans (State.evt_mp _ _ _ _))).trans rfl, (congrArg State.gong all :), (congrArg State.tu all :)⟩

/-- Settles O53. -/
theorem quiesceAndResets : Obligations.QuiesceAndResets := by
  intro s at_
  refine ⟨fun off => ⟨_, rfl, ?_⟩, fun on => next_settle_congr (if_pos on), rfl, fun waits late => ⟨_, rfl, ?_⟩, fun on none_ => ⟨_, rfl, ?_⟩, ⟨_, rfl, ?_⟩⟩
  · have up : s.quiesceUp = State.quiesceCheck { s with mp := { s.mp with quiesce := true, ack := false, qSince := s.tu.ltc, qHeld := s.allTags } } :=
      if_neg (by rw [off]; nofun)
    obtain ⟨e, checked⟩ := State.quiesceCheck_spec
      (s := { s with mp := { s.mp with quiesce := true, ack := false, qSince := s.tu.ltc, qHeld := s.allTags } }) rfl rfl
    rw [up, checked, settle_mp, settle_cores, settle_gong]
    refine ⟨rfl, rfl, ?_, rfl, rfl⟩
    simp only [Bool.and_eq_true, Bool.not_eq_true', List.isEmpty_iff]
    exact Iff.rfl
  · simp only [settle_mp, settle_gong, settle_tu]
    exact State.rstLate_due waits late
  · have warm : s.warmReset = s.blockReset 1 := by
      simp only [State.warmReset, on, none_, Bool.false_eq_true, if_false]
    have reset := State.blockReset_spec (s := s) (by rw [State.inReset, none_]; rfl) 1
    rw [warm]
    simp only [settle_boot, settle_gong, settle_retain, settle_cfg, settle_sm, settle_so, settle_lcs, core_settle, reset.boot, reset.gong,
      reset.retain, reset.cfg, reset.fenced, reset.incs, reset.so, reset.lcs, true_and]
    refine ⟨rfl, fun pc lt => ?_⟩
    rw [reset.core pc lt]
    exact ⟨rfl, rfl, rfl⟩
  · simp only [settle_boot, settle_gong, settle_retain, settle_cfg, settle_cores, settle_regs, settle_tu, settle_pins]
    exact ⟨rfl, rfl, rfl, rfl, rfl, rfl, rfl, rfl⟩

/-! ### Starts -/

theorem State.boot_romVotes (s : State) (on : Bool) : (s.romVotes on).boot = s.boot := by
  unfold State.romVotes
  exact foldl_keeps State.boot _ (fun _ _ => by rfl) _ s

theorem State.boot_linksUp (s : State) : s.linksUp.boot = s.boot := by
  unfold State.linksUp
  exact foldl_keeps State.boot _ (fun _ _ => by rfl) _ _

theorem State.boot_quiesceCheck (s : State) : s.quiesceCheck.boot = s.boot := by
  unfold State.quiesceCheck
  dsimp only
  split
  · exact State.evt_boot _ _ _ _
  · rfl

theorem State.pend_endStart (s : State) (st : BootState) (code detail : Nat) : (s.endStart st code detail).boot.pend = s.boot.pend := by
  unfold State.endStart
  dsimp only
  rw [State.evt_boot]
  rfl

theorem State.pend_minimal (s : State) : s.minimal.boot.pend = s.boot.pend := by
  unfold State.minimal
  exact (State.pend_endStart _ _ _ _).trans (congrArg Boot.pend (foldl_keeps State.boot _ (fun _ _ => by rfl) _ s))

/-- A start that takes its entry is no longer due. -/
theorem State.pend_startEntry (s : State) (kind : Nat) (key : KeyPort) : (s.startEntry kind key).boot.pend = none := by
  unfold State.startEntry
  dsimp only
  generalize entry : State.romVotes _ true = u
  have none_ : u.boot.pend = none := by rw [← entry, State.boot_romVotes]
  have checked : (if u.mp.quiesce then u.quiesceCheck else u).boot.pend = none := by
    split
    · rw [State.boot_quiesceCheck]; exact none_
    · exact none_
  generalize (if u.mp.quiesce then u.quiesceCheck else u) = w at checked ⊢
  split
  · exact (State.pend_minimal w).trans checked
  · split
    · exact (State.pend_endStart _ _ _ _).trans checked
    · split
      · exact checked
      · exact (State.pend_endStart _ _ _ _).trans checked

theorem State.limnyEnd_cold {s : State} (state : s.boot.state = .limnyStart) (cold : s.boot.kind = 0) :
    s.limnyEnd true = ((State.romVotes { s with boot := { s.boot with
      state := .running, time := min max32 s.startUs, fwVer := s.boot.newVer, fwSvn := s.boot.newSvn
      code := if s.boot.warn then s.boot.code else 0, detail := 0 } } false).linksUp).bootRec 0 := by
  generalize running : ({ s with boot := { s.boot with
    state := .running, time := min max32 s.startUs, fwVer := s.boot.newVer, fwSvn := s.boot.newSvn
    code := if s.boot.warn then s.boot.code else 0, detail := 0 } } : State) = u
  have kind : (u.romVotes false).linksUp.boot.kind = 0 := by
    rw [State.boot_linksUp, State.boot_romVotes, ← running]
    exact cold
  have kind' : ((u.romVotes false).linksUp.bootRec 0).boot.kind = 0 := by
    rw [State.bootRec, State.evt_boot]
    exact kind
  simp only [State.limnyEnd, state, running, kind, Bool.not_true, Bool.false_eq_true, if_false, if_true]
  exact if_neg fun h => h.1 kind'

/-- Settles O57. -/
theorem bootRows : Obligations.BootRows := by
  intro s key i core sp ct at_ u v
  have enabled (test : s.par.testEn = true) (code : Nat) (f : State → State) :
      s.jtag code true f = f { s with boot := { s.boot with jtagIr := jtagCode code } } := if_neg (by rw [test]; nofun)
  refine ⟨fun due on up test => ?_, fun other => ?_, fun k due warm passed test => ?_, fun out state => ⟨?_, fun invalid => ?_⟩,
    fun out state => ⟨?_, fun cold => ?_⟩, fun out state late => ?_, ⟨_, rfl, ?_⟩, ⟨_, rfl, ?_⟩, fun test => ?_, fun test => ⟨?_, ?_⟩⟩
  · have starts : exec (.coldStart key i) s = .next (settle v (v.startEntry 0 key)) := if_pos ⟨due, by rw [on]; rfl, up, by rw [test]; rfl⟩
    refine ⟨starts, _, starts, rfl, ?_⟩
    rw [settle_boot]
    exact State.pend_startEntry _ _ _
  · refine if_neg fun ⟨due, on, up, test⟩ => ?_
    obtain h | h | h | h := other
    · exact h due
    · rw [h] at on; exact absurd on nofun
    · rw [h] at up; exact absurd up nofun
    · rw [h] at test; exact absurd test nofun
  · refine next_settle_congr ?_
    simp only [due]
    exact if_pos ⟨warm, by rw [passed]; rfl, by rw [test]; rfl⟩
  · refine next_settle_congr ((if_neg (by rw [out]; nofun)).trans ?_)
    simp only [State.bistEnd, state]
    rfl
  · have none_bad : (List.range s.par.npc).filter (fun pc => (0 : BitVec 18).getLsbD pc) = [] := by simp
    have waits : s.bistEnd 0 false false false = { s with boot := { s.boot with bist := 0, state := .waitFetch } } := by
      simp only [State.bistEnd, state, none_bad]
      exact if_neg (show ¬ s.boot.addrValid = true from by rw [invalid]; nofun)
    refine ⟨_, next_settle_congr ((if_neg (by rw [out]; nofun)).trans waits), ?_⟩
    rw [settle_boot, settle_cores]
    exact ⟨rfl, rfl, rfl⟩
  · have fails : s.limnyEnd false = s.failStart 0x010E 10 := by
      simp only [State.limnyEnd, state]
      rfl
    exact next_settle_congr ((if_neg (by rw [out]; nofun)).trans fails)
  · refine ⟨_, next_settle_congr ((if_neg (by rw [out]; nofun)).trans (State.limnyEnd_cold state cold)), ?_⟩
    rw [settle_boot, State.bootRec, State.evt_boot, State.boot_linksUp, State.boot_romVotes]
    exact ⟨rfl, rfl, rfl, rfl⟩
  · have late' := decide_eq_true late
    have expires : u.wdogEnd = u.failStart 0x010B 6 := by
      simp only [State.wdogEnd]
      obtain h | h := state
      · rw [h]; exact if_pos late'
      · rw [h]; exact if_pos late'
    exact next_settle_congr ((if_neg (by rw [out]; nofun)).trans expires)
  · simp only [State.jtag]
    rw [settle_boot, settle_cores]
    exact ⟨rfl, rfl, rfl⟩
  · simp only [State.jtag]
    rw [settle_boot, settle_cores]
    exact ⟨rfl, rfl, rfl⟩
  · have bypass (code : Nat) (f : State → State) : s.jtag code true f = { s with boot := { s.boot with jtagIr := jtagCode 0xFF } } :=
      if_pos (by rw [test]; rfl)
    refine ⟨_, next_settle_congr (bypass _ _), ?_, ?_, next_settle_congr (bypass _ _)⟩
    · rw [settle_boot]
    · rw [settle_cores]
  · refine ⟨_, next_settle_congr (enabled test _ _), ?_⟩
    rw [settle_boot, settle_cores]
    exact ⟨rfl, rfl⟩
  · refine ⟨_, next_settle_congr (enabled test _ _), ?_⟩
    rw [settle_boot]
    exact ⟨rfl, rfl⟩

end Sys2Proof.Machine
end

section
/-! PROOFS. Configuration events (O48). -/

namespace Sys2Proof.Machine

/-! ### What ends a load -/

@[simp] theorem State.cfg_cfgLoadRec (s : State) (code id : Nat) (m : Margin) (w : Bool × Bool) : (s.cfgLoadRec code id m w).cfg = s.cfg :=
  State.evt_cfg _ _ _ _

@[simp] theorem State.cores_cfgLoadRec (s : State) (code id : Nat) (m : Margin) (w : Bool × Bool) : (s.cfgLoadRec code id m w).cores = s.cores :=
  State.evt_cores _ _ _ _

@[simp] theorem State.gong_cfgLoadRec (s : State) (code id : Nat) (m : Margin) (w : Bool × Bool) : (s.cfgLoadRec code id m w).gong = s.gong :=
  State.evt_gong _ _ _ _

/-- A load that fails leaves cores and gongs. -/
theorem State.loadFail_spec (s : State) (code : Nat) : (s.loadFail code).cfg.state = .failed ∧ (s.loadFail code).cfg.code = code
    ∧ (s.loadFail code).cfg.staged = none ∧ (s.loadFail code).cores = s.cores ∧ (s.loadFail code).gong = s.gong := by
  simp only [State.loadFail, State.cfg_cfgLoadRec, State.cores_cfgLoadRec, State.gong_cfgLoadRec]
  simp [State.cfgPhase]

theorem State.discardStaged_spec (s : State) : s.discardStaged.cfg = { s.cfg with
      staged := none, stagedId := 0, state := .empty, code := 0x0210, latched := false, tries := 0 } ∧ s.discardStaged.cores = s.cores := by
  simp [State.discardStaged]

theorem State.cfg_writeBulk (s : State) (x : Section) (b : List Byte) : (s.writeBulk x b).cfg = s.cfg := by
  unfold State.writeBulk
  split <;> rfl

theorem State.cfg_writeBulks (l : List Section) (s : State) : (s.writeBulks l).1.cfg = s.cfg := by
  induction l generalizing s with
  | nil => rfl
  | cons x l ih =>
    unfold State.writeBulks
    dsimp only
    split
    · exact (ih _).trans (State.cfg_writeBulk _ _ _)
    · exact State.cfg_writeBulk _ _ _

/-- The code of the margins that a load ends with (R220, R223). -/
def CfgUnit.marginCode (c : CfgUnit) : Nat := if c.margin.slack < 52 then 0x0204 else if c.margin.spares = 0 then 0x0205 else 0

theorem CfgUnit.warnings_writing {c : CfgUnit} (state : c.state = .writing) :
    c.warnings = (decide (c.margin.slack < 52), decide (c.margin.spares = 0)) := by
  simp only [CfgUnit.warnings, state]

theorem State.loadDone_staged {s w : State} {im : Image} (state : s.cfg.state = .writing) (staged : s.cfg.staged = some im) (sound : s.cfg.err = none)
    (arrived : s.cfgWaits = false) (written : s.writeBulks (im.sects.filter (fun x => isBulk x.ty)) = (w, true))
    (unlatched : w.cfg.latched = false) (manual : bit (w.reg 0x4000C) 3 = false) :
    s.loadDone.cfg.state = .staged ∧ s.loadDone.cfg.tries = 0 ∧ s.loadDone.cfg.stagedId = BitVec.ofNat 32 (im.hdr 12 4)
      ∧ s.loadDone.cfg.code = w.cfg.marginCode ∧ s.loadDone.cores = w.cores ∧ s.loadDone.gong = w.gong ∧ s.loadDone.cfg.active = w.cfg.active := by
  have warnings := CfgUnit.warnings_writing (c := w.cfg) (by rw [show w = _ from (congrArg Prod.fst written).symm, State.cfg_writeBulks, state])
  simp only [State.loadDone, state, staged, sound, arrived, written, unlatched, manual, Bool.or_self, Option.isSome_none, Bool.not_true, Bool.false_eq_true,
    if_false, State.cfg_cfgLoadRec, State.cores_cfgLoadRec, State.gong_cfgLoadRec, warnings, decide_eq_true_eq]
  simp [State.cfgPhase, CfgUnit.marginCode]

/-! ### The checks of the carillon store -/

theorem State.checkActive_none {s : State} (none_ : s.cfg.active = none) : s.checkActive = s := by
  simp only [State.checkActive, none_]

theorem State.checkActive_bad {s : State} {im : Image} (active : s.cfg.active = some im) (valid : s.cfg.activeValid = true)
    (bad : s.storeFails im s.cfg.half = true) :
    s.checkActive = (s.cfgCheckRec false (im.hdr 12 4)).report (mkReport 11 .smOrSpineTarget 0) := by
  simp only [State.checkActive, active, valid, bad, Bool.and_self, if_true]

theorem State.checkStaged_empty {s : State} (empty : s.cfg.state = .empty) : s.checkStaged = s := by
  simp only [State.checkStaged, empty]

theorem State.checkStaged_bad {s : State} {im : Image} (state : s.cfg.state = .staged) (staged : s.cfg.staged = some im)
    (bad : s.storeFails im (!s.cfg.half) = true) : s.checkStaged = (s.cfgCheckRec true (im.hdr 12 4)).discardStaged := by
  simp only [State.checkStaged, state, staged, bad, if_true]

theorem State.resumeEnd_running {s : State} (state : s.boot.state = .running) :
    s.resumeEnd = match s.resumeDone.2 with | some code => s.resumeDone.1.failStart 0x010F code | none => s.resumeDone.1 := by
  simp only [State.resumeEnd, state]
  rcases s.resumeDone with ⟨v, _ | code⟩ <;> rfl

/-- Settles O48. -/
theorem configurationEvents : Obligations.ConfigurationEvents := by
  intro s at_
  refine ⟨fun im state staged => ⟨fun failed => ⟨_, rfl, ?_⟩, fun sound arrived good unlatched manual => ⟨_, rfl,
      State.loadDone_staged state staged sound arrived (Prod.ext rfl good) unlatched manual⟩⟩,
    fun run => ⟨fun im active valid bad empty => ⟨_, next_settle_congr (if_pos run), ?_⟩, fun im none_ state staged bad => ⟨_, next_settle_congr (if_pos run), ?_⟩,
      fun none_ empty => next_settle_congr ((if_pos run).trans ?_)⟩, fun out state => ⟨fun done => ?_, fun code failed => ?_⟩⟩
  · have fails : s.loadDone = s.loadFail 0x020B := by
      simp only [State.loadDone, state, staged, failed, if_true]
    rw [fails]
    exact s.loadFail_spec _
  · have reported : (State.cfgCheckRec _ false (im.hdr 12 4)).cfg = (s.elapseTo at_).cfg := State.evt_cfg (s.elapseTo at_) _ _ _
    rw [State.checkActive_bad active valid bad, State.checkStaged_empty (s := State.report _ _) ((congrArg CfgUnit.state reported).trans empty)]
    refine ⟨?_, reported, State.evt_cores _ _ _ _⟩
    rw [State.reports_report, State.cfgCheckRec, State.evt_sm]
  · rw [State.checkActive_none none_, State.checkStaged_bad state staged bad]
    obtain ⟨cfg, cores⟩ := (State.cfgCheckRec (s.elapseTo at_) true (im.hdr 12 4)).discardStaged_spec
    rw [cfg, cores]
    exact ⟨rfl, rfl, rfl, State.evt_cores _ _ _ _⟩
  · rw [State.checkActive_none none_, State.checkStaged_empty empty]
  · refine next_settle_congr ((if_neg (by rw [out]; nofun)).trans ((State.resumeEnd_running state).trans ?_))
    rw [done]
  · refine next_settle_congr ((if_neg (by rw [out]; nofun)).trans ((State.resumeEnd_running state).trans ?_))
    rw [failed]

end Sys2Proof.Machine
end

section
/-! PROOFS. What follows an effect leaves the queues of the admission as they are (R319). -/

namespace Sys2Proof.Machine

/-- The state without its streams and its event plane. -/
def State.offStream (s : State) : State := { s with st := Streams.reset, ev := Events.reset }

theorem State.offStream_evt (s : State) (kind unit : Nat) (fs : List (Nat × Nat × Nat)) : (s.evt kind unit fs).offStream = s.offStream := by
  obtain ⟨e, record⟩ := s.evt_eq kind unit fs
  rw [record]
  rfl

theorem State.offStream_reserve (s : State) (q n : Nat) : (s.reserve q n).offStream = s.offStream :=
  foldl_keeps State.offStream (fun s k => s.setQueue k { s.queue k with reserved := (s.queue k).reserved + n }) (fun _ _ => rfl) _ s

theorem State.offStream_unreserve (s : State) (ks : List Nat) : (s.unreserve ks).offStream = s.offStream :=
  foldl_keeps State.offStream (fun s k => s.setQueue k { s.queue k with reserved := (s.queue k).reserved - 1 }) (fun _ _ => rfl) _ s

theorem State.offStream_freeBuffer (s : State) (b : Nat) : (s.freeBuffer b).offStream = s.offStream := by
  unfold State.freeBuffer
  dsimp only
  split
  · split
    · split <;> rfl
    · rfl
  · split
    · rfl
    · split <;> rfl

theorem State.offStream_dropRef (s : State) (b : Nat) : (s.dropRef b).offStream = s.offStream := by
  unfold State.dropRef
  dsimp only
  split
  · exact s.offStream_freeBuffer b
  · rfl

theorem State.offStream_owe (s : State) (q index : Nat) (h : Word) : (s.owe q index h).offStream = s.offStream := by
  unfold State.owe
  dsimp only
  split
  · exact s.offStream_evt _ _ _
  · rfl

theorem State.offStream_push (s : State) (q : Nat) (h : Word) (side : BitVec 128) (held : List Nat) : (s.push q h side held).offStream = s.offStream := by
  have shed (v : State) (g : Nat) (l : List Nat) : (l.foldl (fun s k => s.shedOne g k) v).offStream = v.offStream :=
    foldl_keeps State.offStream _ (fun _ _ => by exact (State.offStream_evt _ _ _ _).trans rfl) l v
  have queued (v : State) (g : Nat) (l : List Nat) : (l.foldl (fun s rq => s.enqueue rq h side (some g) (held.contains rq)) v).offStream = v.offStream :=
    foldl_keeps State.offStream _ (fun _ _ => by rfl) l v
  have owed (v : State) (g : Peal) (l : List Nat) : (l.foldl (fun s k => s.owe (g.recvQueue k) (hIndex h) h) v).offStream = v.offStream :=
    foldl_keeps State.offStream _ (fun _ _ => by exact State.offStream_owe _ _ _ _) l v
  have lag (v : State) (g : Nat) : (if v.pealSheds g then (v.lagging g).foldl (fun s k => s.shedOne g k) v else v).offStream = v.offStream := by
    split
    · exact shed _ _ _
    · rfl
  unfold State.push
  dsimp only
  split
  · generalize pushed : List.foldl _ (State.unreserve _ _) _ = w
    have kept : w.offStream = s.offStream := by
      rw [← pushed, owed, State.offStream_unreserve, queued]
      exact lag s (s.queue q).peal
    have dropped (b : Nat) : (w.dropRef b).offStream = s.offStream := (w.offStream_dropRef b).trans kept
    split
    · exact kept
    · split
      all_goals
        split
        · exact dropped _
        · exact kept
  · rfl

theorem State.offStream_sinPush (s : State) (k : Nat) (r : SinRecv) : (s.sinPush k r).offStream = s.offStream := by
  unfold State.sinPush
  dsimp only
  split
  · rfl
  · exact (State.offStream_push _ _ _ _ _).trans rfl

theorem State.offStream_sinGiveUp (s : State) (k : Nat) (r : SinRecv) (last : Bool) : (s.sinGiveUp k r last).offStream = s.offStream :=
  (State.offStream_evt _ _ _ _).trans ((State.offStream_dropRef _ _).trans ((State.offStream_unreserve _ _).trans rfl))

theorem State.offStream_takeBuffers (s : State) (p n : Nat) : (s.takeBuffers p n).1.offStream = s.offStream :=
  (foldl_keeps State.offStream (fun (s : State) b => s.setBuffer b { s.buffer b with refs := 1, side := 0 }) (fun _ _ => rfl) _ _).trans rfl

theorem State.offStream_sinBeat (s : State) (k : Nat) : (s.sinBeat k).offStream = s.offStream := by
  unfold State.sinBeat
  dsimp only
  split
  · rfl
  · split
    · rfl
    · split
      · split
        · rfl
        · split
          · split
            · exact (State.offStream_sinPush _ _ _).trans rfl
            · rfl
          · exact (State.offStream_sinGiveUp _ _ _ _).trans rfl
      · split
        · split
          · exact (State.offStream_evt _ _ _ _).trans rfl
          · split
            · exact (show State.offStream (State.setSport _ _ _) = _ from rfl).trans
                ((State.offStream_takeBuffers _ _ _).trans (State.offStream_reserve _ _ _))
            · rfl
        · exact (State.offStream_evt _ _ _ _).trans rfl

theorem State.offStream_sinDrain (k n : Nat) (s : State) : (State.sinDrain k n s).offStream = s.offStream := by
  induction n generalizing s with
  | zero => rfl
  | succ n ih => exact (ih _).trans (s.offStream_sinBeat k)

theorem State.offStream_sinAgain (s : State) (k : Nat) : (s.sinAgain k).offStream = s.offStream := by
  unfold State.sinAgain
  split
  · split
    · exact State.offStream_sinPush _ _ _
    · rfl
  · rfl

theorem State.offStream_sinPump (s : State) : s.sinPump.offStream = s.offStream := by
  unfold State.sinPump
  split
  · rfl
  · exact foldl_keeps State.offStream _ (fun s e => (State.offStream_sinDrain _ _ _).trans (s.offStream_sinAgain _)) _ s

/-- The queues of the admission. -/
def State.acQueues (s : State) : List AcReq × List AcReq := (s.pwr.fgQ, s.pwr.bgQ)

theorem State.acQueues_wakeRegion (s : State) (g src : Nat) (level : Bool) : (s.wakeRegion g src level).1.acQueues = s.acQueues := by
  unfold State.wakeRegion
  dsimp only
  split
  · split
    · split <;> rfl
    · simp only [State.acQueues, State.pwrState, State.evt_pwr]
      rfl
  · split
    iterate 3 rfl
    split <;> rfl

theorem State.acQueues_recordWake (s : State) (srcs : Nat) (rgns : List Nat) : (s.recordWake srcs rgns).acQueues = s.acQueues := by
  unfold State.recordWake
  split
  · rfl
  · simp only [State.acQueues, State.evt_pwr]

theorem State.acQueues_wake (s : State) (src : Nat) (level : Bool) (gs : List Nat) : (s.wake src level gs).acQueues = s.acQueues := by
  refine (State.acQueues_recordWake _ _ _).trans ?_
  refine List.foldlRecOn (motive := fun (a : State × List Nat) => a.1.acQueues = s.acQueues) gs _ rfl fun a keeps g _ => ?_
  split
  · exact (State.acQueues_wakeRegion _ _ _ _).trans keeps
  · exact keeps

theorem State.acQueues_fall (s : State) (g : Nat) : (s.fall g).acQueues = s.acQueues := by
  unfold State.fall
  dsimp only
  split
  · split <;> rfl
  · rfl

/-- What follows an effect leaves the requests that wait for a mallet. -/
theorem acQueues_settle (s0 s : State) : (settle s0 s).acQueues = s.acQueues := by
  refine (foldl_keeps State.acQueues (fun s g => if s0.votes g ≠ 0 ∧ s.votes g = 0 then s.fall g else s) (fun s g => ?_) _ _).trans
    ((State.acQueues_wake _ _ _ _).trans ((State.acQueues_wake _ _ _ _).trans ?_))
  · split
    · exact s.acQueues_fall g
    · rfl
  · exact (congrArg State.acQueues s.offStream_sinPump :)

end Sys2Proof.Machine
end

section
/-! PROOFS. Strokes, the curfew and the end of an audit (O40). -/

namespace Sys2Proof.Machine

/-! ### Strokes -/

theorem State.gong_releaseTo (s : State) (point n : Nat) : (s.releaseTo point n).gong = s.gong := by
  unfold State.releaseTo
  split
  · rfl
  · split
    · rfl
    · refine foldl_keeps State.gong _ (fun s e => ?_) _ s
      dsimp only
      split_ifs <;> rfl

theorem State.gong_releaseAt (s : State) (point : Nat) : (s.releaseAt point).gong = s.gong :=
  foldl_keeps State.gong (fun s n => s.releaseTo point n) (fun s n => s.gong_releaseTo point n) _ s

/-- Strokes that fire one by one leave the last of them as the stroke in force. -/
theorem gong_strokes (l : List Nat) (s : State) : (l.foldl (fun v k => { v with gong := { v.gong with stroke := k } }.releaseAt k) s).gong
    = { s.gong with stroke := l.getLast?.getD s.gong.stroke } := by
  induction l generalizing s with
  | nil => rfl
  | cons k l ih =>
    rw [List.foldl_cons, ih, State.gong_releaseAt]
    cases l <;> simp [List.getLast?_cons]

/-! ### The curfew -/

/-- What the curfew does to a context whose request it withdraws (R25). -/
def Context.curfewed (x : Context) : Context := { x with requested := false, wait := if x.wait = some 3 then some 10 else x.wait }

theorem Context.curfewed_curfewed (x : Context) : x.curfewed.curfewed = x.curfewed := by
  simp only [Context.curfewed]
  split <;> simp

/-- The contexts of a list, each curfewed. -/
theorem ctx_foldl_curfewed (l : List (Nat × Ctx)) (s : State) (pc : Nat) (c : Ctx) :
    ((l.foldl (fun s p => s.onCtx p.1 p.2 Context.curfewed) s).core pc).ctx c
      = if (pc, c) ∈ l then ((s.core pc).ctx c).curfewed else (s.core pc).ctx c := by
  induction l generalizing s with
  | nil => rfl
  | cons p l ih =>
    obtain ⟨n, d⟩ := p
    rw [List.foldl_cons, ih, State.core_onCtx]
    by_cases core : pc = n
    · subst core
      rw [if_pos rfl]
      by_cases ctx : c = d
      · subst ctx
        simp [Context.curfewed_curfewed]
      · have other : ((s.core pc).setCtx d ((s.core pc).ctx d).curfewed).ctx c = (s.core pc).ctx c := by
          cases c <;> cases d <;> [exact absurd rfl ctx; rfl; rfl; exact absurd rfl ctx]
        rw [other]
        simp [ctx]
    · simp [core]

/-- Whether the curfew withdraws the waiting request of a context. -/
def State.curfewed (s : State) (x : Context) : Bool :=
  match x.list with
  | some l => s.curfewHolds l && x.requested && x.granted.isNone
  | none => false

/-- The contexts whose waiting requests the curfew withdraws. -/
def State.curfewedCtxs (s : State) : List (Nat × Ctx) :=
  s.cores.flatMap (fun e => (if s.curfewed e.2.fg then [(e.1, Ctx.fg)] else []) ++ (if s.curfewed e.2.bg then [(e.1, Ctx.bg)] else []))

theorem SMap.mem_of_get_ne {α : Type} {m : SMap α} {d : α} {k : Nat} (ne : SMap.get m d k ≠ d) : (k, SMap.get m d k) ∈ m := by
  induction m with
  | nil => exact absurd rfl ne
  | cons e m ih =>
    by_cases here : e.1 = k
    · subst here
      simp [SMap.get]
    · have later : SMap.get (e :: m) d k = SMap.get m d k := by simp [SMap.get, here]
      rw [later] at ne ⊢
      exact List.mem_cons_of_mem _ (ih ne)

theorem State.mem_curfewedCtxs {s : State} {pc : Nat} {c : Ctx} (held : s.curfewed ((s.core pc).ctx c) = true) : (pc, c) ∈ s.curfewedCtxs := by
  have used : s.core pc ≠ Core.reset := by
    intro unused
    rw [unused] at held
    cases c <;> exact absurd held nofun
  refine List.mem_flatMap.mpr ⟨(pc, s.core pc), SMap.mem_of_get_ne used, ?_⟩
  cases c with
  | fg => simp [show s.curfewed (s.core pc).fg = true from held]
  | bg => simp [show s.curfewed (s.core pc).bg = true from held]

theorem State.curfewStart_eq (s : State) :
    s.curfewStart = (State.curfewedCtxs { s with gong := { s.gong with inCurfew := true } }).foldl (fun s p => s.onCtx p.1 p.2 Context.curfewed)
      (State.withdraw { s with gong := { s.gong with inCurfew := true } }
        (fun r => (State.curfewedCtxs { s with gong := { s.gong with inCurfew := true } }).contains (r.pc, r.ctx))) := rfl

/-- The curfew withdraws the waiting request of every context whose list it holds (R25). -/
theorem State.curfewStart_spec (s : State) : s.curfewStart.gong = { s.gong with inCurfew := true } ∧ s.curfewStart.tu = s.tu ∧ s.curfewStart.so = s.so
    ∧ (∀ x ∈ s.curfewStart.pwr.fgQ, x ∈ s.pwr.fgQ) ∧ (∀ x ∈ s.curfewStart.pwr.bgQ, x ∈ s.pwr.bgQ)
    ∧ ∀ pc c, State.curfewed { s with gong := { s.gong with inCurfew := true } } ((s.core pc).ctx c) = true →
        (s.curfewStart.core pc).ctx c = ((s.core pc).ctx c).curfewed
          ∧ ∀ x ∈ s.curfewStart.pwr.fgQ ++ s.curfewStart.pwr.bgQ, ¬ (x.pc = pc ∧ x.ctx = c) := by
  rw [State.curfewStart_eq]
  generalize shut : ({ s with gong := { s.gong with inCurfew := true } } : State) = v
  generalize drop : (fun r : AcReq => v.curfewedCtxs.contains (r.pc, r.ctx)) = f
  have power : (v.curfewedCtxs.foldl (fun s p => s.onCtx p.1 p.2 Context.curfewed) (v.withdraw f)).pwr = (v.withdraw f).pwr :=
    foldl_keeps State.pwr _ (fun _ _ => by rfl) _ _
  have cores : v.cores = s.cores := by rw [← shut]
  refine ⟨?_, ?_, ?_, fun x mem => ?_, fun x mem => ?_, fun pc c held => ⟨?_, fun x mem mine => ?_⟩⟩
  · rw [foldl_keeps State.gong (fun s (p : Nat × Ctx) => s.onCtx p.1 p.2 Context.curfewed) (fun _ _ => rfl), ← shut]
    rfl
  · rw [foldl_keeps State.tu (fun s (p : Nat × Ctx) => s.onCtx p.1 p.2 Context.curfewed) (fun _ _ => rfl), ← shut]
    rfl
  · rw [foldl_keeps State.so (fun s (p : Nat × Ctx) => s.onCtx p.1 p.2 Context.curfewed) (fun _ _ => rfl), ← shut]
    rfl
  · rw [power] at mem
    rw [show s.pwr = v.pwr by rw [← shut]]
    exact (List.mem_filter.mp mem).1
  · rw [power] at mem
    rw [show s.pwr = v.pwr by rw [← shut]]
    exact (List.mem_filter.mp mem).1
  · rw [ctx_foldl_curfewed, State.core_congr (State.withdraw_cores v f), if_pos (State.mem_curfewedCtxs (by rwa [State.core_congr cores])),
      State.core_congr cores]
  · have kept : f x = false := by
      rw [power] at mem
      obtain mem | mem := List.mem_append.mp mem <;> simpa using (List.mem_filter.mp mem).2
    obtain ⟨rfl, rfl⟩ := mine
    have dropped : f x = true := by
      rw [← drop]
      exact List.contains_iff_mem.mpr (State.mem_curfewedCtxs (by rwa [State.core_congr cores]))
    exact absurd dropped (by rw [kept]; nofun)

theorem State.curfewed_of_due {s : State} {x : Context} {l : ListRef} (list : x.list = some l) (due : l.due (s.gong.gsn.toNat + 1) = true)
    (requested : x.requested = true) (waits : x.granted = none) :
    State.curfewed { s with gong := { s.gong with inCurfew := true } } x = true := by
  simp only [State.curfewed, list, State.curfewHolds, requested, waits, Bool.true_and, Option.isNone_none, Bool.and_true]
  exact due

theorem State.auditEnd_none {s : State} (none_ : s.st.snap = none) : s.auditEnd = s := by
  simp only [State.auditEnd, none_]

theorem State.auditEnd_pass {s : State} (pass : s.st.snap = some { fail := none }) :
    s.auditEnd = { s with st := { s.st with snap := none, auditOk := true, badRun := 0 } } := by
  simp only [State.auditEnd, pass]

theorem State.auditEnd_fail {s : State} {check n : Nat} {d : Int} (fail : s.st.snap = some { fail := some (check, n, d) }) :
    s.auditEnd = (State.evt { s with st := { s.st with
        snap := none, auditOk := false, auditBad := true, auditGsn := s.gong.gsn.truncate 32, badRun := s.st.badRun + 1 } }
      0x0074 0 [(0, 16, 0x0509), (16, 4, check), (20, 10, n), (30, 14, unsigned d 14)]).report (mkReport 13 .smOrSpineTarget (unsigned d 32)) := by
  simp only [State.auditEnd, fail]

/-- Settles O40. -/
theorem strokesCurfewAndAudit : Obligations.StrokesCurfewAndAudit := by
  intro s at_ u due
  refine ⟨fun en running between => ?_, fun idle => next_settle_congr ?_, fun now first => ⟨_, next_settle_congr (if_pos (by simp [u, now, first])), ?_⟩,
    fun idle => next_settle_congr (if_neg ?_), fun pass => next_settle_congr ?_, fun check n d fail => ⟨_, next_settle_congr (State.auditEnd_fail fail), ?_⟩,
    fun none_ => next_settle_congr ?_⟩
  · have strokes := gong_strokes due u
    have fire : u.strokesDue = due.foldl (fun v k => { v with gong := { v.gong with stroke := k } }.releaseAt k) u := by
      refine if_neg ?_
      rw [en, running]
      nofun
    refine ⟨_, next_settle_congr ((if_neg (by rw [between]; nofun)).trans fire), ?_, ?_, rfl⟩
    · rw [settle_gong, strokes]
    · rw [settle_gong, strokes]
  · show (if u.gongDue = true then u else u.strokesDue) = u
    obtain off | now := idle
    · split
      · rfl
      · exact if_pos (by rw [off]; rfl)
    · exact if_pos now
  · obtain ⟨gong, tu, so, fg, bg, held⟩ := u.curfewStart_spec
    have queues := acQueues_settle u u.curfewStart
    obtain ⟨fgQ, bgQ⟩ := Prod.mk.inj queues
    rw [show s.elapseTo at_ = u from rfl, settle_gong, settle_tu, settle_so, fgQ, bgQ, gong]
    refine ⟨rfl, rfl, tu, so, fg, bg, fun pc c l list due' requested waits => ?_⟩
    obtain ⟨ctx, gone⟩ := held pc c (State.curfewed_of_due list due' requested waits)
    rw [core_settle, ctx]
    exact ⟨rfl, rfl, gone⟩
  · obtain h | h := idle <;> simp [u, h]
  · exact State.auditEnd_pass pass
  · rw [State.reports_report, State.report_st, State.report_cores, State.evt_st, State.evt_sm, State.evt_cores]
    exact ⟨rfl, rfl, rfl, rfl, rfl, rfl, rfl⟩
  · exact State.auditEnd_none none_

end Sys2Proof.Machine
end

section
/-! PROOFS. Tile instructions in flight: completion, restart and rows (O44). -/

namespace Sys2Proof.Machine

/-! ### An instruction in flight -/

theorem Core.id_of_fly {k : Core} {id : Nat} {f : InFlight} (mine : k.fly id = some f) : f.id = id := by
  simpa using List.find?_some mine

/-- An instruction changed in flight, where the change leaves its number. -/
theorem find?_map_inFlight (h : InFlight → InFlight) (keeps : ∀ x, (h x).id = x.id) (id : Nat) (l : List InFlight) :
    (l.map (fun x => if x.id = id then h x else x)).find? (fun x => decide (x.id = id)) = (l.find? (fun x => decide (x.id = id))).map h := by
  induction l with
  | nil => rfl
  | cons x l ih =>
    by_cases here : x.id = id
    · simp [here, keeps]
    · simp [here, ih]

theorem State.fly_onFlight {s : State} {pc id : Nat} {f : InFlight} {h : InFlight → InFlight} (mine : (s.core pc).fly id = some f)
    (keeps : ∀ x, (h x).id = x.id) : ((s.onFlight pc id h).core pc).fly id = some (h f) := by
  rw [State.onFlight, State.core_onCore, if_pos rfl]
  exact (find?_map_inFlight h keeps id _).trans (congrArg (Option.map h) mine)

theorem State.tiles_onFlight (s : State) (pc id : Nat) (h : InFlight → InFlight) : ((s.onFlight pc id h).core pc).tiles = (s.core pc).tiles := by
  rw [State.onFlight, State.core_onCore, if_pos rfl]

/-- A line put into the row cache touches neither registers nor instructions. -/
theorem State.cachePut_core (s : State) (pc : Nat) (l : Line) : ∃ c, (s.cachePut pc l).core pc = { s.core pc with cache := c } := by
  unfold State.cachePut
  dsimp only
  split
  · exact ⟨_, (State.core_onCore _ _ _ _).trans (if_pos rfl)⟩
  · exact ⟨_, (State.core_onCore _ _ _ _).trans (if_pos rfl)⟩

/-! ### Completion -/

theorem State.tileComplete_done {s : State} {pc id : Nat} {f : InFlight} (mine : (s.core pc).fly id = some f) (done : f.phase = .done)
    (first : (s.core pc).renamesFirst f = false) (plain : (usesHist (s.core pc).part f.words && !f.rerun) = false) :
    s.tileComplete pc id = s.finishTile pc f := by
  simp only [State.tileComplete, mine, done, first, plain, Bool.false_eq_true, if_false]

theorem State.tileComplete_hist {s : State} {pc id : Nat} {f : InFlight} (mine : (s.core pc).fly id = some f) (done : f.phase = .done)
    (first : (s.core pc).renamesFirst f = false) (uses : usesHist (s.core pc).part f.words = true) (fresh : f.rerun = false) :
    s.tileComplete pc id = if s.rescales f.list.lc f.words f.stats then
        if ((s.underRange pc f).rescale pc f).2 then ((s.underRange pc f).rescale pc f).1.rerun pc f else ((s.underRange pc f).rescale pc f).1.finishTile pc f
      else (s.underRange pc f).finishTile pc f := by
  simp only [State.tileComplete, mine, done, first, uses, fresh, Bool.not_false, Bool.and_self, Bool.false_eq_true, if_false, if_true]

theorem State.tileComplete_writes {s : State} {pc id : Nat} {f : InFlight} (mine : (s.core pc).fly id = some f) (writes : f.phase = .writes)
    (last : s.tstPending pc id = false) : s.tileComplete pc id = s.finishTst pc f := by
  simp only [State.tileComplete, mine, writes, last, Bool.false_eq_true, if_false]

theorem State.tileComplete_row {s t : State} {pc id : Nat} (runs : s.canRun pc = true) (completes : s.tileComplete pc id = t) :
    exec (.tileComplete pc id) s = .next (settle s t) := by
  refine congrArg Host.Outcome.next ((if_pos runs).trans ?_)
  rw [completes]

/-! ### Restarts and rows -/

theorem State.tileRestart_load {s : State} {pc id x : Nat} {f : InFlight} {late : Bool} (mine : (s.core pc).fly id = some f)
    (phase : f.phase = .restart true late) (load : recOpc f.words = 0x01) (settled : (s.core pc).partPend = none)
    (fits : badOperand (s.core pc).part (recD f.words) (descD (s.core pc).part f.words) = false) (slot : (s.core pc).freeSlots.head? = some x) :
    ∃ kinds t, s.tileRestart pc id = ((s.onCore pc (fun k => k.unlatch x)).onFlight pc id (fun g => { g with
      slot := some x, phase := .rows (movedRows (s.core pc).part (descD (s.core pc).part f.words)), late := late, noted := late
      result := { Tile.reset with kinds := kinds, t := t } })).requestRows pc id := by
  simp only [State.tileRestart, mine, phase, load, settled, fits, slot, Option.isSome_none, Bool.false_eq_true, if_false, if_true]
  exact ⟨_, _, rfl⟩

/-- A row put into the row cache, where it is not there yet. -/
def State.cacheRow (s : State) (pc : Nat) (x : RowData) : Option (Nat × Nat) → State
  | some (sp, a) =>
    if ((s.core pc).line sp a).isSome then s
    else s.cachePut pc { space := sp, addr := a, bytes := x.bytes, bad := x.bad, kinds := x.kinds }
  | none => s

theorem State.cacheRow_core (s : State) (pc : Nat) (x : RowData) (k : Option (Nat × Nat)) :
    ∃ c, (s.cacheRow pc x k).core pc = { s.core pc with cache := c } := by
  match k with
  | none => exact ⟨_, rfl⟩
  | some (sp, a) =>
    unfold State.cacheRow
    dsimp only
    split
    · exact ⟨_, rfl⟩
    · exact s.cachePut_core pc _

/-- A row that is awaited arrives, through the row cache (R55). -/
theorem State.rowReturn_awaited {s : State} {pc id row reg : Nat} {f : InFlight} {need : List (Nat × Nat)} {x : RowData}
    (mine : (s.core pc).fly id = some f) (phase : f.phase = .rows need) (awaited : need.find? (fun y => decide (y.2 = row)) = some (reg, row))
    (here : s.rowAt pc (s.rowLoc pc f.ctx f.list.lc f.words row) = some x) :
    ∃ h : InFlight → InFlight, (∀ g, (h g).id = g.id
        ∧ (h g).phase = if (need.filter (fun y => decide (y.2 ≠ row))).isEmpty then .done else .rows (need.filter (fun y => decide (y.2 ≠ row))))
      ∧ s.rowReturn pc id row = ((s.cacheRow pc x (s.rowLoc pc f.ctx f.list.lc f.words row).key).onFlight pc id h).requestRows pc id := by
  simp only [State.rowReturn, mine, phase, awaited, here]
  refine ⟨_, fun g => ?_, rfl⟩
  exact ⟨rfl, rfl⟩

/-! ### The end of a tile instruction -/

theorem State.cores_countConv (s : State) (pc : Nat) (f : InFlight) : ∃ c n i, (s.countConv pc f).cores
    = (s.onCore pc (fun k => { k with cnt := c, gongNan := n, gongInf := i })).cores := by
  unfold State.countConv
  dsimp only
  split
  · split <;> exact ⟨_, _, _, rfl⟩
  · exact ⟨_, _, _, rfl⟩

/-- The core of an instruction that finishes: its result renamed, its place in flight given up (R50, R131). -/
theorem State.core_finishTile {s : State} {pc d x : Nat} {f : InFlight} (dest : f.dest = some d) (slot : f.slot = some x) :
    ((s.finishTile pc f).core pc).tiles = SMap.set (s.core pc).tiles Tile.reset d f.result
      ∧ ((s.finishTile pc f).core pc).slotOf = SMap.set (s.core pc).slotOf d d x
      ∧ ((s.finishTile pc f).core pc).flight = (s.core pc).flight.filter (fun y => decide (y.id ≠ f.id))
      ∧ ∀ n, n ≠ pc → (s.finishTile pc f).core n = s.core n := by
  obtain ⟨c, gn, gi, counted⟩ := s.cores_countConv pc f
  have core (m : Nat) : (s.countConv pc f).core m = _ := (State.core_congr counted m).trans (State.core_onCore _ _ _ _)
  have named : (s.countConv pc f).rename pc f = (s.countConv pc f).onCore pc
      (fun k => ({ k.setTile d f.result with slotOf := SMap.set k.slotOf d d x }).unlatch (k.slotOfReg d)) := by
    simp only [State.rename, dest, slot]
  have ends (m : Nat) : (s.finishTile pc f).core m = if m = pc
      then { ((s.countConv pc f).rename pc f).core pc with
        flight := (((s.countConv pc f).rename pc f).core pc).flight.filter (fun y => decide (y.id ≠ f.id)) }
      else ((s.countConv pc f).rename pc f).core m := by
    unfold State.finishTile State.retire
    dsimp only
    rw [State.core_congr (State.csig_cores _ _ _), State.core_onCore, State.core_congr (State.releaseMallet_cores _ _),
      State.core_congr (State.releaseMallet_cores _ _)]
  have here : (s.finishTile pc f).core pc = _ := (ends pc).trans (if_pos rfl)
  rw [here, named, State.core_onCore, if_pos rfl, core, if_pos rfl]
  refine ⟨rfl, rfl, rfl, fun n other => ?_⟩
  rw [ends, if_neg other, named, State.core_onCore, if_neg other, core, if_neg other]

theorem find?_filter_ne (id : Nat) (l : List InFlight) : (l.filter (fun y => decide (y.id ≠ id))).find? (fun y => decide (y.id = id)) = none := by
  simp

/-- Settles O44. -/
theorem tileInstructionsComplete : Obligations.TileInstructionsComplete := by
  intro s pc id f mine
  refine ⟨fun runs => ⟨fun done first => ⟨fun plain => State.tileComplete_row runs (State.tileComplete_done mine done first plain), fun uses fresh => ?_⟩,
      fun writes last => State.tileComplete_row runs (State.tileComplete_writes mine writes last),
      fun late x phase load settled fits slot => ?_, fun need row reg x phase awaited here => ?_⟩, fun d x dest slot => ?_⟩
  · have completes := State.tileComplete_hist mine done first uses fresh
    refine ⟨fun cool => State.tileComplete_row runs (completes.trans (if_neg (by rw [cool]; nofun))), fun hot => ⟨fun again => ?_, fun once => ?_⟩⟩
    · exact State.tileComplete_row runs (completes.trans ((if_pos hot).trans (if_pos again)))
    · exact State.tileComplete_row runs (completes.trans ((if_pos hot).trans (if_neg (by rw [once]; nofun))))
  · obtain ⟨kinds, t, restarts⟩ := State.tileRestart_load mine phase load settled fits slot
    refine ⟨_, next_settle_congr ((if_pos runs).trans restarts), ?_, _, State.fly_onFlight ?_ (fun _ => rfl), rfl, rfl, rfl, rfl, rfl, rfl⟩
    · rw [State.tiles_onFlight, State.core_onCore, if_pos rfl]
      rfl
    · rw [State.core_onCore, if_pos rfl]
      exact mine
  · obtain ⟨h, changes, returns⟩ := State.rowReturn_awaited mine phase awaited here
    obtain ⟨c, core⟩ := s.cacheRow_core pc x (s.rowLoc pc f.ctx f.list.lc f.words row).key
    refine ⟨_, next_settle_congr ((if_pos runs).trans returns), ?_, _, State.fly_onFlight (f := f) ?_ (fun g => (changes g).1), (changes f).2⟩
    · rw [State.tiles_onFlight, core]
    · rw [core]
      exact mine
  · obtain ⟨tiles, slotOf, flight, others⟩ := State.core_finishTile (s := s) (pc := pc) dest slot
    refine ⟨?_, ?_, fun r other => ?_, others, ?_⟩
    · simp only [Core.tile, tiles, SMap.get_set_self]
    · simp only [Core.slotOfReg, slotOf, SMap.get_set_self]
    · simp only [Core.tile, tiles, SMap.get_set, if_neg other]
    · simp only [Core.fly, flight]
      exact find?_filter_ne _ _

end Sys2Proof.Machine
end

section
/-! PROOFS. Route fetches, solves, slices of a collective and its wait limit (O45). -/

namespace Sys2Proof.Machine

/-! ### Route slots -/

/-- A slot written and touched keeps its contents but for its use. -/
theorem Core.slot_touch_setSlot (k : Core) (n : Nat) (x : RSlot) (m : Nat) :
    ((k.setSlot n x).touch n).slot m = if m = n then { x with use := k.useClock + 1 } else k.slot m := by
  have same : (k.setSlot n x).slot n = x := SMap.get_set_self _ _ _ _
  simp only [Core.touch, same]
  show SMap.get (SMap.set (SMap.set k.slots RSlot.reset n x) RSlot.reset n _) RSlot.reset m = _
  rw [SMap.get_set, SMap.get_set]
  split <;> rfl

theorem State.fetched_fetching {s : State} {pc n : Nat} (fetching : ((s.core pc).slot n).fetch = true) :
    s.fetched pc n = s.onCore pc (fun k => (k.setSlot n { (s.core pc).slot n with
      fetch := false, route := some (.entries (s.tableRoute ((s.core pc).slot n).id)) }).touch n) := if_pos fetching

/-- The slot that a solve fills (R77, R78). -/
def Solve.fills (q : Solve) : RSlot :=
  match solveFault q.scatter [] 0 q.index with
  | some _ => { RSlot.reset with bad := true, badK := (solveResult q.scatter (q.index, q.kinds)).2 }
  | none => { RSlot.reset with route := some (solveResult q.scatter (q.index, q.kinds)).1, solved := true }

/-- The core once a solve has ended. -/
def Core.solved (k : Core) (q : Solve) (n : Nat) : Core :=
  (Core.setSlot { k with solveQ := dropFirst q k.solveQ, cnt := { k.cnt with solves := satAdd k.cnt.solves 1 max32 } } n q.fills).touch n

theorem State.solveComplete_good {s : State} {pc n : Nat} {q : Solve} (mine : (s.core pc).running.find? (fun x => decide (x.slot = n)) = some q)
    (good : solveFault q.scatter [] 0 q.index = none) : s.solveComplete pc n = s.onCore pc (fun k => k.solved q n) := by
  simp only [State.solveComplete, mine, good, Core.solved, Solve.fills]

theorem State.solveComplete_bad {s : State} {pc n i cause : Nat} {q : Solve}
    (mine : (s.core pc).running.find? (fun x => decide (x.slot = n)) = some q) (bad : solveFault q.scatter [] 0 q.index = some (i, cause)) :
    (s.solveComplete pc n).cores
      = ((s.onCore pc (fun k => k.solved q n)).onCore pc (fun k => { k with errSlot := n, errCause := cause, errIndex := i })).cores := by
  simp only [State.solveComplete, mine, bad, Core.solved, Solve.fills]
  exact State.evt_cores _ _ _ _

theorem Core.slot_solved (k : Core) (q : Solve) (n : Nat) : (k.solved q n).slot n = { q.fills with use := k.useClock + 1 } :=
  (Core.slot_touch_setSlot _ n q.fills n).trans (if_pos rfl)

theorem State.solveComplete_spec {s : State} {pc n : Nat} {q : Solve} (mine : (s.core pc).running.find? (fun x => decide (x.slot = n)) = some q) :
    ((s.solveComplete pc n).core pc).cnt.solves = satAdd (s.core pc).cnt.solves 1 max32
      ∧ (solveFault q.scatter [] 0 q.index = none → (((s.solveComplete pc n).core pc).slot n).solved = true
          ∧ (((s.solveComplete pc n).core pc).slot n).route = some (solveResult q.scatter (q.index, q.kinds)).1
          ∧ (((s.solveComplete pc n).core pc).slot n).bad = false
          ∧ ((s.solveComplete pc n).core pc).errSlot = (s.core pc).errSlot ∧ (s.solveComplete pc n).ev = s.ev)
      ∧ (∀ i cause, solveFault q.scatter [] 0 q.index = some (i, cause) → (((s.solveComplete pc n).core pc).slot n).bad = true
          ∧ (((s.solveComplete pc n).core pc).slot n).route = none ∧ ((s.solveComplete pc n).core pc).errSlot = n
          ∧ ((s.solveComplete pc n).core pc).errCause = cause ∧ ((s.solveComplete pc n).core pc).errIndex = i) := by
  have slot := (s.core pc).slot_solved q n
  cases fault : solveFault q.scatter [] 0 q.index with
  | none =>
    have core : (s.solveComplete pc n).core pc = (s.core pc).solved q n := by
      rw [State.solveComplete_good mine fault, State.core_onCore, if_pos rfl]
    have fills : q.fills = { RSlot.reset with route := some (solveResult q.scatter (q.index, q.kinds)).1, solved := true } := by
      simp only [Solve.fills, fault]
    rw [core, slot, fills, State.solveComplete_good mine fault]
    exact ⟨rfl, fun _ => ⟨rfl, rfl, rfl, rfl, rfl⟩, fun _ _ h => absurd h nofun⟩
  | some e =>
    obtain ⟨i, cause⟩ := e
    have core : (s.solveComplete pc n).core pc = { (s.core pc).solved q n with errSlot := n, errCause := cause, errIndex := i } := by
      rw [State.core_congr (State.solveComplete_bad mine fault), State.core_onCore, if_pos rfl, State.core_onCore, if_pos rfl]
    have fills : q.fills = { RSlot.reset with bad := true, badK := (solveResult q.scatter (q.index, q.kinds)).2 } := by
      simp only [Solve.fills, fault]
    have slot' : ((s.solveComplete pc n).core pc).slot n = { q.fills with use := (s.core pc).useClock + 1 } := by
      rw [core]
      exact slot
    rw [slot', core, fills]
    refine ⟨rfl, fun h => absurd h nofun, fun j c h => ?_⟩
    obtain ⟨rfl, rfl⟩ : i = j ∧ cause = c := by simpa using h
    exact ⟨rfl, rfl, rfl, rfl, rfl⟩

/-! ### The exchange -/

theorem State.xcxArrive_none {s : State} {lc i slice : Nat}
    (none_ : s.routes.flying.find? (fun y => decide (y.coll = i) && decide (y.lc = lc) && y.left.contains slice) = none) :
    s.xcxArrive lc i slice = s := by
  simp only [State.xcxArrive, none_]

/-- A slice taken out of the exchange. -/
theorem State.xcxArrive_flying {s : State} {lc i slice : Nat} {z : XFly}
    (mine : s.routes.flying.find? (fun y => decide (y.coll = i) && decide (y.lc = lc) && y.left.contains slice) = some z) :
    ∃ l, s.xcxArrive lc i slice = if z.inc ≠ s.incOf z.pc then State.ghost { s with routes := { s.routes with flying := l } } z.pc
      else match s.coll i with
        | none => { s with routes := { s.routes with flying := l } }
        | some c => if c.filled.any (fun f => decide (f.1 = lc)) then { s with routes := { s.routes with flying := l } }
          else (State.setColl { s with routes := { s.routes with flying := l } } i { c with got := c.got ++ [(lc, slice)] }).finishColl i := by
  simp only [State.xcxArrive, mine]
  exact ⟨_, rfl⟩

/-- Settles O45. -/
theorem routesSolvesAndCollectives : Obligations.RoutesSolvesAndCollectives := by
  intro s pc n
  refine ⟨fun fetching => ⟨_, next_settle_congr (State.fetched_fetching fetching), ?_⟩, fun idle => next_settle_congr (if_neg (by rw [idle]; nofun)),
    fun q runs mine => ⟨_, congrArg Host.Outcome.next (if_pos runs), ?_⟩, fun lc i slice => ?_⟩
  · have slot (m : Nat) := Core.slot_touch_setSlot (s.core pc) n { (s.core pc).slot n with
      fetch := false, route := some (.entries (s.tableRoute ((s.core pc).slot n).id)) } m
    rw [State.core_onCore, if_pos rfl, slot, if_pos rfl]
    refine ⟨rfl, rfl, rfl, rfl, fun k other => ?_, fun k other => ?_, rfl⟩
    · rw [slot, if_neg other]
    · rw [State.core_onCore, if_neg other]
  · exact State.solveComplete_spec mine
  · refine ⟨fun none_ => next_settle_congr (State.xcxArrive_none none_), fun z mine => ⟨_, rfl, fun stale => ?_, fun fresh c coll open_ => ?_⟩,
      fun at_ x coll => fun limit closed ready late => next_settle_congr ?_⟩
    · obtain ⟨l, arrives⟩ := State.xcxArrive_flying mine
      rw [arrives, if_pos stale]
      exact ⟨rfl, rfl, _, rfl, rfl, rfl⟩
    · obtain ⟨l, arrives⟩ := State.xcxArrive_flying mine
      refine ⟨{ s with routes := { s.routes with flying := l } }, ?_, rfl, rfl, rfl, rfl⟩
      rw [arrives, if_neg (not_not.mpr fresh), coll]
      exact if_neg (by rw [open_]; nofun)
    · simp only [State.xcxExpire, coll]
      exact if_pos ⟨limit, by rw [closed]; rfl, by rw [ready]; rfl, late⟩

end Sys2Proof.Machine
end

section
/-! PROOFS. The safety manager: reports, drain windows, scrub reads, probes, injections, lockstep and the periodic test (O56). -/

namespace Sys2Proof.Machine

/-! ### Scrub -/

/-- A scrub round that has lasted 8 ms ends (R327). -/
def State.scrubRound (s : State) : State :=
  if s.ticksOf 8000000 ≤ s.tu.ltc - s.sm.scrubAt then
    { s with sm := { s.sm with scrubAt := s.tu.ltc, scrubRnd := min 65535 (s.ns10 (s.tu.ltc - s.sm.scrubAt) / 1000), ceCnt := [] } }
  else s

/-- The end of a round touches the marks of the scrub alone. -/
theorem State.scrubRound_eq (s : State) : ∃ a n c, s.scrubRound = { s with sm := { s.sm with scrubAt := a, scrubRnd := n, ceCnt := c } } := by
  unfold State.scrubRound
  split <;> exact ⟨_, _, _, rfl⟩

theorem State.scrubRound_within {s : State} (within : s.tu.ltc - s.sm.scrubAt < s.ticksOf 8000000) : s.scrubRound = s := if_neg (not_le.mpr within)

theorem State.wordBad_scrubRound (s : State) (m : MemKind) (w : Nat) : s.scrubRound.wordBad m w = s.wordBad m w := by
  obtain ⟨a, n, c, round⟩ := s.scrubRound_eq
  rw [round]
  cases m <;> rfl

theorem State.scrub_quiet {s : State} (within : s.tu.ltc - s.sm.scrubAt < s.ticksOf 8000000) (m : MemKind) (w : Nat) {c : WordClass}
    (quiet : c = .clean ∨ c = .poisoned) : s.scrub m w c = s := by
  unfold State.scrub
  dsimp only
  rw [if_neg (not_le.mpr within)]
  obtain rfl | rfl := quiet <;> exact ite_self s

/-- A read of a word that is there and powered goes on to its class. -/
theorem State.scrub_there {s : State} {m : MemKind} (out : s.inReset = false)
    (there : (match memCore m with | some pc => s.hasCore pc | none => true) = true) (powered : memRegion m = 8 ∨ (s.region (memRegion m)).state = .run)
    (w : Nat) : s.scrub m w .uncorrectable = (State.markWord { s.scrubRound with sm := { s.scrubRound.sm with
          scrubUe := satAdd s.scrubRound.sm.scrubUe 1 max32 } } m w).report { mkReport 1 (.memory m w) w with code := 0x030B }
      ∧ (s.wordBad m w = false → s.scrub m w .correctable = State.report { s.scrubRound with sm := { s.scrubRound.sm with
          scrubCe := satAdd s.scrubRound.sm.scrubCe 1 max32 } } (mkReport 0 (.memory m w) w)) := by
  have reads : (s.inReset || !(match memCore m with | some pc => s.hasCore pc | none => true)
      || !(decide (memRegion m = 8) || decide ((s.region (memRegion m)).state = .run) || decide ((s.region (memRegion m)).state = .idle))) = false := by
    rw [out, there]
    obtain h | h := powered <;> simp [h]
  refine ⟨if_neg (Bool.eq_false_iff.mp reads), fun sound => (if_neg (Bool.eq_false_iff.mp reads)).trans (if_neg ?_)⟩
  exact Bool.eq_false_iff.mp ((s.wordBad_scrubRound m w).trans sound)

/-- A word marked poison touches neither the counts nor the reports. -/
theorem State.scrubUe_markWord (s : State) (m : MemKind) (w : Nat) : (s.markWord m w).sm.scrubUe = s.sm.scrubUe := by
  unfold State.markWord
  split
  case h_1 =>
    dsimp only
    split <;> rfl
  all_goals rfl

/-! ### Watchdogs -/

theorem State.probe_answered {s : State} {pc : Nat} (moves : (s.core pc).stuck = false) :
    s.probe pc true = (s.onCore pc (fun k => { k with wdogSeen := k.flight })).onCore pc (fun k => { k with wdogMiss := 0 }) := by
  simp only [State.probe, moves]
  split
  · rfl
  · rfl

theorem State.probe_missed {s : State} {pc : Nat} {answered : Bool} (silent : answered = false ∨ (s.core pc).stuck = true)
    (active : ((s.onCore pc (fun k => { k with wdogSeen := k.flight })).core pc).held = false)
    (listed : (((s.onCore pc (fun k => { k with wdogSeen := k.flight })).core pc).fg.list).isSome = true
      ∨ (((s.onCore pc (fun k => { k with wdogSeen := k.flight })).core pc).bg.list).isSome = true)
    (quiet : (s.onCore pc (fun k => { k with wdogSeen := k.flight })).causes pc = []) :
    s.probe pc answered = (s.onCore pc (fun k => { k with wdogSeen := k.flight })).missWindow pc := by
  have none_ : (answered && !(s.core pc).stuck) = false := by
    obtain h | h := silent <;> simp [h]
  have watched : (((s.onCore pc (fun k => { k with wdogSeen := k.flight })).core pc).held
      || !((((s.onCore pc (fun k => { k with wdogSeen := k.flight })).core pc).fg.list).isSome
        || (((s.onCore pc (fun k => { k with wdogSeen := k.flight })).core pc).bg.list).isSome)) = false := by
    rw [active]
    obtain h | h := listed
    · rw [h]; rfl
    · rw [h, Bool.or_true]; rfl
  simp only [State.probe, none_]
  refine (if_neg (by rw [watched]; nofun)).trans (if_neg ?_)
  rw [quiet]
  nofun

/-! ### The rows -/

theorem State.takeReport_known {s : State} {r : Report} (out : s.inReset = false) (known : r.det ≤ 15) :
    s.takeReport r = State.react { s with sm := { s.sm with reports := s.sm.reports.erase r } } r (s.sm.reports.contains r) := by
  refine if_neg ?_
  rw [decide_eq_false (not_lt.mpr known), Bool.or_false]
  exact Bool.eq_false_iff.mp out

theorem State.drainEnd_due {s : State} {pc : Nat} {x : Drain} (mine : s.sm.drains.find? (fun d => decide (d.pc = pc)) = some x)
    (late : x.at_ ≤ s.tu.ltc) : s.drainEnd pc = State.knellRec { s with sm := { s.sm with drains := s.sm.drains.erase x } } x := by
  simp only [State.drainEnd, mine]
  exact if_neg (not_lt.mpr late)

theorem State.mismatch_running {s : State} {p : Nat} (out : s.inReset = false) (pair : p < 2) (full : s.sm.simplex.getLsbD p = false)
    (up : s.sm.pairReset.getLsbD p = false) (state : s.boot.state = .running) : s.mismatch p = (s.report (mkReport 3 (.pair p) p)).pairStart p := by
  simp only [State.mismatch, out, full, up, decide_eq_false (not_le.mpr pair), state, Bool.or_self, Bool.false_eq_true, if_false]

/-- The end of a run of diagnostics leaves its result, with a record where it failed (R340). -/
theorem State.diagEnd_busy {s : State} (busy : s.sm.diagBusy = true) (b : Bool) : (s.diagEnd b).sm = { s.sm with
      diagBusy := false, diagPass := b
      diagOk := if b then s.sm.diagOk ||| BitVec.ofNat 18 (2 ^ s.sm.diagPc) else s.sm.diagOk &&& ~~~BitVec.ofNat 18 (2 ^ s.sm.diagPc) }
    ∧ (s.diagEnd b).cores = s.cores := by
  unfold State.diagEnd
  rw [if_neg (by rw [busy]; nofun)]
  cases b
  · exact ⟨State.evt_sm _ _ _ _, State.evt_cores _ _ _ _⟩
  · exact ⟨rfl, rfl⟩

/-- Settles O56. -/
theorem safetyManagerRows : Obligations.SafetyManagerRows := by
  intro s r pc d p w at_ m fs u
  have probes (out : u.inReset = false) (has : u.hasCore pc = true) (b : Bool) :
      exec (.watchdogProbe pc b at_) s = .next (settle u (u.probe pc b)) :=
    next_settle_congr (if_neg (by rw [has, Bool.not_true, Bool.or_false]; exact Bool.eq_false_iff.mp out))
  refine ⟨fun out known => next_settle_congr (State.takeReport_known out known), fun x mine late => next_settle_congr (State.drainEnd_due mine late),
    fun within => ⟨next_settle_congr (State.scrub_quiet within m w (.inl rfl)), next_settle_congr (State.scrub_quiet within m w (.inr rfl))⟩,
    fun out there powered => ?_, fun out has moves => ⟨_, probes out has true, ?_⟩, fun out has active listed quiet => ⟨?_, fun stuck => ?_⟩,
    fun out known armed => next_settle_congr (if_neg ?_), fun out pair full up state => next_settle_congr (State.mismatch_running out pair full up state),
    fun out pair reset => ?_, fun out => next_settle_congr (if_neg (Bool.eq_false_iff.mp out)), fun busy b => ⟨_, rfl, ?_⟩, fun out en => next_settle_congr (if_neg ?_)⟩
  · obtain ⟨bad, correctable⟩ := State.scrub_there out there powered w
    obtain ⟨a, n, c, round⟩ := s.scrubRound_eq
    refine ⟨⟨_, next_settle_congr bad, ?_, _, rfl⟩, fun sound => ⟨_, next_settle_congr (correctable sound), ?_⟩⟩
    · rw [State.report, State.scrubUe_markWord, round]
    · rw [round]
      exact ⟨rfl, rfl, rfl⟩
  · rw [State.probe_answered moves]
    refine ⟨?_, fun n other => ?_⟩
    · rw [State.core_onCore, if_pos rfl]
    · rw [State.core_onCore, if_neg other, State.core_onCore, if_neg other]
  · exact (probes out has false).trans (next_settle_congr (State.probe_missed (.inl rfl) active listed quiet))
  · exact (probes out has true).trans (next_settle_congr (State.probe_missed (.inr stuck) active listed quiet))
  · rw [decide_eq_false (not_lt.mpr known), Bool.or_false]
    show ¬ (u.inReset || !(u.inj d).armed) = true
    rw [out, armed]
    nofun
  · have ends (a b : Bool) : s.pairEnd p a b = _ := if_neg (by rw [reset, Bool.not_true, Bool.or_false]; exact Bool.eq_false_iff.mp out)
    refine ⟨next_settle_congr ((ends false false).trans rfl), fun full => next_settle_congr ((ends true true).trans ?_)⟩
    simp only [Bool.not_true, Bool.and_false, Bool.false_eq_true, if_false, if_true, full, bne_self_eq_false, Bool.or_self]
  · rw [settle_sm, settle_cores]
    obtain ⟨sm, cores⟩ := State.diagEnd_busy busy b
    rw [sm]
    exact ⟨rfl, rfl, rfl, cores⟩
  · rw [show (s.elapseTo at_).inReset = false from out, Bool.false_or]
    exact Bool.eq_false_iff.mp (by rw [show bit _ _ = true from en]; rfl)

end Sys2Proof.Machine
end

section
/-! PROOFS. A knell (R335, R337): what stopping a core, its collectives and its requests leave as it is, and KNELL_REQ (O19). -/

namespace Sys2Proof.Machine

/-! ### What abandoned work leaves as it is: time, the fenced cores and their incarnations -/

/-- The time unit, the fenced cores, their incarnations and the count of knells. -/
def State.fixed (s : State) : TimeUnit × BitVec 18 × SMap Nat × Nat := (s.tu, s.sm.fenced, s.sm.incs, s.sm.knells)

theorem fixed_of_offStream {s t : State} (same : s.offStream = t.offStream) : s.fixed = t.fixed := (congrArg State.fixed same :)

theorem fixed_of_offPort {s t : State} (same : s.offPort = t.offPort) : s.fixed = t.fixed := (congrArg State.fixed same :)

@[simp] theorem State.fixed_evt (s : State) (kind unit : Nat) (fs : List (Nat × Nat × Nat)) : (s.evt kind unit fs).fixed = s.fixed :=
  fixed_of_offStream (s.offStream_evt kind unit fs)

@[simp] theorem State.fixed_releaseMallet (s : State) (m : Option Mallet) : (s.releaseMallet m).fixed = s.fixed := by cases m <;> rfl

theorem State.fixed_staleFault (s : State) (code pc lc q : Nat) (h : Word) : (s.staleFault code pc lc q h).fixed = s.fixed :=
  (State.fixed_evt _ _ _ _).trans rfl

theorem State.fixed_releaseHandle (s : State) (h : Word) (pc lc q : Nat) : (s.releaseHandle h pc lc q).fixed = s.fixed := by
  unfold State.releaseHandle
  split
  · rfl
  · split
    · exact s.fixed_staleFault ..
    · exact fixed_of_offStream (s.offStream_dropRef _)

theorem State.fixed_unreserve (s : State) (ks : List Nat) : (s.unreserve ks).fixed = s.fixed := fixed_of_offStream (s.offStream_unreserve ks)

theorem State.fixed_push (s : State) (q : Nat) (h : Word) (side : BitVec 128) (held : List Nat) : (s.push q h side held).fixed = s.fixed :=
  fixed_of_offStream (s.offStream_push q h side held)

theorem State.fixed_flushHandle (s : State) (lc pc : Nat) (k : Option Kinds) (h : HReg) : (s.flushHandle lc pc k h).fixed = s.fixed := by
  unfold State.flushHandle
  dsimp only
  split
  · split
    · exact s.fixed_unreserve _
    · split
      · exact (State.fixed_unreserve _ _).trans (s.fixed_staleFault ..)
      · split <;> exact (State.fixed_push _ _ _ _ _).trans rfl
  · exact (State.fixed_releaseHandle _ _ _ _ _).trans (s.fixed_unreserve _)

theorem State.fixed_abandonOne (s : State) (pc cause : Nat) (f : InFlight) : (s.abandonOne pc cause f).fixed = s.fixed := by
  have left : (s.releaseMallet f.mallet).fixed = s.fixed := s.fixed_releaseMallet _
  exact (fixed_of_offPort (State.abandonRec_offPort _ _ _ _ _ _ _)).trans left

/-! ### Collectives -/

theorem State.fixed_fabFails (s : State) (pc : Nat) (fs : Fails) (injected : Bool) : (s.fabFails pc fs injected).fixed = s.fixed :=
  foldl_keeps State.fixed (fun s (f : Nat × Nat) => s.fabFail pc f.1 f.2 injected) (fun _ _ => rfl) fs s

theorem State.fixed_fabDone (s : State) (pc passes : Nat) (reads : List (Nat × Nat)) (fs : Fails) : (s.fabDone pc passes reads fs).fixed = s.fixed :=
  (State.fixed_fabFails _ _ _ _).trans rfl

theorem State.fixed_dropColls (s : State) : s.dropColls.fixed = s.fixed := rfl

theorem State.fixed_finishColl (s : State) (i : Nat) : (s.finishColl i).fixed = s.fixed := by
  unfold State.finishColl
  split
  · rfl
  · split
    · rfl
    · dsimp only
      rw [State.fixed_dropColls]
      refine foldl_keeps State.fixed _ (fun s n => ?_) _ s
      split
      · exact (State.fixed_fabDone _ _ _ _ _).trans ((State.fixed_fabFails _ _ _ _).trans rfl)
      · rfl

theorem State.fixed_fillColl (s : State) (i : Nat) (lc : Option Nat) (k : Kinds) (why : Nat) : (s.fillColl i lc k why).fixed = s.fixed := by
  unfold State.fillColl
  split
  · rfl
  · exact (State.fixed_finishColl _ _).trans ((State.fixed_evt _ _ _ _).trans rfl)

theorem State.fixed_fillFor (s : State) (lc : Nat) (own : List Nat) (k : Kinds) (why : Nat) : (s.fillFor lc own k why).fixed = s.fixed := by
  unfold State.fillFor
  dsimp only
  rw [State.fixed_dropColls]
  refine (foldl_keeps State.fixed _ (fun s e => ?_) _ _).trans (foldl_keeps State.fixed _ (fun s e => ?_) _ s)
  · split
    · split <;> rfl
    · rfl
  · split
    · exact s.fixed_fillColl _ _ _ _
    · split
      · exact (State.fixed_fillColl _ _ _ _ _).trans rfl
      · rfl

/-! ### A core that stops -/

theorem State.fixed_onCtx (s : State) (pc : Nat) (c : Ctx) (f : Context → Context) : (s.onCtx pc c f).fixed = s.fixed := rfl

theorem State.fixed_unhold (s : State) (pc : Nat) (c : Ctx) : (s.unhold pc c).fixed = s.fixed := rfl

theorem State.fixed_onLc (s : State) (n : Nat) (f : LogCore → LogCore) : (s.onLc n f).fixed = s.fixed := rfl

theorem State.fixed_withdraw (s : State) (f : AcReq → Bool) : (s.withdraw f).fixed = s.fixed := rfl

theorem State.fixed_stopPrefetch (s : State) (lc : Nat) (c : Ctx) : (s.stopPrefetch lc c).fixed = s.fixed := rfl

/-- What a list that stops leaves for its collectives, by its cause. -/
theorem State.fixed_fillEnd (s : State) (lc : Nat) (own : List Nat) (cause : Nat) :
    (if cause = 4 then s.fillFor lc own kFault 3 else s.fillFor lc own kLate 2).fixed = s.fixed := by
  split <;> exact s.fixed_fillFor _ _ _ _

theorem State.fixed_stopList (s : State) (pc : Nat) (c : Ctx) (k : Kinds) (cause : Nat) : (s.stopList pc c k cause).fixed = s.fixed := by
  unfold State.stopList
  dsimp only
  split
  · rfl
  · rw [State.fixed_onCtx, State.fixed_unhold, State.fixed_onLc, State.fixed_stopPrefetch, State.fixed_fillEnd, State.fixed_withdraw,
      State.fixed_releaseMallet, State.fixed_releaseMallet]
    refine (foldl_keeps State.fixed _ (fun s h => ?_) _ _).trans (foldl_keeps State.fixed _ (fun s f => ?_) _ s)
    · refine (State.fixed_flushHandle _ _ _ _ _).trans ?_
      split <;> rfl
    · exact s.fixed_abandonOne _ _ _

theorem State.fixed_stopCore (s : State) (pc : Nat) : (s.stopCore pc).fixed = s.fixed := by
  refine (show State.fixed (State.onCore _ _ _) = _ from rfl).trans ((State.fixed_stopList _ _ _ _ _).trans ((State.fixed_stopList _ _ _ _ _).trans rfl))

theorem State.fixed_markFilled (s : State) (pc inc : Nat) : (s.markFilled pc inc).fixed = s.fixed :=
  foldl_keeps State.fixed (fun s b => s.markBuffer b kFault 0xFFFF) (fun _ _ => rfl) _ s

theorem State.fixed_strobesOff (s : State) (f : PReq → Bool) : (s.strobesOff f).fixed = s.fixed := by
  obtain ⟨m, n, strobes⟩ := s.strobesOff_eq f
  rw [strobes]
  rfl

theorem State.fixed_dropCoreReqs (s : State) (pc : Nat) : (s.dropCoreReqs pc).fixed = s.fixed :=
  (foldl_keeps State.fixed (fun s (r : PReq) => s.portGhost r 0) (fun _ _ => (State.fixed_evt _ _ _ _).trans rfl) _ _).trans
    ((State.fixed_strobesOff _ _).trans rfl)

theorem State.fixed_setLc (s : State) (n : Nat) (l : LogCore) : (s.setLc n l).fixed = s.fixed := rfl

/-- A spare that takes over, or a map that is no more, leaves them too (R336). -/
theorem State.fixed_tookOver (s : State) (n : Nat) (spare : Option Nat) :
    (match spare with
      | some p => s.onCore p (fun k => k.startSpare (s.mapPart n))
      | none => { s with cfg := { s.cfg with noMap := s.cfg.activeValid } }).fixed = s.fixed := by
  cases spare <;> rfl

/-- Fencing a core and giving it a new incarnation (R335). -/
def State.fencedBy (s : State) (pc new : Nat) : State :=
  { s with sm := { s.sm with
    incs := SMap.set s.sm.incs 0 pc new
    fenced := s.sm.fenced ||| BitVec.ofNat 18 (2 ^ pc)
    diagOk := s.sm.diagOk &&& ~~~BitVec.ofNat 18 (2 ^ pc)
    diagBusy := s.sm.diagBusy && decide (s.sm.diagPc ≠ pc)
    knells := satAdd s.sm.knells 1 max16 } }

/-- A knell fences its core and advances its incarnation (R335, R337). -/
theorem State.fixed_knell {s : State} {pc : Nat} (has : s.hasCore pc = true) (in_ : s.fenced pc = false) (det : Nat) :
    (s.knell pc det).fixed = (s.tu, s.sm.fenced ||| BitVec.ofNat 18 (2 ^ pc), SMap.set s.sm.incs 0 pc ((s.incOf pc + 1) % 16), satAdd s.sm.knells 1 max16) := by
  have stopped := s.fixed_stopCore pc
  have fenced : ((s.stopCore pc).fencedBy pc ((s.incOf pc + 1) % 16)).fixed = (s.tu, s.sm.fenced ||| BitVec.ofNat 18 (2 ^ pc),
      SMap.set s.sm.incs 0 pc ((s.incOf pc + 1) % 16), satAdd s.sm.knells 1 max16) := by
    obtain ⟨tu, fences, incs, knells⟩ := by simpa only [State.fixed, Prod.mk.injEq] using stopped
    simp only [State.fixed, State.fencedBy, tu, fences, incs, knells]
  unfold State.knell
  rw [if_neg (by rw [has, in_]; nofun)]
  dsimp only
  rw [State.fixed_dropCoreReqs]
  refine Eq.trans (b := State.fixed (State.markFilled _ pc (s.incOf pc))) rfl ((State.fixed_markFilled _ _ _).trans ?_)
  generalize s.lcOf pc = lc
  refine Eq.trans ?_ fenced
  cases lc with
  | none => rfl
  | some n =>
    dsimp only
    refine (State.fixed_tookOver _ _ _).trans ((State.fixed_fillFor _ _ _ _ _).trans ?_)
    rw [State.fixed_setLc, State.fixed_setLc]
    rfl

theorem State.knell_of_not {s : State} {pc : Nat} (not : s.hasCore pc = false ∨ s.fenced pc = true) (det : Nat) : s.knell pc det = s := by
  unfold State.knell
  exact if_pos (by obtain has | in_ := not <;> simp [*])

/-! ### KNELL_REQ -/

theorem exec_knellReqGo {s : State} (pc : BitVec 5) (served : s.serves 0x30040 = true) : exec (.knellReqGo pc) s
    = .next (settle s ((((s.granted 0x30040).putLow 0x30040 0x1F (pc.setWidth 32)).knell pc.toNat 0xF).respond .ok)) :=
  exec_served_as rfl served rfl rfl (applied_knellReqGo pc _)

/-- Settles O19: a core that the configuration has and that is not fenced is knelled; of any other only the register changes. -/
theorem knellRequestFencesTheCore : Obligations.KnellRequestFencesTheCore := by
  intro s pc served
  refine ⟨fun has in_ => ⟨_, exec_knellReqGo pc served, ?_⟩, fun not => ?_⟩
  · have knelled := State.fixed_knell (s := (s.granted 0x30040).putLow 0x30040 0x1F (pc.setWidth 32)) has in_ 0xF
    obtain ⟨tu, fences, incs, knells⟩ := by simpa only [State.fixed, Prod.mk.injEq] using knelled
    refine ⟨?_, ?_, fun n other => ?_, ?_, ?_, ?_⟩
    · rw [settle_sm]
      exact fences
    · rw [State.incOf, settle_sm]
      exact (congrArg (SMap.get · 0 pc.toNat) incs).trans (SMap.get_set_self _ _ _ _)
    · rw [State.incOf, settle_sm]
      exact (congrArg (SMap.get · 0 n) incs).trans ((SMap.get_set _ _ _ _ _).trans (if_neg other))
    · rw [settle_sm]
      exact knells
    · rw [settle_tu]
      exact tu
    · rw [settle_gong]
      exact gsn_State_knell _ _ _
  · rw [exec_knellReqGo pc served, State.knell_of_not (s := (s.granted 0x30040).putLow 0x30040 0x1F (pc.setWidth 32)) not]

end Sys2Proof.Machine
end

section
/-! PROOFS. The commands of CFG_CTRL that touch a load, and CFG_KEY_LOCK (O14). -/

namespace Sys2Proof.Machine

/-! ### What a load that ends leaves as it is -/

/-- What no load moves: the image in force, the gongs, the cores and the logical cores. -/
def State.offLoad (s : State) : Option Image × Gong × SMap Core × SMap LogCore := (s.cfg.active, s.gong, s.cores, s.lcs)

@[simp] theorem State.offLoad_cfgLoadRec (s : State) (code id : Nat) (m : Margin) (w : Bool × Bool) : (s.cfgLoadRec code id m w).offLoad = s.offLoad := by
  simp only [State.offLoad, State.cfg_cfgLoadRec, State.gong_cfgLoadRec, State.cores_cfgLoadRec]
  rw [State.cfgLoadRec, State.evt_lcs]

theorem State.offLoad_loadFail (s : State) (code : Nat) : (s.loadFail code).offLoad = s.offLoad := State.offLoad_cfgLoadRec _ _ _ _ _

theorem State.latched_loadFail (s : State) (code : Nat) : (s.loadFail code).cfg.latched = false := by
  rw [State.loadFail, State.cfg_cfgLoadRec]

theorem State.offLoad_discardStaged (s : State) : s.discardStaged.offLoad = s.offLoad := State.offLoad_cfgLoadRec _ _ _ _ _

theorem offLoad_answered (s0 s : State) (r : Resp) : (settle s0 (s.respond r)).offLoad = s.offLoad := by
  simp only [State.offLoad, settle_cfg, settle_gong, settle_cores, settle_lcs]
  rfl

/-! ### What each command does in each state of CFG_STATUS -/

/-- R217: a load of no bytes, or from an address that is not aligned, fails at once. -/
theorem State.load_bad {s : State} (up : s.boot.state ≠ .minimal) (quiet : s.cfg.resume = false) (idle : s.cfg.state = .empty ∨ s.cfg.state = .failed)
    (bad : fld (s.reg 0x40008) 0 24 = 0 ∨ s.imgAddr % 64 ≠ 0) :
    ∃ u : State, s.load = u.loadFail 0x0201 ∧ u.offLoad = s.offLoad := by
  have short : s.imgLen = 0 ∨ s.imgAddr % 64 ≠ 0 := bad.imp (fun zero => by rw [State.imgLen, zero]; rfl) id
  have started : s.load = s.loadStart := by
    unfold State.load
    split
    · exact absurd ‹_› up
    · rfl
  refine ⟨{ s.cfgPhase 1 with cfg := { (s.cfgPhase 1).cfg with state := .loading, staged := none, stagedId := 0, tries := 0 } }, ?_, rfl⟩
  rw [started, State.loadStart, if_neg (by rw [quiet]; nofun)]
  obtain state | state := idle
  · simp only [state]
    exact if_pos short
  · simp only [state]
    exact if_pos short

/-- R217: LOAD is ignored while something else is under way. -/
theorem State.load_busy {s : State} (busy : s.cfg.resume = true ∨ s.cfg.state = .loading ∨ s.cfg.state = .verify ∨ s.cfg.state = .writing
    ∨ s.cfg.state = .armed) : s.load = s := by
  unfold State.load
  split
  · rfl
  · rw [State.loadStart]
    obtain resume | state | state | state | state := busy
    · exact if_pos resume
    all_goals simp only [state, ite_self]

theorem State.loadAbort_loading {s : State} (loading : s.cfg.state = .loading ∨ s.cfg.state = .verify ∨ s.cfg.state = .writing) :
    s.loadAbort = s.loadFail 0x020A := by
  obtain state | state | state := loading <;> simp only [State.loadAbort, state]

theorem State.commitReq_loading {s : State} (loading : s.cfg.state = .loading ∨ s.cfg.state = .verify ∨ s.cfg.state = .writing) :
    s.commitReq = { s with cfg := { s.cfg with latched := true } } := by
  obtain state | state | state := loading <;> simp only [State.commitReq, state]

theorem State.loadDrop_loading {s : State} (loading : s.cfg.state = .loading ∨ s.cfg.state = .verify ∨ s.cfg.state = .writing) :
    s.loadDrop = { s with cfg := { s.cfg with latched := false } } := by
  obtain state | state | state := loading <;> simp only [State.loadDrop, state]

theorem State.commitReq_staged {s : State} (staged : s.cfg.state = .staged) : s.commitReq = s.arm := by
  simp only [State.commitReq, staged]

theorem State.loadDrop_staged {s : State} (staged : s.cfg.state = .staged ∨ s.cfg.state = .armed) : s.loadDrop = s.discardStaged := by
  obtain state | state := staged <;> simp only [State.loadDrop, state]

/-! ### The writes -/

/-- A write of CFG_CTRL, served. -/
theorem exec_loadFails {s : State} {c : Instr} {u : State} {code : Nat} (at_ : accessAt c = some (0x4000C, true)) (served : s.serves 0x4000C = true)
    (free : s.accessReserved c = false) (named : valued c = true) (applied : applyAccess c (s.granted 0x4000C) = (u.loadFail code, .ok))
    (same : u.offLoad = s.offLoad) :
    ∃ t, exec c s = .next t ∧ t.cfg.state = .failed ∧ t.cfg.code = code ∧ t.cfg.staged = none ∧ t.cfg.latched = false ∧ t.offLoad = s.offLoad := by
  obtain ⟨state, code, staged, _, _⟩ := u.loadFail_spec code
  refine ⟨_, exec_served_as at_ served free named applied, ?_, ?_, ?_, ?_, ?_⟩
  · rw [settle_cfg]
    exact state
  · rw [settle_cfg]
    exact code
  · rw [settle_cfg]
    exact staged
  · rw [settle_cfg]
    exact u.latched_loadFail _
  · exact (offLoad_answered _ _ _).trans ((u.offLoad_loadFail _).trans same)

/-- LOAD, ABORT, COMMIT, RESTORE and DROP, served. -/
theorem exec_loadCommands {s : State} (served : s.serves 0x4000C = true) : let u := s.granted 0x4000C
    exec .load s = .next (settle s (u.load.respond .ok)) ∧ exec .commit s = .next (settle s (u.commitReq.respond .ok))
      ∧ exec .drop s = .next (settle s (u.loadDrop.respond .ok)) ∧ exec .restore s = .next (settle s (u.restoreReq.respond .ok)) :=
  ⟨exec_served_as rfl served rfl rfl (applied_load _), exec_served_as rfl served rfl rfl (applied_commit _),
    exec_served_as rfl served rfl rfl (applied_drop _), exec_served_as rfl served rfl rfl (applied_restore _)⟩

/-- A drop of a staged image, served (R217). -/
theorem exec_drop_staged {s : State} (served : s.serves 0x4000C = true) (staged : s.cfg.state = .staged ∨ s.cfg.state = .armed) :
    ∃ t, exec .drop s = .next t ∧ t.cfg.state = .empty ∧ t.cfg.code = 0x0210 ∧ t.cfg.staged = none ∧ t.offLoad = s.offLoad := by
  have dropped : (s.granted 0x4000C).loadDrop = (s.granted 0x4000C).discardStaged := State.loadDrop_staged staged
  refine ⟨_, exec_served_as rfl served rfl rfl (applied_drop _), ?_⟩
  rw [dropped, settle_cfg, offLoad_answered, State.offLoad_discardStaged]
  have cfg := (s.granted 0x4000C).discardStaged_spec.1
  exact ⟨congrArg CfgUnit.state cfg, congrArg CfgUnit.code cfg, congrArg CfgUnit.staged cfg, rfl⟩

/-- Settles O14. -/
theorem configurationCommands : Obligations.ConfigurationCommands := by
  intro s
  refine ⟨fun served => ?_, fun served => exec_served_as rfl served rfl rfl (applied_cfgKeyLock _)⟩
  obtain ⟨load, commit, drop, restore⟩ := exec_loadCommands served
  refine ⟨load, fun up quiet idle bad => ?_, fun busy => ?_, fun loading => ⟨?_, ?_, ?_⟩, fun staged => ?_, fun staged => ?_, restore⟩
  · obtain ⟨u, fails, same⟩ := State.load_bad (s := s.granted 0x4000C) up quiet idle bad
    obtain ⟨t, next, state, code, none_, _, frame⟩ := exec_loadFails rfl served rfl rfl ((applied_load _).trans (congrArg (·, Resp.ok) fails)) same
    obtain ⟨active, gong, cores, lcs⟩ := by simpa only [State.offLoad, Prod.mk.injEq] using frame
    exact ⟨t, next, state, code, none_, active, gong, cores, lcs⟩
  · rw [load, State.load_busy (s := s.granted 0x4000C) busy]
  · obtain ⟨t, next, state, code, none_, unlatched, frame⟩ := exec_loadFails (c := .abort) rfl served rfl rfl
      ((applied_abort _).trans (congrArg (·, Resp.ok) (State.loadAbort_loading (s := s.granted 0x4000C) loading))) rfl
    obtain ⟨active, gong, cores, lcs⟩ := by simpa only [State.offLoad, Prod.mk.injEq] using frame
    exact ⟨t, next, state, code, none_, unlatched, active, gong, cores, lcs⟩
  · rw [commit, State.commitReq_loading (s := s.granted 0x4000C) loading]
    rfl
  · rw [drop, State.loadDrop_loading (s := s.granted 0x4000C) loading]
    rfl
  · rw [commit, State.commitReq_staged (s := s.granted 0x4000C) staged]
  · obtain ⟨t, next, state, code, none_, frame⟩ := exec_drop_staged served staged
    obtain ⟨active, gong, cores, lcs⟩ := by simpa only [State.offLoad, Prod.mk.injEq] using frame
    exact ⟨t, next, state, code, none_, active, gong, cores, lcs⟩

end Sys2Proof.Machine
end

section
/-! PROOFS. Writes of one beat to the register banks (O9). -/

namespace Sys2Proof.Machine

/-! ### The words that a beat writes -/

/-- The half of a beat that a register at `off` takes. -/
def beatWord (off : Nat) (v : DWord) : Word := if off % 8 = 0 then v.setWidth 32 else (v >>> 32).setWidth 32

/-- The strobes that write exactly the register at `off`. -/
def beatWhole (off : Nat) : BitVec 8 := if off % 8 = 0 then 0x0F else 0xF0

theorem inBank_of_lt {off : Nat} (lt : off < 0x220000) : inBank off = true := by simp only [inBank, lt, decide_true, Bool.true_or]

theorem bankWords_whole {off : Nat} (aligned : off % 4 = 0) (v : DWord) : bankWords off v (beatWhole off) = some [(off, beatWord off v)] := by
  by_cases low : off % 8 = 0
  · simp only [bankWords, beatWhole, beatWord, low, if_true, and_self]
  · have high : off % 8 = 4 := by omega
    simp only [bankWords, beatWhole, beatWord, high]
    rfl

theorem bankWords_both {off : Nat} (low : off % 8 = 0) (v : DWord) :
    bankWords off v 0xFF = some [(off, v.setWidth 32), (off + 4, (v >>> 32).setWidth 32)] := by
  simp only [bankWords, low]
  rfl

theorem bankWords_partial {off : Nat} {strb : BitVec 8} (low : ¬ (off % 8 = 0 ∧ (strb = 0x0F ∨ strb = 0xFF))) (high : ¬ (off % 8 = 4 ∧ strb = 0xF0))
    (v : DWord) : bankWords off v strb = none := by
  unfold bankWords
  rw [if_neg fun h => low ⟨h.1, .inl h.2⟩, if_neg fun h => low ⟨h.1, .inr h.2⟩, if_neg high]

theorem State.regWrite_bank {off : Nat} (lt : off < 0x220000) {v : DWord} {strb : BitVec 8} {ws : List (Nat × Word)} (words : bankWords off v strb = some ws)
    (s : State) : s.regWrite off v strb = (ws.foldl (fun s w => s.bankWrite w.1 w.2) s, .ok) := by
  simp only [State.regWrite, inBank_of_lt lt, if_true, words]

theorem State.regWrite_bank_partial {off : Nat} (lt : off < 0x220000) {v : DWord} {strb : BitVec 8} (words : bankWords off v strb = none) (s : State) :
    s.regWrite off v strb = (s, .dataErr) := by
  simp only [State.regWrite, inBank_of_lt lt, if_true, words]

theorem State.accessReserved_bank {off : Nat} (lt : off < 0x220000) {v : DWord} {strb : BitVec 8} {ws : List (Nat × Word)}
    (words : bankWords off v strb = some ws) (s : State) :
    s.accessReserved (.registerWrite off v strb) = ws.any (fun w => s.hasReg w.1 && reservedBits w.1 w.2) := by
  simp only [State.accessReserved, inBank_of_lt lt, words, Bool.true_and]

theorem State.accessReserved_bank_partial {off : Nat} {v : DWord} {strb : BitVec 8} (words : bankWords off v strb = none) (s : State) :
    s.accessReserved (.registerWrite off v strb) = false := by
  simp only [State.accessReserved, words, Bool.and_false]

/-! ### Plain RW registers -/

/-- Registers of plain RW fields, whose write does nothing else. -/
def plainRegs : List Nat := [0x44, 0x48, 0x10050, 0x10058, 0x10060, 0x10410, 0x20008, 0x20014, 0x20308, 0x40000, 0x40004, 0x50200, 0x50404, 0x70200,
  0x70248, 0x80000, 0x80034]

/-- A plain register has no hook. -/
theorem State.bankWrite_plain {off : Nat} (plain : off ∈ plainRegs) (s : State) (v : Word) : s.bankWrite off v = s.storeRw off v := by
  simp only [plainRegs, List.mem_cons, List.not_mem_nil, or_false] at plain
  rcases plain with rfl | rfl | rfl | rfl | rfl | rfl | rfl | rfl | rfl | rfl | rfl | rfl | rfl | rfl | rfl | rfl | rfl <;> rfl

theorem plainRegs_aligned {off : Nat} (plain : off ∈ plainRegs) : off % 4 = 0 := by
  have all : ∀ r ∈ plainRegs, r % 4 = 0 := by decide
  exact all off plain

theorem keeps_all (x v : Word) : (x &&& ~~~(0 : Word)) ||| (v &&& 0) = x := by
  rw [show ~~~(0 : Word) = BitVec.allOnes 32 from rfl, BitVec.and_allOnes]
  exact (congrArg (x ||| ·) BitVec.and_zero).trans BitVec.or_zero

/-- R7: a write takes the RW bits. -/
theorem State.reg_storeRw (s : State) (off : Nat) (v : Word) (r : Nat) :
    (s.storeRw off v).reg r = if r = off then (s.reg off &&& ~~~s.rwMask off) ||| (v &&& s.rwMask off) else s.reg r := by
  unfold State.storeRw
  dsimp only
  split
  · rename_i none_
    rw [none_]
    split
    · rename_i same
      rw [same]
      exact (keeps_all _ _).symm
    · rfl
  · exact State.reg_setReg _ _ _ _

theorem State.storeRw_eq (s : State) (off : Nat) (v : Word) : ∃ m, s.storeRw off v = { s with regs := m } := by
  unfold State.storeRw
  dsimp only
  split
  · exact ⟨_, rfl⟩
  · exact ⟨_, rfl⟩

/-! ### Served writes -/

theorem exec_registerWrite {s : State} {off : Nat} (served : s.serves off = true) {v : DWord} {strb : BitVec 8}
    (free : s.accessReserved (.registerWrite off v strb) = false) {t : State} {r : Resp} (written : (s.granted off).regWrite off v strb = (t, r)) :
    exec (.registerWrite off v strb) s = .next (settle s (t.respond r)) :=
  exec_served_as rfl served free rfl ((applied_registerWrite off v strb _).trans written)

/-- R6: a write of a reserved field stops. -/
theorem exec_reserved {c : Instr} {s : State} {off : Nat} {w : Bool} (at_ : accessAt c = some (off, w)) (served : s.serves off = true)
    (named : valued c = true) (reserved : s.accessReserved c = true) : exec c s = .refused (.reservedWrite off) := by
  obtain ⟨on, serve, _⟩ := (serves_iff s off).mp served
  rw [exec_access c s (by rw [at_]; rfl) named, hcpAccess]
  simp only [at_, on, State.inReset_of_serves served, serve, reserved, if_true, Bool.false_eq_true, if_false]

theorem reg_answered {s u : State} (par : u.par = s.par) (r : Resp) (n : Nat) : (settle s (u.respond r)).reg n = u.reg n :=
  (reg_settle s (u.respond r) par n).trans (reg_respond u r n)

/-- Settles O9: the words of a beat are written one after another, and a plain register stores its RW bits alone. -/
theorem registerWriteSetsTheField : Obligations.RegisterWriteSetsTheField := by
  intro s off v strb served
  refine ⟨fun free => ⟨_, exec_registerWrite served free rfl⟩, fun lt => ⟨fun low high => ?_, fun low lowFree highFree => ?_, fun plain free => ?_,
    fun aligned has reserved => ?_⟩⟩
  · have words := bankWords_partial low high v
    exact exec_registerWrite served (s.accessReserved_bank_partial words) (State.regWrite_bank_partial lt words _)
  · have words := bankWords_both low v
    refine exec_registerWrite served ((s.accessReserved_bank lt words).trans ?_) (State.regWrite_bank lt words _)
    simp only [List.any_cons, List.any_nil, lowFree, highFree, Bool.and_false, Bool.or_false]
  · have words := bankWords_whole (plainRegs_aligned plain) v
    have free' : reservedBits off (beatWord off v) = false := free
    refine ⟨_, exec_registerWrite served ((s.accessReserved_bank lt words).trans ?_) (State.regWrite_bank lt words _), ?_⟩
    · simp only [List.any_cons, List.any_nil, free', Bool.and_false, Bool.or_false]
    · simp only [List.foldl_cons, List.foldl_nil, State.bankWrite_plain plain]
      obtain ⟨m, stored⟩ := (s.granted off).storeRw_eq off (beatWord off v)
      have regs := (s.granted off).reg_storeRw off (beatWord off v)
      rw [stored] at regs ⊢
      refine ⟨?_, fun r other => ?_, ?_, ?_, ?_, ?_, ?_⟩
      · rw [reg_answered (by rfl), regs, if_pos rfl]
        rfl
      · rw [reg_answered (by rfl), regs, if_neg other]
        rfl
      · rw [settle_hcp]
        rfl
      · rw [settle_cores]
        rfl
      · rw [settle_gong]
        rfl
      · rw [settle_cfg]
        rfl
      · rw [settle_mp]
        rfl
  · have words := bankWords_whole aligned v
    have reserved' : reservedBits off (beatWord off v) = true := reserved
    refine exec_reserved rfl served rfl ((s.accessReserved_bank lt words).trans ?_)
    simp only [List.any_cons, has, reserved', Bool.and_self, Bool.true_or]

end Sys2Proof.Machine
end

section
/-! PROOFS. The control matrix: accesses that name no value, the order of grants, and HCP_RST_N (O5). -/

namespace Sys2Proof.Machine

/-! ### The order of grants (R287) -/

/-- Whether a master waits for the port. -/
def Target.asks (t : Target) (m : Master) : Bool := t.waits.any (fun a => decide (a.who = m))

theorem Target.asks_iff (t : Target) (m : Master) : t.asks m = true ↔ ∃ a ∈ t.waits, a.who = m := by
  simp only [Target.asks, List.any_eq_true, decide_eq_true_eq]

/-- R287: the SM is granted first, up to four times while another waits. -/
theorem Target.pick_sm {t : Target} (asks : t.asks .sm = true) (may : t.smRun < 4 ∨ ∀ a ∈ t.waits, a.who = .sm) : t.pick = some .sm := by
  refine if_pos ?_
  refine Bool.and_eq_true_iff.mpr ⟨asks, Bool.or_eq_true_iff.mpr (may.imp decide_eq_true fun all => ?_)⟩
  simpa using all

/-- How far a master stands behind the one last granted, in the round. -/
def roundsAfter (m n : Master) : Nat := (masterCode n + 5 - masterCode m) % 6

theorem masterOf_roundsAfter (m n : Master) : masterOf ((masterCode m + 1 + roundsAfter m n) % 6) = some n := by
  cases m <;> cases n <;> rfl

theorem roundsAfter_of_masterOf {m n : Master} {i : Nat} (lt : i < 6) (at_ : masterOf ((masterCode m + 1 + i) % 6) = some n) : roundsAfter m n = i := by
  obtain rfl | rfl | rfl | rfl | rfl | rfl : i = 0 ∨ i = 1 ∨ i = 2 ∨ i = 3 ∨ i = 4 ∨ i = 5 := by omega
  all_goals cases m <;> cases at_ <;> rfl

/-- R287: else the next master in the round is granted. -/
theorem Target.pick_next {t : Target} (sm : t.asks .sm = false ∨ 4 ≤ t.smRun) {m n : Master} (last : t.last = some m) (notSm : n ≠ .sm)
    (asks : t.asks n = true) (first : ∀ a ∈ t.waits, a.who ≠ .sm → roundsAfter m n ≤ roundsAfter m a.who) : t.pick = some n := by
  have notFirst : (t.asks .sm && (decide (t.smRun < 4) || !t.waits.any (fun a => decide (a.who ≠ .sm)))) = false := by
    obtain none_ | four := sm
    · rw [none_, Bool.false_and]
    · obtain ⟨a, mem, who⟩ := (t.asks_iff n).mp asks
      have others : t.waits.any (fun a => decide (a.who ≠ .sm)) = true := List.any_eq_true.mpr ⟨a, mem, decide_eq_true (who ▸ notSm)⟩
      rw [others, decide_eq_false (Nat.not_lt.mpr four), Bool.not_true, Bool.or_self, Bool.and_false]
  refine (if_neg (Bool.eq_false_iff.mp notFirst)).trans ?_
  simp only [last, List.find?_filterMap]
  have found : (List.range 6).find? (fun i => (masterOf ((masterCode m + 1 + i) % 6)).any (fun x => decide (x ≠ .sm) && t.asks x)) = some (roundsAfter m n) := by
    refine List.find?_range_eq_some.mpr ⟨?_, List.mem_range.mpr (Nat.mod_lt _ (by decide)), fun j before => ?_⟩
    · simp only [masterOf_roundsAfter, Option.any_some, notSm, asks, ne_eq, not_false_eq_true, decide_true, Bool.and_self]
    · have lt : j < 6 := before.trans (Nat.mod_lt _ (by decide))
      cases at_ : masterOf ((masterCode m + 1 + j) % 6) with
      | none => rfl
      | some x =>
        have rank := roundsAfter_of_masterOf lt at_
        simp only [Option.any_some, Bool.not_eq_true', Bool.and_eq_false_iff, decide_eq_false_iff_not, ne_eq, not_not]
        by_contra h
        obtain ⟨other, waits⟩ := not_or.mp h
        obtain ⟨a, mem, who⟩ := (t.asks_iff x).mp (Bool.eq_true_of_not_eq_false waits)
        have le := first a mem (who ▸ other)
        rw [who] at le
        omega
  refine (congrArg (Option.bind · _) found).trans ?_
  exact masterOf_roundsAfter m n

/-! ### Accesses that are not served (R290, R294) -/

/-- A target port whose path `m` holds for `c`, with no other access waiting. -/
def Target.heldBy (m : Master) (c : Instr) : Target :=
  { last := some m, park := some m, smRun := 0, path := some { who := m, cmd := c, orphan := false }, waits := [] }

theorem State.path_setTarget_heldBy (s : State) (k : Nat) (m : Master) (c : Instr) :
    ((s.setTarget k (Target.heldBy m c)).target k).path = some { who := m, cmd := c, orphan := false } := by
  rw [State.target_setTarget, if_pos rfl, Target.heldBy]

theorem State.freePath_heldBy (s : State) (m : Master) (off : Nat) (c : Instr) :
    (s.setTarget (s.portOf m off) (Target.heldBy m c)).freePath (s.portOf m off) = s.grantedTo m off := by
  simp only [State.freePath, Target.heldBy, State.setTarget_setTarget, State.target_setTarget, if_true, State.grantedTo]

/-- An access that reaches its port holds its path. -/
theorem State.accessFrom_reaches {s : State} {m : Master} {off : Nat} {c : Instr} {w : Bool} (access : accessAt c = some (off, w))
    (reaches : s.reaches m off = true) :
    s.accessFrom m c = (s.setTarget (s.portOf m off) (Target.heldBy m c)).tryPath (s.portOf m off) true := by
  unfold State.accessFrom
  by_cases hcp : m = .hcp
  · subst hcp
    rw [if_pos rfl]
    rw [State.reaches, if_pos rfl] at reaches
    exact offer_free c s off w access reaches
  · have free : (s.forwards m && (s.target (s.portOf m off)).path.isNone && (s.target (s.portOf m off)).waits.isEmpty) = true :=
      (if_neg hcp).symm.trans reaches
    simp only [Bool.and_eq_true, Option.isNone_iff_eq_none, List.isEmpty_iff] at free
    obtain ⟨⟨forwards, path⟩, waits⟩ := free
    rw [if_neg hcp, if_pos forwards]
    exact submit_free c s m off w access path waits

/-- The ports `p` with the access of `m` at `off` as the last one not served, for the reason `code` (R290, R294). -/
def Ports.lastOf (p : Ports) (m : Master) (off code : Nat) : Ports :=
  { p with cmLastAddr := off % 0x4000000, cmLastMst := masterCode m, cmLastCode := code }

theorem State.missAccess_eq (s : State) (m : Master) (off : Nat) :
    ∃ at_ e, s.missAccess m off =
      { s with
          mp := Ports.lastOf { s.mp with cmMiss := satAdd s.mp.cmMiss 1 max32, missAt := at_ } m off 0x0408
          ev := e : State }.noTarget m := by
  by_cases hcp : m = .hcp
  · subst hcp
    exact s.missAccess_hcp_eq off
  · have quiet (u : State) : u.noTarget m = u := if_neg hcp
    unfold State.missAccess
    simp only [quiet]
    split
    · obtain ⟨e, recorded⟩ := State.matrixRec_eq _ _ _ _ _ _ _ _
      exact ⟨_, e, recorded⟩
    · exact ⟨s.mp.missAt, s.ev, rfl⟩

theorem State.offRec_eq (s : State) (m : Master) (off g woke : Nat) :
    ∃ e, s.offRec m off g woke =
      { s with mp := Ports.lastOf { s.mp with cmOff := satAdd s.mp.cmOff 1 max32 } m off 0x0409, ev := e } :=
  State.matrixRec_eq _ _ _ _ _ _ _ _

/-- The port of the HCP after an access of `m` that nothing serves. -/
def HcpPort.after (x : HcpPort) (m : Master) (w : Bool) : HcpPort :=
  if m = .hcp then (if w = true then { x with resp := .noTarget } else { x with resp := .noTarget, data := [0], poison := [false] }) else x

/-- A row that names an access without a value. -/
def valueless (m : Master) (off : Nat) (w : Bool) (c : Instr) : Prop := c = .defaultTargetAccess m off w ∨ c = .regionOffAccess m off w

theorem State.blankRead_unserved {m : Master} {off : Nat} {w : Bool} {c : Instr} (row : valueless m off w c) (s : State) :
    (s.noTarget m).blankRead c = { s with hcp := s.hcp.after m w } := by
  obtain rfl | rfl := row <;> cases m <;> cases w <;> rfl

theorem accessAt_valueless {m : Master} {off : Nat} {w : Bool} {c : Instr} (row : valueless m off w c) : accessAt c = some (off, w) := by
  obtain rfl | rfl := row <;> rfl

theorem exec_defaultTargetAccess {s : State} {m : Master} {off : Nat} (w : Bool) (on : s.pwr.blockOff = false) (miss : s.verdict m off = .miss) :
    exec (.defaultTargetAccess m off w) s = .next (settle s (s.accessFrom m (.defaultTargetAccess m off w))) := by
  refine (if_neg (Bool.eq_false_iff.mp on)).trans ?_
  rw [miss]

theorem exec_regionOffAccess {s : State} {m : Master} {off g : Nat} (w : Bool) (on : s.pwr.blockOff = false)
    (out : s.verdict m off = .off g ∨ s.verdict m off = .stall g) :
    exec (.regionOffAccess m off w) s = .next (settle s (s.accessFrom m (.regionOffAccess m off w))) := by
  refine (if_neg (Bool.eq_false_iff.mp on)).trans ?_
  obtain out | out := out <;> rw [out]

theorem exec_defaultTargetAccess_miss {s : State} {m : Master} {off : Nat} (w : Bool) (on : s.pwr.blockOff = false) (miss : s.verdict m off = .miss)
    (reaches : s.reaches m off = true) :
    ∃ t, exec (.defaultTargetAccess m off w) s = .next t ∧ t.mp.cmMiss = min (s.mp.cmMiss + 1) 0xFFFFFFFF
      ∧ t.mp.cmLastAddr = off % 0x4000000 ∧ t.mp.cmLastCode = 0x0408 ∧ t.hcp = s.hcp.after m w ∧ t.regs = s.regs := by
  have row : valueless m off w (.defaultTargetAccess m off w) := .inl rfl
  obtain ⟨at_, e, left⟩ := (s.grantedTo m off).missAccess_eq m off
  have tried := State.tryPath_miss (s.path_setTarget_heldBy (s.portOf m off) m _) (accessAt_valueless row) ((verdict_setTarget _ _ _ _ _).trans miss)
  rw [State.freePath_heldBy, left, State.blankRead_unserved row] at tried
  refine ⟨_, exec_defaultTargetAccess w on miss, ?_⟩
  rw [State.accessFrom_reaches (accessAt_valueless row) reaches, tried, settle_mp, settle_hcp, settle_regs]
  exact ⟨rfl, rfl, rfl, rfl, rfl⟩

theorem exec_regionOffAccess_off {s : State} {m : Master} {off g : Nat} (w : Bool) (on : s.pwr.blockOff = false) (out : s.verdict m off = .off g)
    (reaches : s.reaches m off = true) :
    ∃ t, exec (.regionOffAccess m off w) s = .next t ∧ t.mp.cmOff = min (s.mp.cmOff + 1) 0xFFFFFFFF
      ∧ t.mp.cmLastAddr = off % 0x4000000 ∧ t.mp.cmLastCode = 0x0409 ∧ t.hcp = s.hcp.after m w ∧ t.regs = s.regs := by
  have row : valueless m off w (.regionOffAccess m off w) := .inr rfl
  obtain ⟨e, left⟩ := (s.grantedTo m off).offRec_eq m off g 0
  have tried := State.tryPath_off (s.path_setTarget_heldBy (s.portOf m off) m _) (accessAt_valueless row) ((verdict_setTarget _ _ _ _ _).trans out)
  rw [State.freePath_heldBy, left, State.blankRead_unserved row] at tried
  refine ⟨_, exec_regionOffAccess w on (.inl out), ?_⟩
  rw [State.accessFrom_reaches (accessAt_valueless row) reaches, tried, settle_mp, settle_hcp, settle_regs]
  exact ⟨rfl, rfl, rfl, rfl, rfl⟩

/-! ### Accesses that wait for their region (R294) -/

theorem State.region_recordWake (s : State) (srcs : Nat) (gs : List Nat) (g : Nat) : (s.recordWake srcs gs).region g = s.region g := by
  unfold State.recordWake
  split
  · rfl
  · exact (State.region_evt _ _ _ _ _).trans rfl

/-- A wake leads no region to RUN that entered no state. -/
theorem State.low_wake {s : State} {g : Nat} (still : (s.region g).entering = none) (out : (s.region g).state ≠ .run) (src : Nat) (level : Bool) :
    ((s.wake src level [g]).region g).low ≠ .run := by
  have woken : ((s.wakeRegion g src level).1.region g).low ≠ .run := by
    have stays : (s.region g).low ≠ .run := by rwa [Region.low, still]
    simp only [State.wakeRegion, still]
    split
    · exact stays
    · exact stays
    · exact stays
    · split
      · exact stays
      · simp [State.region_setRegion, Region.low]
  unfold State.wake
  dsimp only [List.foldl_cons, List.foldl_nil]
  rw [State.region_recordWake]
  split
  · exact woken
  · rwa [Region.low, still]

theorem State.stateFor_of_stall {s : State} {m : Master} {off g : Nat} (stall : s.verdict m off = .stall g) : s.stateFor g ≠ .run := by
  unfold State.verdict at stall
  split at stall
  · cases stall
  · split at stall
    · cases stall
    · split at stall
      · cases stall
      · split at stall
        · split at stall <;> cases stall
        · split at stall
          · cases stall
            assumption
          · cases stall

theorem State.not_aon_of_stall {s : State} {m : Master} {off g : Nat} (stall : s.verdict m off = .stall g) : g ≠ 8 := by
  rintro rfl
  exact State.stateFor_of_stall stall rfl

/-- R294: the access that wakes its region keeps its path. -/
theorem State.tryPath_stall {s : State} {k off g : Nat} {w : Bool} {a : MAccess} (holds : (s.target k).path = some a)
    (access : accessAt a.cmd = some (off, w)) (stall : s.verdict a.who off = .stall g) (still : (s.region g).entering = none) :
    ∃ p e, s.tryPath k true = { s with mp := Ports.lastOf { s.mp with cmOff := satAdd s.mp.cmOff 1 max32 } a.who off 0x0409, pwr := p, ev := e } := by
  obtain ⟨e, left⟩ := s.offRec_eq a.who off g (b2n (decide ((s.region g).state ≠ .waking)))
  have out : (s.region g).low ≠ .run := fun run => State.stateFor_of_stall stall ((if_neg (State.not_aon_of_stall stall)).trans run)
  rw [Region.low, still] at out
  have waits (u : State) (same : u.region g = s.region g) : ((u.onRegion g (fun r => { r with access := true })).wake 5 true [g]).stateFor g ≠ .run := by
    rw [State.stateFor, if_neg (State.not_aon_of_stall stall)]
    refine State.low_wake ?_ ?_ 5 true
    · simpa [State.region_onRegion, same] using still
    · simpa [State.region_onRegion, same] using out
  simp only [State.tryPath, holds, access, stall, if_true]
  rw [if_neg (waits _ (by rw [left]; rfl)), left]
  obtain ⟨p, e', woken⟩ := State.wake_eq (State.onRegion _ g (fun r => { r with access := true })) 5 true [g]
  exact ⟨p, e', woken⟩

theorem exec_regionOffAccess_stall {s : State} {m : Master} {off g : Nat} (w : Bool) (on : s.pwr.blockOff = false) (stall : s.verdict m off = .stall g)
    (reaches : s.reaches m off = true) (still : (s.region g).entering = none) :
    ∃ t, exec (.regionOffAccess m off w) s = .next t ∧ t.mp.cmOff = min (s.mp.cmOff + 1) 0xFFFFFFFF
      ∧ (t.target (s.portOf m off)).path = some { who := m, cmd := .regionOffAccess m off w, orphan := false }
      ∧ t.hcp = s.hcp ∧ t.regs = s.regs := by
  have row : valueless m off w (.regionOffAccess m off w) := .inr rfl
  have holds := s.path_setTarget_heldBy (s.portOf m off) m (.regionOffAccess m off w)
  obtain ⟨p, e, tried⟩ := State.tryPath_stall holds (accessAt_valueless row) ((verdict_setTarget _ _ _ _ _).trans stall) still
  refine ⟨_, exec_regionOffAccess w on (.inr stall), ?_⟩
  rw [State.accessFrom_reaches (accessAt_valueless row) reaches, tried, State.target, settle_mp, settle_hcp, settle_regs]
  exact ⟨rfl, holds, rfl, rfl⟩

/-- R287: a path that is held lets no other access in. -/
theorem exec_regionOffAccess_held {s : State} {m : Master} {off g : Nat} (w : Bool) (on : s.pwr.blockOff = false)
    (out : s.verdict m off = .off g ∨ s.verdict m off = .stall g) (notHcp : m ≠ .hcp) (forwards : s.forwards m = true) {a : MAccess}
    (held : (s.target (s.portOf m off)).path = some a) :
    exec (.regionOffAccess m off w) s = .next (settle s (s.setTarget (s.portOf m off) { s.target (s.portOf m off) with
      waits := (s.target (s.portOf m off)).waits ++ [{ who := m, cmd := .regionOffAccess m off w, orphan := false }] })) := by
  rw [exec_regionOffAccess w on out, State.accessFrom, if_neg notHcp, if_pos forwards]
  have access := accessAt_valueless (m := m) (off := off) (w := w) (.inr rfl)
  simp only [State.submit, access, State.arbitrate, State.target_setTarget, if_true, held, Option.isSome_some]

/-! ### HCP_RST_N (R292) -/

/-- What the matrix keeps of accesses: those offered on the HCP and the target ports. -/
def State.matrix (s : State) : List Instr × SMap Target := (s.hcp.offers, s.mp.targets)

/-- No access of the HCP is offered, waits or holds a path, but for orphans. -/
def State.HcpGone (s : State) : Prop := s.hcp.offers = [] ∧ ∀ k, (∀ a ∈ (s.target k).waits, a.who ≠ .hcp)
  ∧ ∀ a, (s.target k).path = some a → a.who = .hcp → a.orphan = true

theorem State.HcpGone.congr {s t : State} (gone : s.HcpGone) (same : t.matrix = s.matrix) : t.HcpGone := by
  obtain ⟨offers, targets⟩ := Prod.mk.inj same
  unfold State.HcpGone State.target at *
  rwa [offers, targets]

/-- One target port changes to one without the HCP. -/
theorem State.HcpGone.setTarget {s : State} (gone : s.HcpGone) {k : Nat} {x : Target} (waits : ∀ a ∈ x.waits, a.who ≠ .hcp)
    (path : ∀ a, x.path = some a → a.who = .hcp → a.orphan = true) : (s.setTarget k x).HcpGone := by
  refine ⟨gone.1, fun n => ?_⟩
  rw [State.target_setTarget]
  split
  · exact ⟨waits, path⟩
  · exact gone.2 n

theorem State.HcpGone.freePath {s : State} (gone : s.HcpGone) (k : Nat) : (s.freePath k).HcpGone := gone.setTarget (gone.2 k).1 nofun

theorem State.matrix_missAccess (s : State) (m : Master) (off : Nat) : (s.missAccess m off).matrix = s.matrix := by
  obtain ⟨at_, e, left⟩ := s.missAccess_eq m off
  rw [left]
  cases m <;> rfl

theorem State.matrix_blankRead (s : State) (c : Instr) : (s.blankRead c).matrix = s.matrix := by
  unfold State.blankRead
  split <;> rfl

theorem State.matrix_noTarget (s : State) (m : Master) : (s.noTarget m).matrix = s.matrix := by cases m <;> rfl

theorem State.matrix_offRec (s : State) (m : Master) (off g woke : Nat) : (s.offRec m off g woke).matrix = s.matrix := by
  obtain ⟨e, left⟩ := s.offRec_eq m off g woke
  rw [left]
  rfl

theorem State.matrix_wake (s : State) (src : Nat) (level : Bool) (gs : List Nat) : (s.wake src level gs).matrix = s.matrix := by
  obtain ⟨p, e, woken⟩ := s.wake_eq src level gs
  rw [woken]
  rfl

/-- R292: an orphan that is finished leaves its path and counts. -/
theorem State.orphanDone_eq (s : State) (k : Nat) (a : MAccess) (off : Nat) : ∃ x e, x.path = none ∧ x.waits = (s.target k).waits
    ∧ s.orphanDone k a off = { s with mp := { (s.setTarget k x).mp with cmOrphan := satAdd s.mp.cmOrphan 1 max32 }, ev := e } := by
  obtain ⟨e, recorded⟩ := State.matrixRec_eq _ _ _ _ _ _ _ _
  exact ⟨{ s.target k with path := none, park := if (s.target k).park = some a.who then none else (s.target k).park }, e, rfl, rfl, recorded⟩

theorem State.HcpGone.orphanDone {s : State} (gone : s.HcpGone) (k : Nat) (a : MAccess) (off : Nat) : (s.orphanDone k a off).HcpGone := by
  obtain ⟨x, e, path, waits, done⟩ := s.orphanDone_eq k a off
  rw [done]
  refine State.HcpGone.congr (s := s.setTarget k x) (gone.setTarget ?_ ?_) rfl
  · rw [waits]
    exact (gone.2 k).1
  · rw [path]
    nofun

/-- A target that serves an access of another master changes nothing of it. -/
theorem State.HcpGone.serveFor {s : State} (gone : s.HcpGone) {a : MAccess} (other : a.who ≠ .hcp) : (s.serveFor a).HcpGone := by
  rwa [State.serveFor, if_neg other]

theorem State.HcpGone.tryPath {s : State} (gone : s.HcpGone) (k : Nat) {first : Bool}
    (granted : first = true → ∀ a, (s.target k).path = some a → a.who ≠ .hcp) : (s.tryPath k first).HcpGone := by
  unfold State.tryPath
  split
  · exact gone
  · rename_i a holds
    have other (sound : a.orphan = false) : a.who ≠ .hcp := fun hcp => by
      rw [(gone.2 k).2 a holds hcp] at sound
      cases sound
    split
    · exact gone.freePath k
    · split
      · exact gone.freePath k
      · split
        · exact gone.orphanDone k a _
        · exact (gone.freePath k).serveFor (other (Bool.eq_false_of_not_eq_true ‹_›))
      · split
        · exact (gone.freePath k).congr ((State.matrix_blankRead _ _).trans (State.matrix_missAccess _ _ _))
        · exact gone
      · split
        · exact (gone.freePath k).congr ((State.matrix_blankRead _ _).trans ((State.matrix_noTarget _ _).trans (State.matrix_offRec _ _ _ _ _)))
        · exact gone
      · exact gone
      · split
        · rename_i g _ _
          have woken (off n : Nat) : (((s.offRec a.who off g n).onRegion g (fun r => { r with access := true })).wake 5 true [g]).HcpGone :=
            gone.congr ((State.matrix_wake _ _ _ _).trans (State.matrix_offRec s a.who off g n))
          dsimp only
          split
          · refine State.HcpGone.serveFor (State.HcpGone.freePath ?_ k) (granted ‹_› a holds)
            exact (woken _ _).congr rfl
          · exact woken _ _
        · exact gone

theorem Target.mem_waits_grant {t : Target} {m : Master} {a : MAccess} (mem : a ∈ (t.grant m).waits) : a ∈ t.waits := by
  unfold Target.grant at mem
  dsimp only at mem
  split at mem
  · exact mem
  · exact List.mem_of_mem_erase mem

theorem Target.mem_of_path_grant {t : Target} {m : Master} {a : MAccess} (free : t.path = none) (path : (t.grant m).path = some a) : a ∈ t.waits := by
  unfold Target.grant at path
  dsimp only at path
  split at path
  · rw [free] at path
    cases path
  · cases path
    exact List.mem_of_find?_eq_some ‹_›

theorem State.HcpGone.arbitrate (fuel k : Nat) {s : State} (gone : s.HcpGone) : (State.arbitrate fuel k s).HcpGone := by
  induction fuel generalizing s with
  | zero => exact gone
  | succ fuel ih =>
    unfold State.arbitrate
    dsimp only
    split
    · exact gone
    · have free := Option.not_isSome_iff_eq_none.mp ‹_›
      split
      · exact gone
      · rename_i m _
        have mine {a : MAccess} (path : ((s.target k).grant m).path = some a) : a.who ≠ .hcp := (gone.2 k).1 a (Target.mem_of_path_grant free path)
        refine ih (State.HcpGone.tryPath (gone.setTarget (fun a mem => (gone.2 k).1 a (Target.mem_waits_grant mem)) fun a path hcp => absurd hcp (mine path)) k
          fun _ a path => mine ?_)
        rwa [State.target_setTarget, if_pos rfl] at path

/-- R292: what is granted after the reset is no access of the HCP. -/
theorem State.HcpGone.replay {s : State} (gone : s.HcpGone) : s.replay.HcpGone := by
  unfold State.replay
  have ports : ((List.range 32).foldl (fun s k => State.arbitrate ((s.tryPath k false).target k).waits.length k (s.tryPath k false)) s).HcpGone :=
    List.foldlRecOn (motive := State.HcpGone) _ _ gone fun s gone k _ => (gone.tryPath k (first := false) nofun).arbitrate _ k
  dsimp only
  generalize (List.range 32).foldl (fun s k => State.arbitrate ((s.tryPath k false).target k).waits.length k (s.tryPath k false)) s = u at ports ⊢
  rw [ports.1]
  refine List.foldlRecOn (motive := State.HcpGone) _ _ ports fun s gone g _ => ?_
  split
  · exact gone.congr rfl
  · exact gone

theorem State.target_masterReset (s : State) (f : Master → Bool) (k : Nat) : (s.masterReset f).target k = { s.target k with
    path := (s.target k).path.map (fun a => if f a.who then { a with orphan := true } else a), waits := (s.target k).waits.filter (fun a => !f a.who) } :=
  SMap.get_map s.mp.targets Target.reset (fun t => { t with
    path := t.path.map (fun a => if f a.who then { a with orphan := true } else a), waits := t.waits.filter (fun a => !f a.who) }) rfl k

theorem State.hcpGone_masterReset (s : State) : ({ s with hcp := { s.hcp with offers := [] } }.masterReset (fun m => decide (m = Master.hcp))).HcpGone := by
  refine ⟨rfl, fun k => ?_⟩
  rw [State.target_masterReset]
  refine ⟨fun a mem => ?_, fun a path hcp => ?_⟩
  · simpa using (List.mem_filter.mp mem).2
  · obtain ⟨b, _, same⟩ := Option.map_eq_some_iff.mp path
    split at same
    · exact same ▸ rfl
    · subst same
      simp [hcp] at *

theorem State.hcpGone_hcpReset (s : State) : s.hcpReset.HcpGone := s.hcpGone_masterReset.replay

/-! ### HCP_RST_N with no access under way -/

/-- No access is under way at any target port. -/
def State.noAccess (s : State) : Prop := ∀ e ∈ s.mp.targets, e.2.path = none ∧ e.2.waits = []

theorem State.target_of_noAccess {s : State} (none_ : s.noAccess) (k : Nat) : (s.target k).path = none ∧ (s.target k).waits = [] := by
  by_cases is : s.target k = Target.reset
  · rw [is]
    exact ⟨rfl, rfl⟩
  · exact none_ (k, s.target k) (SMap.mem_of_get_ne is)

theorem State.masterReset_of_noAccess {s : State} (none_ : s.noAccess) (f : Master → Bool) : s.masterReset f = s := by
  have same : s.mp.targets.map (fun e => (e.1, { e.2 with
      path := e.2.path.map (fun a => if f a.who then { a with orphan := true } else a), waits := e.2.waits.filter (fun a => !f a.who) })) = s.mp.targets := by
    refine (List.map_congr_left (g := id) fun e mem => ?_).trans (List.map_id _)
    obtain ⟨path, waits⟩ := none_ e mem
    simp only [path, waits, Option.map_none, List.filter_nil]
    rw [← path, ← waits]
    rfl
  rw [State.masterReset, same]

theorem State.tryPath_of_free {s : State} {k : Nat} (free : (s.target k).path = none) (first : Bool) : s.tryPath k first = s := by
  simp only [State.tryPath, free]

theorem State.replay_of_noAccess {s : State} (none_ : s.noAccess) (offers : s.hcp.offers = []) (votes : ∀ g, g < 8 → (s.region g).access = false) :
    s.replay = s := by
  have ports : (List.range 32).foldl (fun s k => State.arbitrate ((s.tryPath k false).target k).waits.length k (s.tryPath k false)) s = s := by
    refine List.foldlRecOn (motive := fun u => u = s) _ _ rfl fun u same k _ => ?_
    subst same
    obtain ⟨path, waits⟩ := State.target_of_noAccess none_ k
    rw [State.tryPath_of_free path, waits]
    rfl
  unfold State.replay
  dsimp only
  rw [ports, offers]
  refine List.foldlRecOn (motive := fun u => u = s) _ _ rfl fun u same g mem => ?_
  subst same
  refine if_neg ?_
  rw [votes g (List.mem_range.mp mem), Bool.false_and, Bool.false_and]
  nofun

theorem State.hcpReset_of_noAccess {s : State} (none_ : s.noAccess) (votes : ∀ g, g < 8 → (s.region g).access = false) :
    s.hcpReset = { s with hcp := { s.hcp with offers := [] } } := by
  unfold State.hcpReset
  rw [State.masterReset_of_noAccess (s := { s with hcp := { s.hcp with offers := [] } }) none_]
  exact State.replay_of_noAccess none_ rfl votes

/-- R292: an orphan whose region runs is finished and counted. -/
theorem State.tryPath_orphan {s : State} {k off : Nat} {w : Bool} {a : MAccess} (holds : (s.target k).path = some a) (orphan : a.orphan = true)
    (access : accessAt a.cmd = some (off, w)) (serve : s.verdict a.who off = .serve) : s.tryPath k false = s.orphanDone k a off := by
  simp only [State.tryPath, holds, access, serve, orphan, if_true]

/-- Settles O5. -/
theorem accessRowsWithoutAValue : Obligations.AccessRowsWithoutAValue := by
  refine ⟨fun s m off w on => ⟨fun reset => ?_, exec_defaultTargetAccess_miss w on, fun g => exec_regionOffAccess_off w on,
      fun g => exec_regionOffAccess_stall w on, fun g a out notHcp forwards => exec_regionOffAccess_held w on out.symm notHcp forwards⟩,
    fun t => ⟨fun asks may => Target.pick_sm asks may, fun sm m n last notSm asks first => ?_⟩,
    fun s => ⟨⟨_, rfl, ?_⟩, fun none_ votes => ?_, fun k off w a holds orphan access serve => ?_⟩⟩
  · refine (if_neg (Bool.eq_false_iff.mp on)).trans (next_settle_congr ((if_pos reset).trans ?_))
    cases w <;> rfl
  · refine Target.pick_next (sm.imp (fun others => ?_) id) last notSm ((t.asks_iff n).mpr asks) first
    exact Bool.eq_false_iff.mpr fun has => (let ⟨a, mem, who⟩ := (t.asks_iff .sm).mp has; others a mem who)
  · obtain ⟨offers, ports⟩ := s.hcpGone_hcpReset
    simp only [State.target, settle_mp, settle_hcp]
    exact ⟨offers, ports⟩
  · exact next_settle_congr (State.hcpReset_of_noAccess none_ votes)
  · obtain ⟨x, e, path, waits, done⟩ := s.orphanDone_eq k a off
    have freed : (s.setTarget k x).target k = x := (State.target_setTarget _ _ _ _).trans (if_pos rfl)
    rw [State.tryPath_orphan holds orphan access serve, done]
    exact ⟨rfl, (congrArg Target.path freed).trans path, rfl, rfl, rfl, rfl, rfl⟩

end Sys2Proof.Machine
end

section
/-! PROOFS. The time unit through a gong, and RATE_NOM and SET_CTRL.GO (O15). -/

namespace Sys2Proof.Machine

/-! ### What the steps of a gong sequence leave of the time unit: all of it -/

theorem State.tu_foldl {α : Type} (f : State → α → State) (keeps : ∀ s x, (f s x).tu = s.tu) (l : List α) (s : State) : (l.foldl f s).tu = s.tu :=
  foldl_keeps State.tu f keeps l s

theorem State.tu_ite {c : Prop} [Decidable c] {s t : State} {u : TimeUnit} (yes : s.tu = u) (no : t.tu = u) : (if c then s else t).tu = u := by
  split
  · exact yes
  · exact no

theorem State.tu_report (s : State) (r : Report) : (s.report r).tu = s.tu := rfl

theorem State.tu_matrixRec (s : State) (code m off g st woke pc : Nat) : (s.matrixRec code m off g st woke pc).tu = s.tu := State.evt_tu _ _ _ _

theorem State.tu_fire (s : State) (t : Int) : (s.fire t).tu = s.tu := State.tu_ite rfl (State.evt_tu _ _ _ _)

theorem State.tu_fetched (s : State) (pc n : Nat) : (s.fetched pc n).tu = s.tu := by
  unfold State.fetched
  dsimp only
  split <;> rfl

theorem State.tu_finishFetches (s : State) : s.finishFetches.tu = s.tu := State.tu_foldl _ (fun s p => by exact s.tu_fetched p.1 p.2) _ s

theorem State.tu_stopList (s : State) (pc : Nat) (c : Ctx) (k : Kinds) (cause : Nat) : (s.stopList pc c k cause).tu = s.tu :=
  congrArg Prod.fst (s.fixed_stopList pc c k cause)

theorem State.tu_cutCtx (s : State) (due : ListRef → Bool) (pc : Nat) (c : Ctx) : (s.cutCtx due pc c).1.tu = s.tu := by
  have queue : (if (((s.core pc).ctx c).queue.filter due).map (fun l =>
      ({ list := l, pc := pc, done := 0, rest := s.listRest l (listRecords - l.start) 0, late := 0 } : Cut)) |>.isEmpty then s
      else s.onCtx pc c (fun x => { x with queue := x.queue.filter (fun l => !due l) })).tu = s.tu := by
    split <;> rfl
  unfold State.cutCtx
  dsimp only
  split
  · split
    · exact (State.tu_stopList _ _ _ _ _).trans queue
    · exact queue
  · exact queue

theorem State.tu_cutAll (s : State) (due : ListRef → Bool) : (s.cutAll due).1.tu = s.tu := by
  refine List.foldlRecOn (motive := fun a : State × List Cut => a.1.tu = s.tu) _ _ rfl fun a keeps pc _ => ?_
  exact (State.tu_cutCtx _ due pc .bg).trans ((a.1.tu_cutCtx due pc .fg).trans keeps)

theorem State.tu_countCuts (s : State) (cs : List Cut) : (s.countCuts cs).tu = s.tu :=
  State.tu_foldl (fun s (k : Cut) => s.onLc k.list.lc _) (fun _ _ => rfl) cs s

theorem State.tu_margins (s : State) (t : Int) : (s.margins t).tu = s.tu := State.tu_foldl _ (fun _ _ => by rfl) _ s

theorem State.tu_coreGhost (s : State) (pc : Nat) : (s.coreGhost pc).tu = s.tu := State.tu_matrixRec _ _ _ _ _ _ _ _

theorem State.tu_coreGong (s : State) (pc : Nat) : (s.coreGong pc).tu = s.tu := by
  refine State.tu_ite (u := s.tu) ?fab (State.tu_ite ((State.tu_coreGhost _ _).trans ?fab) ((State.evt_tu _ _ _ _).trans ?fab))
  exact State.tu_ite rfl (State.tu_ite (s.tu_coreGhost pc) (s.evt_tu _ _ _))

theorem State.tu_putOverrides (s : State) (im : Image) (v : Nat) : (s.putOverrides im v).tu = s.tu :=
  (State.tu_foldl _ (fun _ _ => by rfl) _ _).trans (State.tu_foldl _ (fun _ _ => by rfl) _ s)

theorem State.tu_putMap (s : State) (im : Image) (v : Nat) : (s.putMap im v).tu = s.tu :=
  (State.tu_putOverrides _ im v).trans ((State.tu_foldl _ (fun _ _ => by rfl) _ _).trans (State.tu_foldl _ (fun _ _ => by rfl) _ s))

theorem State.tu_variantRec (s : State) (code : Nat) : (s.variantRec code).tu = s.tu := State.evt_tu _ _ _ _

theorem State.tu_applyMaps (s : State) (ds : List (Nat × Option Nat)) : (s.applyMaps ds).tu = s.tu := by
  refine State.tu_foldl _ (fun s d => (State.tu_variantRec _ _).trans ?_) ds s
  split
  · exact s.tu_putMap _ _
  · rfl

theorem State.tu_setPair (s : State) (i : PairId) (x : PairLatch) : (s.setPair i x).tu = s.tu := by cases i <;> rfl

theorem State.tu_pairTake (s : State) (i : PairId) (a b : Nat) : (s.pairTake i a b).tu = s.tu := by
  cases i with
  | gong => exact State.evt_tu _ _ _ _
  | partition _ | queue _ | peal _ | region _ | admission => rfl

theorem State.tu_applyPair (s : State) (i : PairId) : (s.applyPair i).tu = s.tu := by
  unfold State.applyPair
  split
  · dsimp only
    split
    · exact (State.tu_pairTake _ _ _ _).trans (s.tu_setPair i _)
    · exact (State.evt_tu _ _ _ _).trans (s.tu_setPair i _)
  · rfl

theorem State.tu_applyPairs (s : State) : s.applyPairs.tu = s.tu := by
  unfold State.applyPairs
  split
  · rfl
  · exact State.tu_foldl _ (fun s i => by exact s.tu_applyPair i) _ s

theorem State.tu_routeUpdate (s : State) : s.routeUpdate.tu = s.tu := by
  unfold State.routeUpdate
  split
  · rfl
  · exact (State.evt_tu _ _ _ _).trans (State.tu_foldl _ (fun s id => by exact s.evt_tu _ _ _) _ s)

theorem State.tu_swapRoles (s : State) : s.swapRoles.tu = s.tu := by
  refine State.tu_foldl _ (fun s n => ?_) _ s
  have swapped := State.tu_foldl (fun s k => s.invertRole n k) (fun _ _ => rfl) (s.lc n).swaps s
  dsimp only
  split
  · exact swapped
  · exact swapped

theorem State.tu_histories (s : State) : s.histories.tu = s.tu := by
  refine State.tu_foldl _ (fun s i => ?_) _ s
  refine State.tu_ite (u := s.tu) ((State.evt_tu _ _ _ _).trans ?latched) ?latched
  exact State.tu_ite rfl rfl

theorem State.tu_rejoin (s : State) : s.rejoin.tu = s.tu := by
  refine State.tu_foldl _ (fun s e => ?_) _ s
  dsimp only
  split
  · rfl
  · exact State.tu_foldl _ (fun s k => by exact State.evt_tu _ _ _ _) _ s

theorem State.tu_unknellNow (s : State) : s.unknellNow.tu = s.tu := State.tu_foldl _ (fun s pc => by exact State.evt_tu _ _ _ _) _ _

theorem State.tu_selectType (s : State) (t : Int) : (s.selectType t).tu = s.tu := by
  refine State.tu_ite (u := s.tu) ((State.emitAt_tu _ _ _ _ _ _ _).trans ?typed) ?typed
  exact State.tu_ite (State.evt_tu _ _ _ _) rfl

theorem State.tu_releaseTo (s : State) (point n : Nat) : (s.releaseTo point n).tu = s.tu := by
  unfold State.releaseTo
  split
  · rfl
  · split
    · rfl
    · exact State.tu_foldl _ (fun s e => by exact State.tu_ite rfl (State.tu_ite rfl (State.tu_ite rfl rfl))) _ s

theorem State.tu_releaseAt (s : State) (point : Nat) : (s.releaseAt point).tu = s.tu := State.tu_foldl _ (fun s n => by exact s.tu_releaseTo point n) _ s

theorem State.tu_onLcs (s : State) (f : LogCore → LogCore) : (s.onLcs f).tu = s.tu := rfl

theorem State.tu_nextGong (s : State) (t : Int) (wasMode : Bool) : (s.nextGong t wasMode).tu = s.tu := by
  unfold State.nextGong
  dsimp only
  split <;> rfl

theorem State.tu_cutRecords (s : State) (cs : List Cut) : (s.cutRecords cs).tu = s.tu := State.tu_foldl _ (fun s k => by exact s.evt_tu _ _ _) _ s

theorem State.tu_fall (s : State) (g : Nat) : (s.fall g).tu = s.tu := by
  unfold State.fall
  dsimp only
  split
  · split <;> rfl
  · rfl

/-! ### The commit of an image -/

theorem State.tu_setGongEn (s : State) (en : Bool) : (s.setGongEn en).tu = s.tu := State.tu_ite rfl (State.tu_ite rfl rfl)

theorem State.tu_putGong (s : State) (im : Image) : (s.putGong im).tu = s.tu := (State.tu_setGongEn _ _).trans (State.tu_ite rfl rfl)

theorem State.tu_putPartitions (s : State) (im : Image) : (s.putPartitions im).tu = s.tu := State.tu_foldl _ (fun _ _ => by rfl) _ s

theorem State.tu_putQueues (s : State) (im : Image) : (s.putQueues im).tu = s.tu := State.tu_foldl _ (fun _ _ => by rfl) _ s

theorem State.tu_putPeals (s : State) (im : Image) : (s.putPeals im).tu = s.tu := State.tu_foldl _ (fun _ _ => by rfl) _ s

theorem State.tu_putChannels (s : State) (im : Image) : (s.putChannels im).tu = s.tu := State.tu_foldl _ (fun _ _ => by exact State.tu_ite rfl rfl) _ s

theorem State.tu_putPorts (s : State) (im : Image) : (s.putPorts im).tu = s.tu := State.tu_foldl _ (fun _ _ => by rfl) _ s

theorem State.tu_putRings (s : State) (im : Image) : (s.putRings im).tu = s.tu := State.tu_foldl _ (fun _ _ => by rfl) _ s

theorem State.tu_putPower (s : State) (im : Image) : (s.putPower im).tu = s.tu := State.tu_foldl _ (fun _ _ => by exact State.tu_ite rfl rfl) _ _

theorem State.tu_putHistory (s : State) (im : Image) : (s.putHistory im).tu = s.tu := State.tu_foldl _ (fun _ _ => by rfl) _ s

theorem State.tu_setCount (s : State) (n : Nat) (v : Word) (pc inc : Nat) (isSet : Bool) : (s.setCount n v pc inc isSet).tu = s.tu :=
  State.tu_ite (State.evt_tu _ _ _ _) rfl

theorem State.tu_putSync (s : State) (im : Image) : (s.putSync im).tu = s.tu :=
  State.tu_foldl _ (fun _ _ => by exact State.tu_ite (State.tu_setCount _ _ _ _ _ _) rfl) _ s

theorem State.tu_putRoutes (s : State) (im : Image) : (s.putRoutes im).tu = s.tu := State.evt_tu _ _ _ _

theorem State.tu_clearSignallers (s : State) : s.clearSignallers.tu = s.tu := rfl

theorem State.tu_putSafety (s : State) (im : Image) : (s.putSafety im).tu = s.tu := rfl

theorem State.tu_putOverflow (s : State) (im : Image) : (s.putOverflow im).tu = s.tu := rfl

theorem State.tu_setReady (s : State) : s.setReady.tu = s.tu := State.tu_ite rfl (State.evt_tu _ _ _ _)

theorem State.tu_resetRecs (s : State) (resumed : Bool) : (s.resetRecs resumed).tu = s.tu := by
  unfold State.resetRecs
  split
  · exact State.tu_ite ((State.evt_tu _ _ _ _).trans (State.evt_tu _ _ _ _)) rfl
  · rfl

theorem State.tu_commitImage (s : State) (im : Image) : (s.commitImage im).tu = s.tu := by
  unfold State.commitImage
  dsimp only
  rw [State.tu_resetRecs, State.tu_setReady, State.evt_tu]
  dsimp only
  rw [State.tu_putRoutes, State.tu_putSync, State.tu_clearSignallers, State.tu_putHistory, State.tu_putSafety, State.tu_putMap, State.tu_putPower,
    State.tu_putOverflow, State.tu_putRings, State.tu_putPorts, State.tu_putChannels, State.tu_putPeals, State.tu_putQueues, State.tu_putPartitions]
  exact State.tu_ite rfl (State.tu_putGong _ _)

theorem State.tu_tryCommit (s : State) : s.tryCommit.tu = s.tu := by
  unfold State.tryCommit
  split
  · rfl
  · split
    · exact (State.tu_commitImage _ _).trans rfl
    · exact State.evt_tu _ _ _ _

theorem State.tu_gongCommit (s : State) : s.gongCommit.1.tu = s.tu := by
  unfold State.gongCommit
  split
  · split
    · exact s.tu_commitImage _
    · rfl
  · split
    · split
      · rfl
      · exact s.tu_tryCommit
    · rfl

theorem State.tu_committed (s : State) (ds : List (Nat × Option Nat)) :
    (if s.gongCommit.2 = true then s.gongCommit.1 else s.gongCommit.1.applyMaps ds).tu = s.tu :=
  State.tu_ite s.tu_gongCommit ((State.tu_applyMaps _ _).trans s.tu_gongCommit)

theorem State.tu_coreGongs (s : State) (l : List Nat) : (l.foldl (fun s pc => s.coreGong pc) s).tu = s.tu :=
  State.tu_foldl _ (fun s pc => by exact s.tu_coreGong pc) l s

/-! ### A gong sequence, the strokes and the curfew -/

theorem State.tu_gongSeq (s : State) (t : Int) : (s.gongSeq t).tu = s.tu := by
  unfold State.gongSeq
  dsimp only
  rw [State.tu_fall, State.tu_cutRecords, State.tu_nextGong, State.tu_releaseAt, State.tu_selectType, State.tu_onLcs, State.tu_unknellNow, State.tu_rejoin,
    State.tu_histories, State.tu_swapRoles, State.tu_routeUpdate, State.tu_applyPairs]
  rw [State.tu_committed]
  rw [State.tu_coreGongs, State.tu_margins, State.tu_countCuts, State.tu_cutAll, State.tu_finishFetches, State.tu_fire]

theorem State.tu_strokesDue (s : State) : s.strokesDue.tu = s.tu :=
  State.tu_ite rfl (State.tu_foldl _ (fun _ _ => by exact (State.tu_releaseAt _ _).trans rfl) _ s)

theorem State.tu_curfewStart (s : State) : s.curfewStart.tu = s.tu := State.tu_foldl _ (fun _ _ => by rfl) _ _

theorem State.tu_meetGrid (s : State) : s.meetGrid.tu = s.tu := by
  have met : (if !s.gong.mode && s.gongDue then s.gongSeq s.now else s.strokesDue).tu = s.tu := State.tu_ite (s.tu_gongSeq _) s.tu_strokesDue
  exact State.tu_ite met (State.tu_ite ((State.tu_curfewStart _).trans met) met)

/-! ### A step of presented time (R247, R250) -/

theorem State.tu_unlock (s : State) : s.unlock.tu = { s.tu with locked := false, lockRun := 0 } := State.tu_ite (State.evt_tu _ _ _ _) rfl

/-- R247: what a step of presented time counts. -/
theorem State.tu_timeStep (s : State) (d : Int) (code : Nat) : (s.timeStep d code).tu = { s.tu with
    offset := s.tu.offset + d, epoch := (s.tu.epoch + 1) % 256, stepCnt := satAdd s.tu.stepCnt 1 max32, invalid := false, coarse := true
    locked := false, lockRun := 0 } := by
  unfold State.timeStep
  dsimp only
  rw [State.tu_meetGrid, State.tu_unlock]
  dsimp only
  rw [State.evt_tu]
  rfl

/-- The epoch of presented time and the count of its steps. -/
def TimeUnit.steps (t : TimeUnit) : Nat × Nat := (t.epoch, t.stepCnt)

theorem TimeUnit.steps_elapse (t : TimeUnit) (n : Nat) : (t.elapse n).steps = t.steps := by
  unfold TimeUnit.elapse
  split <;> rfl

theorem State.steps_applyRate (s : State) : s.applyRate.tu.steps = s.tu.steps := by
  unfold State.applyRate
  split <;> rfl

theorem State.steps_elapse (s : State) (n : Nat) : (s.elapse n).tu.steps = s.tu.steps := by
  unfold State.elapse
  split
  · rfl
  · split
    · exact (TimeUnit.steps_elapse _ _).trans ((State.steps_applyRate _).trans (s.tu.steps_elapse 1))
    · exact s.tu.steps_elapse n

/-! ### The writes -/

theorem exec_rateNomWrite {s : State} (served : s.serves 0x10020 = true) (v : DWord) : ∃ t, exec (.rateNomWrite v) s = .next t
    ∧ t.tu = { s.tu with ratePend := true } ∧ t.reg 0x10020 = v.setWidth 32 ∧ t.reg 0x10024 = (v >>> 32).setWidth 32
    ∧ (∀ r, r ≠ 0x10020 → r ≠ 0x10024 → t.reg r = s.reg r) ∧ t.gong = s.gong ∧ t.cores = s.cores ∧ t.cfg = s.cfg
    ∧ t.hcp = { s.hcp with resp := .ok } := by
  have regs (r : Nat) : ((s.granted 0x10020).rateNomWrite v).reg r
      = if r = 0x10024 then (v >>> 32).setWidth 32 else if r = 0x10020 then v.setWidth 32 else s.reg r := by
    refine (State.reg_setReg _ _ _ _).trans ?_
    rw [State.reg_setReg, reg_granted]
  refine ⟨_, exec_served_as rfl served rfl rfl (applied_rateNomWrite v _), ?_, ?_, ?_, fun r low high => ?_, ?_, ?_, ?_, ?_⟩
  · rw [settle_tu]
    rfl
  · rw [reg_answered (by rfl), regs]
    rfl
  · rw [reg_answered (by rfl), regs]
    rfl
  · rw [reg_answered (by rfl), regs, if_neg high, if_neg low]
  · rw [settle_gong]
    rfl
  · rw [settle_cores]
    rfl
  · rw [settle_cfg]
    rfl
  · rw [settle_hcp]
    rfl

theorem exec_setCtrlGo {s : State} (served : s.serves 0x1004C = true) : exec .setCtrlGo s = .next (settle s ((s.granted 0x1004C).setGo.respond .ok)) :=
  exec_served_as rfl served rfl rfl (applied_setCtrlGo _)

/-- Settles O15: GO steps presented time once, and neither the tick it takes nor a gong that falls due counts a step. -/
theorem timeUnitWrites : Obligations.TimeUnitWrites := by
  intro s
  refine ⟨exec_rateNomWrite, fun served => ⟨fun second => ?_, fun within => ⟨_, exec_setCtrlGo served, ?_⟩⟩⟩
  · have ignored : (s.granted 0x1004C).setGo = s.granted 0x1004C := if_pos second
    rw [exec_setCtrlGo served, ignored]
  · obtain ⟨epoch, stepCnt⟩ := Prod.mk.inj ((s.granted 0x1004C).steps_elapse 1)
    rw [settle_tu]
    have stepped : (s.granted 0x1004C).setGo.tu = _ := (congrArg State.tu (if_neg (Nat.not_lt.mpr within))).trans (State.tu_timeStep _ _ _)
    have answered : (State.respond (s.granted 0x1004C).setGo .ok).tu = (s.granted 0x1004C).setGo.tu := rfl
    rw [answered, stepped]
    dsimp only
    rw [epoch, stepCnt]
    exact ⟨rfl, rfl, rfl⟩

end Sys2Proof.Machine
end
